-- ==== Sys2Proof/Word.lean ====
section
/-! DEFINITION. The words the AK520's registers, packets and memories are made of (R9: little-endian, dwords of 32 bits). -/

namespace Sys2Proof

/-- A byte of memory or of a packet. -/
abbrev Byte := BitVec 8

/-- A dword, the unit in which packets, replies and registers are numbered (R9, R316). -/
abbrev Dword := BitVec 32

end Sys2Proof
end

