-- ==== Sys2Proof/Syntax.lean ====
section
/-! DEFINITION. The commands of the block: one constructor per row of spec/opcode_table.json, with the operands that the
row's rule names.  A host or management command carries its carrier's owner identity (R387) and its packet (R316); an
event of a unit carries what the outside, or another unit, brings to it. -/

namespace Sys2Proof

/-- A command packet: dwords DW0 to DW15 (Table 09.2). -/
structure Packet where
  dws : List Dword := []
  deriving DecidableEq, Repr, Inhabited

/-- The completion of a host-memory read (R574, Table 16.10): successful or with UR or CA status, possibly poisoned. -/
structure HostCpl where
  ok : Bool := true
  ep : Bool := false
  data : List Byte := []
  deriving DecidableEq, Repr, Inhabited

/-- What the bus says of a P2 transfer beside its bytes (R578, R579): the address it was sent to, whether it ended early
or carried a parity error, and the PEC byte's outcome where one was sent; for a READ, a PEC byte that was clocked. -/
structure P2Xfer where
  addr : Nat := 0
  early : Bool := false
  parityError : Bool := false
  pec : Option Bool := none
  deriving DecidableEq, Repr, Inhabited

/-- A packet of the on-chip network: the header fields of Table 07.3, the payload, and the poison marks of its 32-byte
sectors (Table 07.2).  `rsvd` holds the header's reserved bits, DW0 [7] first and DW7 [31:24] last. -/
structure NocPkt where
  typ : Nat := 0
  vn : Nat := 0
  dest : Nat := 0
  dport : Nat := 0
  src : Nat := 0
  sport : Nat := 0
  part : Nat := 0
  sys : Bool := false
  tag : Nat := 0
  len : Nat := 0
  addr : Nat := 0
  status : Nat := 0
  hint : Nat := 0
  mask : BitVec 64 := 0
  reason : Nat := 0
  tcnt : Nat := 0
  tval : Nat := 0
  mtotal : Nat := 0
  rsvd : Nat := 0
  data : List Byte := []
  pois : List Nat := []
  deriving DecidableEq, Repr, Inhabited

/-- What an error-correcting code found (R419 to R421, R208): nothing, a corrected error, or an uncorrectable one with the
outcome of the pattern test of R420. -/
inductive EccFinding where
  | clean
  | corrected
  | uncorrectable (testPassed : Bool)
  deriving DecidableEq, Repr, Inhabited

/-- What happened to a packet on the way (R244, R245): a WPAR error in the header slot, or in payload sectors; and for an RD the
bad words of the memory that it reads, as (device address, finding) (R208, R419, R420). -/
structure Damage where
  header : Bool := false
  sectors : List Nat := []
  ecc : List (Nat × EccFinding) := []
  deriving DecidableEq, Repr, Inhabited

/-- A Peloc flit: the link header of Table 08.4 and the body. -/
structure Flit where
  kind : Nat := 0
  vc : Nat := 0
  head : Bool := false
  tail : Bool := false
  seq : Nat := 0
  ack : Nat := 0
  crvc : Nat := 0
  crtot : Nat := 0
  body : List Byte := []
  deriving DecidableEq, Repr, Inhabited

/-- What the FEC made of the codewords whose decoding a flit completes (R264, R298): those with a corrected symbol and those that it could
not correct, whether one of the latter overlaps the flit, and the corrected symbols by lane. -/
structure FecResult where
  corrected : Nat := 0
  uncorrectable : Nat := 0
  tainted : Bool := false
  symbols : List (Nat × Nat) := []
  deriving DecidableEq, Repr, Inhabited

/-- A training frame (Table 08.13): whether its marker is inverted, its control and status words, whether the lane's receiver is locked to
it, and what that receiver finds: whether it is ready, and the taps, the PRESET and the precoding that it asks the peer for. -/
structure TrainFrame where
  inverted : Bool := false
  control : BitVec 64 := 0
  status : BitVec 64 := 0
  locked : Bool := true
  ready : Bool := false
  want : List Nat := []
  preset : Bool := false
  precode : Bool := false
  deriving DecidableEq, Repr, Inhabited

/-- Four successive frame words at a port, as they were received (R268). -/
structure PortFrames where
  port : Nat := 0
  words : List (List Byte) := []
  deriving DecidableEq, Repr, Inhabited

/-- What is found of a lane: its lock is lost, or else its count of corrected symbols is to be judged; in the frame of this FCNT (R298). -/
structure LaneFinding where
  lane : Nat := 0
  lost : Bool := false
  fcnt : Nat := 0
  deriving DecidableEq, Repr, Inhabited

/-- The frame at which a direction of a port, transmit or receive, is to switch its width (R298). -/
structure SwitchPoint where
  port : Nat := 0
  tx : Bool := false
  fcnt : Nat := 0
  deriving DecidableEq, Repr, Inhabited

/-- An error in one of Kestrel's memories (R418, R493): in a loop's coefficient memory or state, in a word of its repetitive memory,
or in a word of its trace buffer. -/
inductive KestrelError where
  | loop (n : Nat) (f : EccFinding)
  | rep (n word : Nat) (f : EccFinding)
  | trace (n word : Nat) (f : EccFinding)
  deriving DecidableEq, Repr, Inhabited

/-- The sensors latched at cycle 0 of an inner sample (R474), in the scales of Table 13.3; `none` is an invalid reading.
`volts` and `amps` are indexed by loop L0 to L4, `temps` holds the hottest sensor of each quadrant, and `start` the KCLK cycle
at which each bus's voltage write starts. -/
structure Sensors where
  volts : List (Option Int) := []
  amps : List (Option Int) := []
  temps : List (Option Int) := []
  start : List Nat := []
  ecc : List KestrelError := []
  deriving DecidableEq, Repr, Inhabited

/-- The commands of the AK520. -/
inductive Instr where
  /-- NOP (R359): Firmware-answered command that does nothing and replies ST_OK. -/
  | nop (c : Nat) (p : Packet)
  /-- IDENTIFY (R359): Hardware-answered command returning the identification values, strap, stage, serial number and ledger usage. -/
  | identify (c : Nat) (p : Packet)
  /-- GET_STATUS (R322): Hardware-answered command returning ESEQ, stage, device state, privilege, result counts and the timebase for the carrying view. -/
  | getStatus (c : Nat) (p : Packet)
  /-- GET_BRINGUP (R547): Hardware-answered command reporting the bring-up stage, any failure and its cause, stage times and HBM training masks. -/
  | getBringup (c : Nat) (p : Packet)
  /-- CLEAR_ATTN (R338): Clears the masked attention bits of the carrying view whose LASTSEQ is not later than SNAP, under the snapshot rule. -/
  | clearAttn (c : Nat) (p : Packet)
  /-- SET_THRESHOLD (R360): Sets or disables one of the view's 32 counter thresholds that raise ATTN_COUNTER. -/
  | setThreshold (c : Nat) (p : Packet)
  /-- READ_COUNTERS (R359): Reads N INSTs of a counter in one CCLK cycle, inline or to an OUT address. -/
  | readCounters (c : Nat) (p : Packet)
  /-- CLEAR_COUNTERS (R359): Clears a named counter INST, or all counters or INSTs, and rearms their thresholds. -/
  | clearCounters (c : Nat) (p : Packet)
  /-- PART_CREATE (R392): Takes an ABSENT partition to ACTIVE with its stream range and nothing else. -/
  | partCreate (c : Nat) (p : Packet)
  /-- PART_DESTROY (R409): Starts destroying a partition: DESTROYING state, job ending and resource release, replying ST_PENDING. -/
  | partDestroy (c : Nat) (p : Packet)
  /-- PART_RESET (R407): Starts a partition reset: RESETTING state, locks broken, jobs ended, replying ST_PENDING. -/
  | partReset (c : Nat) (p : Packet)
  /-- PART_BIND_PORT (R393): Binds or unbinds a partition to P1 or P3. -/
  | partBindPort (c : Nat) (p : Packet)
  /-- PART_TILES (R394): Removes then adds tiles to a partition as one step, zeroing added tiles before replying. -/
  | partTiles (c : Nat) (p : Packet)
  /-- PART_READ (R361): Writes a 64-byte summary of a partition to an OUT address. -/
  | partRead (c : Nat) (p : Packet)
  /-- QP_CREATE (R328): Creates queue pair 1 to 63 on the carrying port, optionally bound to a partition, starting it afresh. -/
  | qpCreate (c : Nat) (p : Packet)
  /-- QP_DELETE (R328): Deletes a queue pair of the carrying port when no command of it is in progress, breaking its locks. -/
  | qpDelete (c : Nat) (p : Packet)
  /-- PRIV_GRANT (R313): Sets the privilege of another port within the P2 and P3 limits. -/
  | privGrant (c : Nat) (p : Packet)
  /-- LOCK_ACQUIRE (R396): Takes a free or broken lock without waiting, or reports it held. -/
  | lockAcquire (c : Nat) (p : Packet)
  /-- LOCK_RELEASE (R396): Frees a lock held by the caller unless a sequence on it is open. -/
  | lockRelease (c : Nat) (p : Packet)
  /-- SEQ_BEGIN (R399): Opens a locked sequence so that the caller's stageable commands are staged. -/
  | seqBegin (c : Nat) (p : Packet)
  /-- SEQ_COMMIT (R400): Re-checks every staged change in order and applies all of them or none, closing the sequence. -/
  | seqCommit (c : Nat) (p : Packet)
  /-- SEQ_ABORT (R401): Discards the staged changes and closes the sequence, keeping the lock. -/
  | seqAbort (c : Nat) (p : Packet)
  /-- LOCK_READ (R362): Reports a lock's holder, broken state, sequence state and staged count. -/
  | lockRead (c : Nat) (p : Packet)
  /-- POOL_CREATE (R402): Creates a buffer pool with primary and optional spill extents, every buffer FREE with GEN 0. -/
  | poolCreate (c : Nat) (p : Packet)
  /-- POOL_DESTROY (R363): Destroys a pool with no allocated buffer and no queued job naming it. -/
  | poolDestroy (c : Nat) (p : Packet)
  /-- BUF_ALLOC (R403): Allocates the lowest free buffer, primary before spill, advancing its generation and returning a handle. -/
  | bufAlloc (c : Nat) (p : Packet)
  /-- BUF_FREE (R405): Frees a buffer after the handle, generation, state and owner checks, counting each refusal. -/
  | bufFree (c : Nat) (p : Packet)
  /-- POOL_READ (R363): Reports a pool's validity, owner, buffer size and free and allocated counts. -/
  | poolRead (c : Nat) (p : Packet)
  /-- WINDOW_MAP (R201): Checks and maps a window of a partition, allocating and zeroing pages, replying ST_PENDING. -/
  | windowMap (c : Nat) (p : Packet)
  /-- WINDOW_UNMAP (R218): Returns a window's pages to the free runs unless it is in use or busy. -/
  | windowUnmap (c : Nat) (p : Packet)
  /-- WINDOW_READ (R365): Writes a window entry to an OUT address. -/
  | windowRead (c : Nat) (p : Packet)
  /-- HOST_SPILL_SET (R212): Sets or clears the host spill region of a PCIe function. -/
  | hostSpillSet (c : Nat) (p : Packet)
  /-- PEER_SPILL_SET (R213): Sets or clears the peer spill range of a Peloc port. -/
  | peerSpillSet (c : Nat) (p : Packet)
  /-- CONTEXT_BASE (R112): Sets the context table base and starts clearing all 65,536 contexts, replying ST_PENDING. -/
  | contextBase (c : Nat) (p : Packet)
  /-- MEM_READ (R365): Reads device memory as SYS traffic to an OUT address, reporting poisoned sectors. -/
  | memRead (c : Nat) (p : Packet)
  /-- MEM_WRITE (R365): Writes device memory from an IN address as SYS traffic with good check bits. -/
  | memWrite (c : Nat) (p : Packet)
  /-- CODEC_SUBMIT (R120): Checks a codec job descriptor and queues the job, replying ST_PENDING or ST_QUEUE_FULL. -/
  | codecSubmit (c : Nat) (p : Packet)
  /-- TABLE_LOAD (R118): Loads a static code-table slot for a partition or globally, advancing its generation. -/
  | tableLoad (c : Nat) (p : Packet)
  /-- TABLE_RELEASE (R118): Makes a static slot free, keeping its generation counter. -/
  | tableRelease (c : Nat) (p : Packet)
  /-- STREAM_CONFIG (R117): Configures a stream context and resets its state, capturing the slot generation. -/
  | streamConfig (c : Nat) (p : Packet)
  /-- STREAM_RESET (R117): Returns a stream context to zero. -/
  | streamReset (c : Nat) (p : Packet)
  /-- STREAM_READ (R113): Writes the 64-byte stream context to an OUT address. -/
  | streamRead (c : Nat) (p : Packet)
  /-- STREAM_FLUSH (R134): Forms the pending bytes of an encode context into a flushed block, or queues the flush behind the holder. -/
  | streamFlush (c : Nat) (p : Packet)
  /-- PROGRAM_LOAD (R164): Reads and checks a schedule image through the partition's windows, replying ST_PENDING. -/
  | programLoad (c : Nat) (p : Packet)
  /-- PROGRAM_RUN (R166): Starts every tile of a loaded program at one ACLK edge from the initial state. -/
  | programRun (c : Nat) (p : Packet)
  /-- PROGRAM_ABORT (R184): Ends a running program with ST_ABORTED. -/
  | programAbort (c : Nat) (p : Packet)
  /-- PROGRAM_UNLOAD (R165): Unloads a program that is not running, advancing its PROG generation. -/
  | programUnload (c : Nat) (p : Packet)
  /-- GET_RESULT (R335): Returns the final status and result of a ticket's slot, or ST_PENDING or ST_NO_RESULT. -/
  | getResult (c : Nat) (p : Packet)
  /-- ACK_RESULT (R335): Frees a result slot that holds a final status and advances its generation. -/
  | ackResult (c : Nat) (p : Packet)
  /-- MCAST_REPORT (R234): Writes the partition's on-chip multicast report to an OUT address. -/
  | mcastReport (c : Nat) (p : Packet)
  /-- LINK_CONFIG (R275): Writes a Peloc port's configuration, effective at next training except TOLINK and SLEEPIDLE. -/
  | linkConfig (c : Nat) (p : Packet)
  /-- LINK_TRAIN (R282): Starts training a DOWN Peloc port with a peer wait, replying ST_PENDING. -/
  | linkTrain (c : Nat) (p : Packet)
  /-- LINK_DOWN (R302): Sends DOWN_NOTICE and takes a Peloc port DOWN. -/
  | linkDown (c : Nat) (p : Packet)
  /-- LINK_STATUS (R276): Writes a Peloc port's state, widths, peer HELLO, lane counts and taps to an OUT address. -/
  | linkStatus (c : Nat) (p : Packet)
  /-- LINK_RECAL (R300): Runs recalibration on an ACTIVE port at once, replying ST_PENDING. -/
  | linkRecal (c : Nat) (p : Packet)
  /-- CHANNEL_BIND (R265): Binds or unbinds a link channel to a partition, unless a transaction of it is outstanding. -/
  | channelBind (c : Nat) (p : Packet)
  /-- CHANNEL_READ (R274): Returns a link channel entry. -/
  | channelRead (c : Nat) (p : Packet)
  /-- MC_GROUP_SET (R277): Writes a link multicast group entry for a partition. -/
  | mcGroupSet (c : Nat) (p : Packet)
  /-- LINK_PUSH (R293): Starts pushing source blocks one per BLOCK_PUSH to a peer address, replying ST_PENDING. -/
  | linkPush (c : Nat) (p : Packet)
  /-- LINK_MCAST (R296): Starts a link multicast at the root by sending LMC_RESERVE on each child port. -/
  | linkMcast (c : Nat) (p : Packet)
  /-- LINK_MC_REPORT (R278): Writes the root's 400-byte link multicast report to an OUT address. -/
  | linkMcReport (c : Nat) (p : Packet)
  /-- LOOP_READ (R370): Reports a Kestrel loop's mode, saturation, actuator, set-point and measured outputs. -/
  | loopRead (c : Nat) (p : Packet)
  /-- LOOP_SET_MODE (R479): Requests a permitted Kestrel mode transition, effective at the next sample boundary. -/
  | loopSetMode (c : Nat) (p : Packet)
  /-- LOOP_WRITE_COEF (R481): Writes an open loop's coefficient memory, effective whole at the next sample boundary. -/
  | loopWriteCoef (c : Nat) (p : Packet)
  /-- LOOP_SET_POINT (R482): Writes a loop's host set-point and its limits. -/
  | loopSetPoint (c : Nat) (p : Packet)
  /-- LOOP_TRACE (R499): Starts writing one trace record set per sample of a loop to HBM. -/
  | loopTrace (c : Nat) (p : Packet)
  /-- LOOP_INJECT (R500): Starts adding an injection sequence at a loop's injection point while tracing. -/
  | loopInject (c : Nat) (p : Packet)
  /-- AVS_ACCESS (R498): Queues a partner voltage or current read or voltage write on an AVSBus for Kestrel to carry out. -/
  | avsAccess (c : Nat) (p : Packet)
  /-- BOARD_STATUS (R370): Reports alert, stuck, overrange, fan speed and FAN_PWM duty state. -/
  | boardStatus (c : Nat) (p : Packet)
  /-- CHECK_MODE_SET (R435): Sets a partition's check mode for its next PROGRAM_RUN. -/
  | checkModeSet (c : Nat) (p : Packet)
  /-- LEDGER_READ (R371): Writes up to 128 fault ledger records to an OUT address. -/
  | ledgerRead (c : Nat) (p : Packet)
  /-- SIGNATURE_READ (R450): Builds and writes the CBOR Ilueri signature record of a ledger slot. -/
  | signatureRead (c : Nat) (p : Packet)
  /-- KAK_RUN (R441): Starts a known-answer kernel on a tile, replying ST_PENDING. -/
  | kakRun (c : Nat) (p : Packet)
  /-- DRAIN_DEADLINE (R448): Sets the drain deadline, replacing that of a drain in progress. -/
  | drainDeadline (c : Nat) (p : Packet)
  /-- DRAIN_START (R447): Starts an operator drain at step 1 of the drain procedure. -/
  | drainStart (c : Nat) (p : Packet)
  /-- DRAIN_CANCEL (R448): Ends an operator drain and returns the device to RUNNING. -/
  | drainCancel (c : Nat) (p : Packet)
  /-- ERR_INJECT (R451): Arms a count of injected faults of a kind on a unit while debug is unlocked. -/
  | errInject (c : Nat) (p : Packet)
  /-- SELFTEST_CONFIG (R440): Enables background known-answer kernels and selects which may run. -/
  | selftestConfig (c : Nat) (p : Packet)
  /-- PROBE_SET (R519): Attaches and configures an Owl probe, clearing its count, in one NCLK cycle. -/
  | probeSet (c : Nat) (p : Packet)
  /-- PROBE_READ (R520): Returns a probe's count, mode and fenced state taken in one NCLK cycle. -/
  | probeRead (c : Nat) (p : Packet)
  /-- TRACE_CONFIG (R515): Sets the Owl trace buffer base, size and wrap policy. -/
  | traceConfig (c : Nat) (p : Packet)
  /-- TRACE_CONTROL (R523): Starts or stops the Owl trace, or writes a MARK record. -/
  | traceControl (c : Nat) (p : Packet)
  /-- TRACE_STATUS (R372): Reports the trace write offset, running, wrapped and full flags and records lost. -/
  | traceStatus (c : Nat) (p : Packet)
  /-- DOMAIN_OFF (R253): Raises the fence of a domain and starts its drain for power-down. -/
  | domainOff (c : Nat) (p : Packet)
  /-- DOMAIN_ON (R373): Starts powering a domain on, replying ST_PENDING. -/
  | domainOn (c : Nat) (p : Packet)
  /-- DOMAIN_STATUS (R373): Reports which quadrants and Peloc ports are on and fenced. -/
  | domainStatus (c : Nat) (p : Packet)
  /-- PATCH_LOAD (R552): Reads and verifies a signed firmware patch image from HBM, blocking firmware commands meanwhile. -/
  | patchLoad (c : Nat) (p : Packet)
  /-- PATCH_REMOVE (R553): Returns the command processor to the ROM firmware alone. -/
  | patchRemove (c : Nat) (p : Packet)
  /-- FW_INFO (R374): Reports ROM and patch versions, the patch digest and the last rejection. -/
  | fwInfo (c : Nat) (p : Packet)
  /-- DEBUG_CHALLENGE (R583): Returns a fresh 16-byte nonce on P3, replacing any earlier one. -/
  | debugChallenge (c : Nat) (p : Packet)
  /-- DEBUG_UNLOCK (R583): Verifies a P-384 signature over the nonce and serial number and makes P3 ADMIN on success. -/
  | debugUnlock (c : Nat) (p : Packet)
  /-- DEBUG_LOCK (R374): Relocks debug and returns P3 to TENANT. -/
  | debugLock (c : Nat) (p : Packet)
  /-- QP0_ENABLE (R328): Write of QP0's EN bit enables QP0 afresh or stops its fetching. -/
  | qp0Enable (fn : Nat) (en : Bool)
  /-- SQ_DOORBELL (R327): Write of SQTAIL makes the AK520 start fetching submission entries, or stops the queue pair if out of range. -/
  | sqDoorbell (fn qp value : Nat)
  /-- CQ_DOORBELL (R327): Write of CQHEAD frees completion entries for further replies. -/
  | cqDoorbell (fn qp value : Nat)
  /-- SQ_ENTRY_FETCH (R327): The front end fetches a submission entry once a completion entry is reserved for its reply. -/
  | sqEntryFetch (fn qp : Nat)
  /-- BAR2_SEGMENT_WRITE (R199): Write of a BAR2 segment register, including the W1C SEGERR bit, taking effect for later accesses. -/
  | bar2SegmentWrite (fn seg dw : Nat) (value : Dword)
  /-- BAR2_WRITE (R216): A host write through BAR2 is translated and checked, and performed or discarded. -/
  | bar2Write (fn offset : Nat) (data : List Byte) (ep : Bool)
  /-- BAR2_READ (R216): A host read through BAR2 returns data, all-ones on failure, or a poisoned completion. -/
  | bar2Read (fn offset len : Nat)
  /-- REGISTER_WRITE (R11): A write to a register with no behaviour of its own updates it under its access code. -/
  | registerWrite (fn offset size : Nat) (value : Dword) (ep : Bool)
  /-- MAILBOX_GO (R334): A write of 1 to GO takes CMD and runs the command, repeats the last reply, or sets RETRY when busy. -/
  | mailboxGo (port : Nat)
  /-- CONFIG_REQUEST (R575): A PCI configuration request always receives a successful completion; `reg` is a byte offset. -/
  | configRequest (fn reg : Nat) (write : Option Dword)
  /-- POWER_STATE_CHANGE (R576): A PCI power-state change between D0 and D3hot, resetting nothing. -/
  | powerStateChange (fn : Nat) (d3 : Bool)
  /-- BUS_MASTER_DISABLE (R599): Clearing Bus Master Enable makes later host-memory requests of the function fail at once. -/
  | busMasterDisable (fn : Nat)
  /-- FUNCTION_LEVEL_RESET (R572): A function-level reset of a PCIe function starts a port reset of its port. -/
  | functionLevelReset (fn : Nat)
  /-- PCIE_LINK_DOWN (R573): A PCIe link going down or receiving a hot reset starts a port reset of its port. -/
  | pcieLinkDown (fn : Nat)
  /-- HOST_COMPLETION (R574): A completion for a host-memory read arrives, possibly with UR, CA or EP, and the access proceeds or fails. -/
  | hostCompletion (tag : Nat) (cpl : HostCpl)
  /-- COMPLETION_TIMEOUT (R574): A host-memory read's completion timer expires and the access fails. -/
  | completionTimeout (tag : Nat)
  /-- PORT_RESET_COMPLETE (R545): A port reset completes and held mailbox GOs are taken. -/
  | portResetComplete (port : Nat)
  /-- P2_WRITE (R566): P2 WRITE operation writes data into the mailbox at an offset, whole at its STOP. -/
  | p2Write (x : P2Xfer) (offset : Nat) (data : List Byte)
  /-- P2_SETPTR (R566): P2 SETPTR operation sets the mailbox read pointer and length. -/
  | p2Setptr (x : P2Xfer) (offset len : Nat)
  /-- P2_READ (R566): P2 READ returns L bytes from the read pointer from one mailbox snapshot. -/
  | p2Read (x : P2Xfer)
  /-- P2_WRITEGO (R566): P2 WRITEGO writes mailbox data and acts as GO at its STOP. -/
  | p2Writego (x : P2Xfer) (offset : Nat) (data : List Byte)
  /-- SMBUS_TIMEOUT (R579): SCL held low over 30 ms abandons the P2 transfer in progress. -/
  | smbusTimeout
  /-- ENTDAA (R577): I3C dynamic address assignment; receiving an address moves P2 to I3C mode with a port reset. -/
  | entdaa (addr : Option Nat)
  /-- SETDASA (R577): I3C direct dynamic address from static address moves P2 to I3C mode with a port reset. -/
  | setdasa (staticAddr addr : Nat)
  /-- RSTDAA (R577): I3C reset of dynamic address returns P2 to SMBus mode with a port reset. -/
  | rstdaa
  /-- SETNEWDA (R580): I3C CCC that changes P2's dynamic address. -/
  | setnewda (addr : Nat)
  /-- GETPID (R567): I3C CCC returning the 48-bit provisional ID. -/
  | getpid
  /-- GETBCR (R567): I3C CCC returning BCR 0x00. -/
  | getbcr
  /-- GETDCR (R567): I3C CCC returning DCR 0x00. -/
  | getdcr
  /-- I3C_GETSTATUS (R580): I3C GETSTATUS CCC returning 0x0000. -/
  | i3cGetstatus
  /-- GETMWL (R580): I3C CCC returning the maximum write length 259. -/
  | getmwl
  /-- GETMRL (R580): I3C CCC returning the maximum read length 256. -/
  | getmrl
  /-- SETMWL (R580): I3C CCC setting the maximum write length. -/
  | setmwl (value : Nat)
  /-- SETMRL (R580): I3C CCC setting the maximum read length at which private reads end. -/
  | setmrl (value : Nat)
  /-- ENEC (R580): I3C enable-events CCC, accepted without effect. -/
  | enec
  /-- DISEC (R580): I3C disable-events CCC, accepted without effect. -/
  | disec
  /-- RSTACT (R580): I3C CCC setting the action of the next target reset pattern. -/
  | rstact (action : Nat)
  /-- TARGET_RESET_PATTERN (R580): An I3C target reset pattern performs the RSTACT action, a P2 port reset by default. -/
  | targetResetPattern
  /-- EXTEST (R584): JTAG instruction giving the boundary register control of the covered pins. -/
  | extest
  /-- IDCODE (R568): JTAG instruction selecting the IDCODE register 0xB05209AB. -/
  | idcode
  /-- SAMPLE_PRELOAD (R568): JTAG SAMPLE/PRELOAD instruction of IEEE 1149.1. -/
  | samplePreload
  /-- CLAMP (R584): JTAG CLAMP instruction taking the covered pins from their functions. -/
  | clamp
  /-- HIGHZ (R584): JTAG HIGHZ instruction taking the covered pins from their functions. -/
  | highz
  /-- MBOX (R568): Private JTAG instruction selecting the 46-bit mailbox register. -/
  | mbox
  /-- BYPASS (R568): JTAG BYPASS instruction, also taken by every unlisted code. -/
  | bypass
  /-- MBOX_UPDATE_DR (R569): Update-DR with REQ set starts one dword P3 mailbox access, or is refused with ERR. -/
  | mboxUpdateDr (value : BitVec 46)
  /-- MBOX_CAPTURE_DR (R569): Capture-DR loads the outcome of the most recent MBOX access. -/
  | mboxCaptureDr
  /-- MBOX_ACCESS_COMPLETE (R581): A P3 mailbox dword access completes within 100 ns, possibly acting as GO. -/
  | mboxAccessComplete
  /-- TRST (R581): TRST_N assertion or entry to Test-Logic-Reset starts a P3 port reset and selects IDCODE. -/
  | trst
  /-- NONCE_EXPIRY (R583): A debug nonce becomes invalid 10 s after issue. -/
  | nonceExpiry
  /-- PWROK_DEASSERT (R538): PWROK deasserted starts a cold reset. -/
  | pwrokDeassert
  /-- SUPPLY_DIP (R613): VDD_SOC or VDD_IO below range for at least 1 µs acts as a PWROK deassertion. -/
  | supplyDip (nanoseconds : Nat)
  /-- SYS_RST (R538): SYS_RST_N asserted starts a system reset. -/
  | sysRst (nanoseconds : Nat)
  /-- PERST (R538): PERST_N asserted starts a system reset. -/
  | perst (nanoseconds : Nat)
  /-- RESET_RELEASE (R539): First REFCLK edge with PWROK asserted and resets deasserted samples the straps and starts S1. -/
  | resetRelease (strapBif addr : Nat) (dbgoff : Bool)
  /-- ROOT_PLL_LOCK (R536): The root PLL locks, the dividers start and responders move to CCLK. -/
  | rootPllLock
  /-- PLL_LOCK_LOSS (R536): Loss of lock of the root or an HBM PHY PLL causes a system reset. -/
  | pllLockLoss (hbm : Option Nat)
  /-- SERDES_PLL_LOCK_LOSS (R536): Loss of lock of a Peloc serdes PLL takes the port DOWN with reason FRAME_LOSS. -/
  | serdesPllLockLoss (port : Nat)
  /-- STAGE_END (R546): A bring-up stage S1 to S3 completes and the next stage starts, raising ATTN_BRINGUP. -/
  | stageEnd (avs : List Bool)
  /-- S4_REACHED (R546): The ROM firmware declares itself ready and every opcode becomes available. -/
  | s4Reached
  /-- STAGE_DEADLINE (R548): A bring-up stage passes its deadline and the stage fails. -/
  | stageDeadline (cause unit : Nat) (stacksFailed : Nat)
  /-- BUNDLE_ISSUE (R167): A tile issues its next bundle once its wait, registers and unit queues allow, placing slot operations in queues. -/
  | bundleIssue (tile : Nat) (found : EccFinding)
  /-- COPY (R159): MOVE COPY starts copying stored block granules to a device address. -/
  | copy (tile : Nat)
  /-- MCAST (R248): MOVE MCAST starts an on-chip multicast of granules into the tile stores of a multicast set. -/
  | mcast (tile : Nat)
  /-- EXPAND (R160): An EXPAND operation starts decoding blocks from the tile store into an operand slot. -/
  | expand (tile : Nat)
  /-- MAC (R145): A MAC or MACCLR operation starts passing activation rows through the array once its slots are READY. -/
  | mac (tile : Nat) (found : EccFinding)
  /-- PACK (R162): A PACK operation reads accumulator rows and converts them for the checker and packer. -/
  | pack (tile : Nat) (found : EccFinding)
  /-- MOVE_COMPLETE (R169): A MOVE's last byte lands or its multicast results are in, sending its completion token. -/
  | moveComplete (tile : Nat)
  /-- BLOCK_CONSUMABLE (R28): A block's last original byte is written and its CRC-32C compared, making it consumable or failing it. -/
  | blockConsumable (tile : Nat) (act : Bool) (glitch : Bool)
  /-- BLOCK_REFETCH (R29): A block that failed its CRC-32C is fetched and expanded once more. -/
  | blockRefetch (tile : Nat) (act : Bool) (glitch : Bool)
  /-- ROW_RESULT_WRITTEN (R146): A MAC row's accumulator result is written 24 ACLK cycles after its last array cycle. -/
  | rowResultWritten (tile : Nat) (wrong : List (Bool × Nat × Int))
  /-- PLAUSIBILITY_DECISION (R179): The checker decides a PACK 8 ACLK cycles after its rows are read, passing it or failing it. -/
  | plausibilityDecision (tile : Nat) (glitch : Bool)
  /-- PACK_OUTPUT_WRITTEN (R171): The packer writes the blocks that a PACK forms at DREG. -/
  | packOutputWritten (tile : Nat) (found : EccFinding)
  /-- TOKEN_ARRIVAL (R151): A token signal adds its count to a tile counter or ends the job on overflow. -/
  | tokenArrival (tile counter count : Nat)
  /-- WATCHDOG (R174): A tile's no-issue count reaches WDLIM × 1,024 and the job ends with ST_WATCHDOG. -/
  | watchdog (tile : Nat)
  /-- PROGRAM_COMPLETE (R183): Every tile has halted and every operation completed, or an ending status stopped the program, and the result is posted. -/
  | programComplete (slot : Nat)
  /-- PROGRAM_LOAD_COMPLETE (R164): The image read and checks finish and PROGRAM_LOAD posts its final status. -/
  | programLoadComplete (ticket : Nat)
  /-- CONTEXT_ACQUIRE (R110): A waiting unit acquires a stream context in request order, running a queued flush first. -/
  | contextAcquire (unit stream : Nat) (found : EccFinding)
  /-- CONTEXT_FILL (R111): A non-resident context is filled from the context table, evicting the least recently released. -/
  | contextFill (stream : Nat)
  /-- CONTEXT_BASE_COMPLETE (R112): Clearing of all contexts completes and stream operations become possible. -/
  | contextBaseComplete
  /-- CODEC_SLICE_START (R121): A free codec engine takes its next slice of up to 256 blocks in round-robin partition order. -/
  | codecSliceStart (engine : Nat)
  /-- CODEC_BLOCK_DONE (R131): A codec engine finishes a block: commits and writes it, records a result entry, or fails it. -/
  | codecBlockDone (engine : Nat) (glitch : Bool)
  /-- SIZING_PASS_DONE (R128): An ATOMIC job's sizing pass ends and the job either ends ST_OUTPUT_FULL or starts its writing pass. -/
  | sizingPassDone (engine : Nat)
  /-- CODEC_JOB_END (R116): A codec job ends and its final result is posted. -/
  | codecJobEnd (engine : Nat)
  /-- WINDOW_MAP_COMPLETE (R204): Page zeroing completes and WINDOW_MAP posts its final status with the window valid. -/
  | windowMapComplete (part window : Nat)
  /-- SCRUB_BURST (R208): The background scrubber reads and corrects the next part of HBM, the Loam or a tile store. -/
  | scrubBurst (unit addr : Nat) (found : EccFinding) (last : Bool)
  /-- HBM_REFRESH (R207): A controller refreshes its stack on the refresh timer, never yielding. -/
  | hbmRefresh (stack : Nat)
  /-- HBM_CALIBRATION (R207): A channel's periodic PHY and impedance calibration, once every 128 ms. -/
  | hbmCalibration (stack channel : Nat)
  /-- RD (R240): An on-chip RD request arrives at its target and is answered with RD_DATA or NACK. -/
  | rd (k : NocPkt) (d : Damage)
  /-- WR (R240): An on-chip WR request arrives at its target and is answered with WR_ACK or NACK. -/
  | wr (k : NocPkt) (d : Damage)
  /-- TOKEN (R232): An on-chip TOKEN packet adds tokens to a tile counter and is acknowledged. -/
  | token (k : NocPkt) (d : Damage)
  /-- CFG_RD (R232): A SYS-only configuration read of a unit by the command processor. -/
  | cfgRd (k : NocPkt) (d : Damage)
  /-- CFG_WR (R232): A SYS-only configuration write of a unit by the command processor. -/
  | cfgWr (k : NocPkt) (d : Damage)
  /-- RD_DATA (R242): Read response data arrive at a requester into reserved space. -/
  | rdData (k : NocPkt) (d : Damage)
  /-- WR_ACK (R232): An acknowledgement of a WR, TOKEN or CFG_WR arrives at the requester. -/
  | wrAck (k : NocPkt) (d : Damage)
  /-- NACK (R254): A refusal arrives at a requester, ending its job or scheduling a fence retry. -/
  | nack (k : NocPkt) (d : Damage)
  /-- MC_RESERVE (R248): A multicast reserve arrives at a tile, which grants, refuses or queues it. -/
  | mcReserve (k : NocPkt) (d : Damage)
  /-- MC_GRANT (R248): A receiver's grant arrives at the multicast sender. -/
  | mcGrant (k : NocPkt) (d : Damage)
  /-- MC_DATA (R250): A multicast data packet lands in a receiver's landing buffer. -/
  | mcData (k : NocPkt) (d : Damage)
  /-- MC_RESULT (R248): A receiver's landing outcome arrives at the sender, completing the multicast when all are in. -/
  | mcResult (k : NocPkt) (d : Damage)
  /-- MC_ABORT (R258): A multicast abort releases or dequeues a receiver's reservation. -/
  | mcAbort (k : NocPkt) (d : Damage)
  /-- MC_TOKEN (R232): A multicast token adds tokens to each delivered tile's counter. -/
  | mcToken (k : NocPkt) (d : Damage)
  /-- MCAST_COMMIT_DONE (R249): A receiver finishes committing its landing buffer, frees it and answers MC_RESULT. -/
  | mcastCommitDone (tile : Nat)
  /-- MCAST_LANDING_TIMEOUT (R251): A reservation without all its granules within 16,384 NCLK cycles of its grant is freed. -/
  | mcastLandingTimeout (tile : Nat)
  /-- REQUEST_TIMEOUT (R246): An on-chip request has no response within 16,384 NCLK cycles and times out. -/
  | requestTimeout (router port tag : Nat)
  /-- FENCE_RETRY (R254): A requester resends a fenced request after waiting HINT µs. -/
  | fenceRetry (router port tag : Nat)
  /-- DOMAIN_DRAINED (R253): A fenced domain has no outstanding tags or queued work and may be switched off. -/
  | domainDrained (domain : Nat)
  /-- DOMAIN_WAKE (R253): Power good at wake resets the domain's endpoints and lowers its fence. -/
  | domainWake (domain : Nat)
  /-- FLIT_IDLE (R284): A Peloc IDLE flit delivers ACK and credits. -/
  | flitIdle (port : Nat) (raw : List Byte) (d : FecResult)
  /-- FLIT_DATA (R285): A Peloc DATA flit is accepted in sequence or discarded with a NAK. -/
  | flitData (port : Nat) (raw : List Byte) (d : FecResult)
  /-- FLIT_NAK (R286): A Peloc NAK makes the transmitter replay unacknowledged flits. -/
  | flitNak (port : Nat) (raw : List Byte) (d : FecResult)
  /-- FLIT_CTRL (R273): A Peloc CTRL flit carries one link-control message. -/
  | flitCtrl (port : Nat) (raw : List Byte) (d : FecResult)
  /-- HELLO (R282): A HELLO message from the peer during training. -/
  | hello (port : Nat)
  /-- HELLO_ACK (R282): A HELLO_ACK brings the port ACTIVE, or fails training if unacceptable. -/
  | helloAck (port : Nat)
  /-- SLEEP_REQ (R299): A peer's sleep request is answered with SLEEP_ACK or SLEEP_NAK. -/
  | sleepReq (port : Nat)
  /-- SLEEP_ACK (R299): The peer's sleep acknowledgement makes the transmitter stop after one IDLE flit. -/
  | sleepAck (port : Nat)
  /-- SLEEP_NAK (R299): The peer refuses sleep and the port stays active. -/
  | sleepNak (port : Nat)
  /-- DEGRADE (R298): A DEGRADE message schedules a direction's switch to four lanes at a named frame. -/
  | degrade (port : Nat)
  /-- DOWN_NOTICE (R302): A received DOWN_NOTICE takes the port DOWN. -/
  | downNotice (port : Nat)
  /-- PELOC_RD (R290): An inbound Peloc RD is checked and split into on-chip reads. -/
  | pelocRd (port : Nat)
  /-- PELOC_WR (R290): An inbound Peloc WR is checked and split into on-chip writes. -/
  | pelocWr (port : Nat)
  /-- PELOC_TOKEN (R292): An inbound Peloc TOKEN is checked and adds tokens to a tile counter. -/
  | pelocToken (port : Nat)
  /-- BLOCK_PUSH (R294): An inbound block push is checked and written whole before ACK. -/
  | blockPush (port : Nat)
  /-- PELOC_RD_DATA (R289): Remote read data arrive and are returned on chip as RD_DATA. -/
  | pelocRdData (port : Nat)
  /-- PELOC_ACK (R289): A Peloc ACK completes an outbound WR, TOKEN or BLOCK_PUSH. -/
  | pelocAck (port : Nat)
  /-- PELOC_NACK (R289): A Peloc NACK refuses an outbound transaction and is returned on chip. -/
  | pelocNack (port : Nat)
  /-- LMC_RESERVE (R296): A link multicast reserve arrives at a node, which grants and forwards or refuses. -/
  | lmcReserve (port : Nat)
  /-- LMC_DATA (R296): A link multicast segment arrives; the last one makes the node land and forward the data. -/
  | lmcData (port : Nat)
  /-- LMC_ABORT (R296): A link multicast abort frees the node's buffer and is forwarded. -/
  | lmcAbort (port : Nat)
  /-- LMC_GRANT (R296): A grant travels up the tree; at the root all covered nodes start the data phase. -/
  | lmcGrant (port : Nat)
  /-- LMC_RESULT (R297): A landing outcome travels up; at the root all answers complete the report. -/
  | lmcResult (port : Nat)
  /-- LMC_TIMEOUT (R296): TOLINK expires at the root or at a node during a link multicast. -/
  | lmcTimeout (group : Nat)
  /-- PELOC_TIMEOUT (R291): A Peloc transaction has no response within TOLINK × 16 µs and ends. -/
  | pelocTimeout (port tag : Nat)
  /-- REPLAY_TIMER (R286): No ACK progress for 4 µs replays the oldest unacknowledged flits, going DOWN after 16 replays. -/
  | replayTimer (port : Nat)
  /-- FRAME_LOCK_LOSS (R268): Four frames without correct FMARK and FCNT lose frame lock. -/
  | frameLockLoss (frames : PortFrames)
  /-- LANE_FAULT (R298): A lane loses lock or exceeds SYMLIM in a 1 ms window and the port degrades or goes DOWN. -/
  | laneFault (port : Nat) (finding : LaneFinding)
  /-- WIDTH_SWITCH (R298): Both ends switch a direction to four lanes at the named frame. -/
  | widthSwitch (point : SwitchPoint)
  /-- TRAINING_FRAME (R279): A training frame's control and status words take effect after two identical frames. -/
  | trainingFrame (port lane : Nat) (f : TrainFrame)
  /-- TRAINING_STEP_DEADLINE (R282): A training step misses its deadline and LINK_TRAIN fails with the port DOWN. -/
  | trainingStepDeadline (port : Nat)
  /-- PEER_WAIT_EXPIRY (R282): No peer markers within the training wait ends LINK_TRAIN with ST_LINK_NO_PEER. -/
  | peerWaitExpiry (port : Nat)
  /-- SLEEP_IDLE_TIMER (R299): A port idle for SLEEPIDLE µs sends SLEEP_REQ. -/
  | sleepIdleTimer (port : Nat)
  /-- WAKE (R299): An outbound transaction or peer signal wakes a sleeping port. -/
  | wake (port : Nat)
  /-- WAKE_TIMEOUT (R299): Frame lock not regained within 50 µs of wake takes the port DOWN. -/
  | wakeTimeout (port : Nat)
  /-- RECAL_STEP (R300): A receiver idle for 2 µs runs a recalibration step of at most 500 ns. -/
  | recalStep (port : Nat)
  /-- LINK_RECAL_COMPLETE (R300): A commanded recalibration completes and posts its final status. -/
  | linkRecalComplete (port : Nat)
  /-- LINK_PUSH_COMPLETE (R293): The last pushed block is acknowledged or the push fails and posts its result. -/
  | linkPushComplete (port : Nat)
  /-- INNER_SAMPLE (R474): Every 4 µs Kestrel latches sensors and computes the loops due, issuing stretch and voltage writes. -/
  | innerSample (y : Sensors)
  /-- AVS_FRAME_DONE (R585): An AVSBus frame completes or fails, with a failed write retried once if possible. -/
  | avsFrameDone (bus : Nat) (ok : Bool) (value done : Nat)
  /-- LATE_WRITE_DROP (R477): A voltage write not started by cycle 544 of its sample is dropped. -/
  | lateWriteDrop (bus : Nat)
  /-- PERIOD_MARK (R486): A period mark reaches Kestrel and resets the phase, counting any slip. -/
  | periodMark (slot : Nat)
  /-- DROOP_TRIP (R496): A die voltage below DROOP forces the stretch to at least 0.5 within 8 ACLK cycles. -/
  | droopTrip (loop : Nat)
  /-- THROTTLE_RELEASE (R618): All quadrants below 97 °C for 1 ms end sensor-driven forced throttling. -/
  | throttleRelease
  /-- ALERT_ACCEPTED (R587): An accepted change of THERM_ALERT_N or PWR_ALERT_N starts or ends forced throttling. -/
  | alertAccepted (pwr : Bool) (asserted : Bool) (pulses : Nat)
  /-- ALERT_STUCK (R587): An alert asserted for 1 s is flagged STUCK. -/
  | alertStuck (pwr : Bool)
  /-- TACH_EDGE (R589): An accepted tachometer falling edge updates the speed estimate and overrange state. -/
  | tachEdge (n pulses : Nat)
  /-- TACH_STANDSTILL (R590): One second without an edge declares standstill and sets the speed to 0. -/
  | tachStandstill (n : Nat)
  /-- TACH_STUCK (R592): A tachometer at speed 0 after 3 s of duty at least 20 % is flagged STUCK. -/
  | tachStuck (n : Nat)
  /-- FAN_PWM_PERIOD (R593): A new FAN_PWM period starts and takes up the current duty. -/
  | fanPwmPeriod
  /-- KERNEL_START (R440): A background known-answer kernel starts on the next eligible tile at least 1 ms after the last. -/
  | kernelStart (tile kernel : Nat)
  /-- CONFIRMATION_START (R443): A confirmation with known-answer kernels starts on the tile within 100 µs of a job's end. -/
  | confirmationStart (tile : Nat)
  /-- KERNEL_COMPLETE (R441): A kernel finishes and its output CRC is compared, rerunning once on failure. -/
  | kernelComplete (tile : Nat) (crc : Dword)
  /-- LEDGER_WRITE (R445): A ledger record is written and verified within 5 ms of its verdict. -/
  | ledgerWrite (verified : Bool) (cp ledger : EccFinding)
  /-- DRAIN_DEADLINE_EXPIRY (R448): The drain deadline is reached and every running or queued job ends with ST_DRAINING. -/
  | drainDeadlineExpiry
  /-- DRAIN_COMPLETE (R447): No job remains: an operator drain posts ST_OK, a suspect drain writes REPLACE and retires the device. -/
  | drainComplete
  /-- PART_RESET_COMPLETE (R407): All awaited requests end, streams, slots, programs and buffers are reset and the partition is ACTIVE. -/
  | partResetComplete (part : Nat)
  /-- PART_DESTROY_COMPLETE (R409): A destroy gives up every resource and makes the partition ABSENT. -/
  | partDestroyComplete (part : Nat)
  /-- OWL_GROUP_TIMER (R524): A partial group of trace records waiting 10 µs is written as one WR. -/
  | owlGroupTimer (found : EccFinding)
  /-- TIMEBASE_BIT31 (R522): Bit 31 of the timebase changes and a PERIODIC SYNC record is written. -/
  | timebaseBit31
  /-- TRACE_STOP_COMPLETE (R527): The last trace WR_ACK returns after a stop and RUNNING clears. -/
  | traceStopComplete
  /-- PATCH_LOAD_COMPLETE (R553): A patch passes its checks and takes effect, or is rejected, when its final status is posted. -/
  | patchLoadComplete (poisoned : Bool)
  /-- PATCH_REMOVE_COMPLETE (R553): The patch is removed and the final status posted. -/
  | patchRemoveComplete
  /-- FRAME_LOCK (R268): A Peloc receiver reaches frame lock after four consecutive frames with correct FMARK and consecutive FCNT, completing training step T3 or a wake from SLEEP. -/
  | frameLock (frames : PortFrames)
  /-- PCIE_LINK_UP (R573): A PCI Express link completes training and comes up, after which BAR0 accesses, configuration completions and bus-master requests of its function can proceed. -/
  | pcieLinkUp (fn : Nat)
  deriving DecidableEq, Repr

end Sys2Proof
end

