-- ==== Sys2Proof/WellFormed.lean ====
section
/-! DEFINITION. Which commands are well formed: operands that name something the device has. -/

namespace Sys2Proof

/-- A carrier's owner identity (Table 11.3): 8 bits, queue pair 0 for a mailbox. -/
def okCarrier (c : Nat) : Bool := decide (c < 256) && (decide (c < 128) || decide (c % 64 = 0))
/-- A packet has 16 dwords (Table 09.2). -/
def okPacket (p : Packet) : Bool := decide (p.dws.length = 16)
/-- A PCI Express function, 0 or 1 (R573). -/
def okFn (n : Nat) : Bool := decide (n < 2)
/-- A queue pair number (Table 09.1). -/
def okQp (n : Nat) : Bool := decide (n < 64)
/-- A value of 32 bits. -/
def okDword (n : Nat) : Bool := decide (n < 2 ^ 32)
/-- A BAR2 segment (R199). -/
def okSeg (n : Nat) : Bool := decide (n < 16)
/-- An access that lies in BAR2's 4 GiB (R199). -/
def okBar2 (o n : Nat) : Bool := decide (o + n ≤ 2 ^ 32)
/-- A command port (Table 09.1). -/
def okPort (n : Nat) : Bool := decide (n < 4)
/-- A port that has a mailbox (R325). -/
def okMailbox (n : Nat) : Bool := decide (n = 2) || decide (n = 3)
/-- A 7-bit bus address (R577). -/
def okBytes7 (n : Nat) : Bool := decide (n < 128)
/-- A tile (R21). -/
def okTile (n : Nat) : Bool := decide (n < 64)
/-- A codec engine. -/
def okEngine (n : Nat) : Bool := decide (n < 8)
/-- A partition (R385). -/
def okPart (n : Nat) : Bool := decide (n < 64)
/-- A window (R201). -/
def okWindow (n : Nat) : Bool := decide (n < 16)
/-- A stream (R106). -/
def okStream (n : Nat) : Bool := decide (n < 65536)
/-- A program slot (R354). -/
def okProg (n : Nat) : Bool := decide (n < 64)
/-- An AVSBus (R465). -/
def okBus (n : Nat) : Bool := decide (n < 5)
/-- A loop with a regulator (R463). -/
def okRail (n : Nat) : Bool := decide (n < 5)
/-- A domain code (R354). -/
def okDomain (n : Nat) : Bool := decide (n < 4) || (decide (16 ≤ n) && decide (n < 32))
/-- A lane of a Peloc port (R263). -/
def okLane (n : Nat) : Bool := decide (n < 8)
/-- A link multicast group (R277). -/
def okGroup (n : Nat) : Bool := decide (n < 64)
/-- An HBM stack. -/
def okStack (n : Nat) : Bool := decide (n < 8)
/-- A known-answer kernel (Table 12.10). -/
def okKernel (n : Nat) : Bool := decide (n < 32)
/-- A tachometer (R589). -/
def okTach (n : Nat) : Bool := decide (n < 2)
/-- A Peloc port (chapter 08). -/
def okPel (n : Nat) : Bool := decide (n < 16)
/-- A value of 8 bits. -/
def okByte (n : Nat) : Bool := decide (n < 256)
/-- A flit has 256 bytes (R269). -/
def okFlit (bs : List Byte) : Bool := decide (bs.length = 256)
/-- The frame words of four consecutive frames, of 10 bytes each (R268). -/
def okFrames (ws : List (List Byte)) : Bool := decide (ws.length = 4) && ws.all (fun w => decide (w.length = 10))
/-- A router (R227). -/
def okRouter (n : Nat) : Bool := decide (n < 100)

/-- A command is well formed. -/
def wellFormed (i : Instr) : Bool :=
  match i with
  | .nop c p => okCarrier c && okPacket p
  | .identify c p => okCarrier c && okPacket p
  | .getStatus c p => okCarrier c && okPacket p
  | .getBringup c p => okCarrier c && okPacket p
  | .clearAttn c p => okCarrier c && okPacket p
  | .setThreshold c p => okCarrier c && okPacket p
  | .readCounters c p => okCarrier c && okPacket p
  | .clearCounters c p => okCarrier c && okPacket p
  | .partCreate c p => okCarrier c && okPacket p
  | .partDestroy c p => okCarrier c && okPacket p
  | .partReset c p => okCarrier c && okPacket p
  | .partBindPort c p => okCarrier c && okPacket p
  | .partTiles c p => okCarrier c && okPacket p
  | .partRead c p => okCarrier c && okPacket p
  | .qpCreate c p => okCarrier c && okPacket p
  | .qpDelete c p => okCarrier c && okPacket p
  | .privGrant c p => okCarrier c && okPacket p
  | .lockAcquire c p => okCarrier c && okPacket p
  | .lockRelease c p => okCarrier c && okPacket p
  | .seqBegin c p => okCarrier c && okPacket p
  | .seqCommit c p => okCarrier c && okPacket p
  | .seqAbort c p => okCarrier c && okPacket p
  | .lockRead c p => okCarrier c && okPacket p
  | .poolCreate c p => okCarrier c && okPacket p
  | .poolDestroy c p => okCarrier c && okPacket p
  | .bufAlloc c p => okCarrier c && okPacket p
  | .bufFree c p => okCarrier c && okPacket p
  | .poolRead c p => okCarrier c && okPacket p
  | .windowMap c p => okCarrier c && okPacket p
  | .windowUnmap c p => okCarrier c && okPacket p
  | .windowRead c p => okCarrier c && okPacket p
  | .hostSpillSet c p => okCarrier c && okPacket p
  | .peerSpillSet c p => okCarrier c && okPacket p
  | .contextBase c p => okCarrier c && okPacket p
  | .memRead c p => okCarrier c && okPacket p
  | .memWrite c p => okCarrier c && okPacket p
  | .codecSubmit c p => okCarrier c && okPacket p
  | .tableLoad c p => okCarrier c && okPacket p
  | .tableRelease c p => okCarrier c && okPacket p
  | .streamConfig c p => okCarrier c && okPacket p
  | .streamReset c p => okCarrier c && okPacket p
  | .streamRead c p => okCarrier c && okPacket p
  | .streamFlush c p => okCarrier c && okPacket p
  | .programLoad c p => okCarrier c && okPacket p
  | .programRun c p => okCarrier c && okPacket p
  | .programAbort c p => okCarrier c && okPacket p
  | .programUnload c p => okCarrier c && okPacket p
  | .getResult c p => okCarrier c && okPacket p
  | .ackResult c p => okCarrier c && okPacket p
  | .mcastReport c p => okCarrier c && okPacket p
  | .linkConfig c p => okCarrier c && okPacket p
  | .linkTrain c p => okCarrier c && okPacket p
  | .linkDown c p => okCarrier c && okPacket p
  | .linkStatus c p => okCarrier c && okPacket p
  | .linkRecal c p => okCarrier c && okPacket p
  | .channelBind c p => okCarrier c && okPacket p
  | .channelRead c p => okCarrier c && okPacket p
  | .mcGroupSet c p => okCarrier c && okPacket p
  | .linkPush c p => okCarrier c && okPacket p
  | .linkMcast c p => okCarrier c && okPacket p
  | .linkMcReport c p => okCarrier c && okPacket p
  | .loopRead c p => okCarrier c && okPacket p
  | .loopSetMode c p => okCarrier c && okPacket p
  | .loopWriteCoef c p => okCarrier c && okPacket p
  | .loopSetPoint c p => okCarrier c && okPacket p
  | .loopTrace c p => okCarrier c && okPacket p
  | .loopInject c p => okCarrier c && okPacket p
  | .avsAccess c p => okCarrier c && okPacket p
  | .boardStatus c p => okCarrier c && okPacket p
  | .checkModeSet c p => okCarrier c && okPacket p
  | .ledgerRead c p => okCarrier c && okPacket p
  | .signatureRead c p => okCarrier c && okPacket p
  | .kakRun c p => okCarrier c && okPacket p
  | .drainDeadline c p => okCarrier c && okPacket p
  | .drainStart c p => okCarrier c && okPacket p
  | .drainCancel c p => okCarrier c && okPacket p
  | .errInject c p => okCarrier c && okPacket p
  | .selftestConfig c p => okCarrier c && okPacket p
  | .probeSet c p => okCarrier c && okPacket p
  | .probeRead c p => okCarrier c && okPacket p
  | .traceConfig c p => okCarrier c && okPacket p
  | .traceControl c p => okCarrier c && okPacket p
  | .traceStatus c p => okCarrier c && okPacket p
  | .domainOff c p => okCarrier c && okPacket p
  | .domainOn c p => okCarrier c && okPacket p
  | .domainStatus c p => okCarrier c && okPacket p
  | .patchLoad c p => okCarrier c && okPacket p
  | .patchRemove c p => okCarrier c && okPacket p
  | .fwInfo c p => okCarrier c && okPacket p
  | .debugChallenge c p => okCarrier c && okPacket p
  | .debugUnlock c p => okCarrier c && okPacket p
  | .debugLock c p => okCarrier c && okPacket p
  | .qp0Enable fn _ => okFn fn
  | .sqDoorbell fn qp value => okFn fn && okQp qp && okDword value
  | .cqDoorbell fn qp value => okFn fn && okQp qp && okDword value
  | .sqEntryFetch fn qp => okFn fn && okQp qp
  | .bar2SegmentWrite fn seg dw _ => okFn fn && okSeg seg && decide (dw < 4)
  | .bar2Write fn offset data _ => okFn fn && okBar2 offset data.length
  | .bar2Read fn offset len => okFn fn && okBar2 offset len
  | .registerWrite fn offset _ _ _ => okFn fn && decide (offset < 0x10000)
  | .mailboxGo port => okMailbox port
  | .configRequest fn reg _ => okFn fn && decide (reg < 4096)
  | .powerStateChange fn _ => okFn fn
  | .busMasterDisable fn => okFn fn
  | .functionLevelReset fn => okFn fn
  | .pcieLinkDown fn => okFn fn
  | .hostCompletion _ _ => true
  | .completionTimeout _ => true
  | .portResetComplete port => okPort port
  | .p2Write x _ _ => okBytes7 x.addr
  | .p2Setptr x _ _ => okBytes7 x.addr
  | .p2Read x => okBytes7 x.addr
  | .p2Writego x _ _ => okBytes7 x.addr
  | .smbusTimeout => true
  | .entdaa _ => true
  | .setdasa staticAddr addr => okBytes7 staticAddr && okBytes7 addr
  | .rstdaa => true
  | .setnewda addr => okBytes7 addr
  | .getpid => true
  | .getbcr => true
  | .getdcr => true
  | .i3cGetstatus => true
  | .getmwl => true
  | .getmrl => true
  | .setmwl _ => true
  | .setmrl _ => true
  | .enec => true
  | .disec => true
  | .rstact _ => true
  | .targetResetPattern => true
  | .extest => true
  | .idcode => true
  | .samplePreload => true
  | .clamp => true
  | .highz => true
  | .mbox => true
  | .bypass => true
  | .mboxUpdateDr _ => true
  | .mboxCaptureDr => true
  | .mboxAccessComplete => true
  | .trst => true
  | .nonceExpiry => true
  | .pwrokDeassert => true
  | .supplyDip _ => true
  | .sysRst _ => true
  | .perst _ => true
  | .resetRelease strapBif addr _ => decide (strapBif < 4) && decide (addr < 8)
  | .rootPllLock => true
  | .pllLockLoss _ => true
  | .serdesPllLockLoss port => okPel port
  | .stageEnd _ => true
  | .s4Reached => true
  | .stageDeadline cause _ _ => decide (cause < 256)
  | .bundleIssue tile _ => okTile tile
  | .copy tile => okTile tile
  | .mcast tile => okTile tile
  | .expand tile => okTile tile
  | .mac tile _ => okTile tile
  | .pack tile _ => okTile tile
  | .moveComplete tile => okTile tile
  | .blockConsumable tile _ _ => okTile tile
  | .blockRefetch tile _ _ => okTile tile
  | .rowResultWritten tile _ => okTile tile
  | .plausibilityDecision tile _ => okTile tile
  | .packOutputWritten tile _ => okTile tile
  | .tokenArrival tile counter _ => okTile tile && decide (counter < 16)
  | .watchdog tile => okTile tile
  | .programComplete slot => okProg slot
  | .programLoadComplete _ => true
  | .contextAcquire _ stream _ => okStream stream
  | .contextFill stream => okStream stream
  | .contextBaseComplete => true
  | .codecSliceStart engine => okEngine engine
  | .codecBlockDone engine _ => okEngine engine
  | .sizingPassDone engine => okEngine engine
  | .codecJobEnd engine => okEngine engine
  | .windowMapComplete part window => okPart part && okWindow window
  | .scrubBurst _ _ _ _ => true
  | .hbmRefresh stack => okStack stack
  | .hbmCalibration stack channel => okStack stack && decide (channel < 32)
  | .rd _ _ => true
  | .wr _ _ => true
  | .token _ _ => true
  | .cfgRd _ _ => true
  | .cfgWr _ _ => true
  | .rdData _ _ => true
  | .wrAck _ _ => true
  | .nack _ _ => true
  | .mcReserve _ _ => true
  | .mcGrant _ _ => true
  | .mcData _ _ => true
  | .mcResult _ _ => true
  | .mcAbort _ _ => true
  | .mcToken _ _ => true
  | .mcastCommitDone tile => okTile tile
  | .mcastLandingTimeout tile => okTile tile
  | .requestTimeout router port _ => okRouter router && decide (port < 4)
  | .fenceRetry router port _ => okRouter router && decide (port < 4)
  | .domainDrained domain => okDomain domain
  | .domainWake domain => okDomain domain
  | .flitIdle port raw _ => okPel port && okFlit raw
  | .flitData port raw _ => okPel port && okFlit raw
  | .flitNak port raw _ => okPel port && okFlit raw
  | .flitCtrl port raw _ => okPel port && okFlit raw
  | .hello port => okPel port
  | .helloAck port => okPel port
  | .sleepReq port => okPel port
  | .sleepAck port => okPel port
  | .sleepNak port => okPel port
  | .degrade port => okPel port
  | .downNotice port => okPel port
  | .pelocRd port => okPel port
  | .pelocWr port => okPel port
  | .pelocToken port => okPel port
  | .blockPush port => okPel port
  | .pelocRdData port => okPel port
  | .pelocAck port => okPel port
  | .pelocNack port => okPel port
  | .lmcReserve port => okPel port
  | .lmcData port => okPel port
  | .lmcAbort port => okPel port
  | .lmcGrant port => okPel port
  | .lmcResult port => okPel port
  | .lmcTimeout group => okGroup group
  | .pelocTimeout port tag => okPel port && decide (tag < 512)
  | .replayTimer port => okPel port
  | .frameLockLoss f => okPel f.port && okFrames f.words
  | .laneFault port f => okPel port && okLane f.lane && okByte f.fcnt
  | .widthSwitch w => okPel w.port && okByte w.fcnt
  | .trainingFrame port lane _ => okPel port && okLane lane
  | .trainingStepDeadline port => okPel port
  | .peerWaitExpiry port => okPel port
  | .sleepIdleTimer port => okPel port
  | .wake port => okPel port
  | .wakeTimeout port => okPel port
  | .recalStep port => okPel port
  | .linkRecalComplete port => okPel port
  | .linkPushComplete port => okPel port
  | .innerSample _ => true
  | .avsFrameDone bus _ _ _ => okBus bus
  | .lateWriteDrop bus => okBus bus
  | .periodMark slot => okProg slot
  | .droopTrip loop => okRail loop
  | .throttleRelease => true
  | .alertAccepted _ _ _ => true
  | .alertStuck _ => true
  | .tachEdge n _ => okTach n
  | .tachStandstill n => okTach n
  | .tachStuck n => okTach n
  | .fanPwmPeriod => true
  | .kernelStart tile kernel => okTile tile && okKernel kernel
  | .confirmationStart tile => okTile tile
  | .kernelComplete tile _ => okTile tile
  | .ledgerWrite _ _ _ => true
  | .drainDeadlineExpiry => true
  | .drainComplete => true
  | .partResetComplete part => okPart part
  | .partDestroyComplete part => okPart part
  | .owlGroupTimer _ => true
  | .timebaseBit31 => true
  | .traceStopComplete => true
  | .patchLoadComplete _ => true
  | .patchRemoveComplete => true
  | .frameLock f => okPel f.port && okFrames f.words
  | .pcieLinkUp fn => okFn fn

end Sys2Proof
end

