-- ==== Sys2Proof/Machine/Codes.lean ====
section
/-! DEFINITION. The status codes (Table 09.5), counter identifiers (Tables 12.2, 13.7, 14.7 and 16.8), attention bits
(Table 09.6), unit classes (R25) and bit-field helpers that the meanings share. -/

namespace Sys2Proof.Machine

/-- Bits [hi:lo] of a dword, as a number. -/
def bits (w : Dword) (hi lo : Nat) : Nat := (w.toNat / 2 ^ lo) % 2 ^ (hi + 1 - lo)

/-- Bit i of a dword. -/
def bit (w : Dword) (i : Nat) : Bool := w.toNat.testBit i

/-- A number as a dword, modulo 2^32. -/
def dw (n : Nat) : Dword := BitVec.ofNat 32 n

/-- A truth value as bit 0 or 1. -/
def b2n (b : Bool) : Nat := if b then 1 else 0

/-- The low n bits of x as a two's complement integer. -/
def signed (n x : Nat) : Int :=
  let y := x % 2 ^ n
  if y < 2 ^ (n - 1) then (y : Int) else (y : Int) - 2 ^ n

/-- An integer as n bits of two's complement. -/
def unsigned (n : Nat) (x : Int) : Nat := (x % 2 ^ n).toNat

/-- The bytes of a number, least significant first (R9). -/
def leBytes : Nat → Nat → List Byte
  | 0, _ => []
  | k + 1, n => BitVec.ofNat 8 n :: leBytes k (n / 256)

/-- The number that bytes spell, least significant first (R9). -/
def leNat : List Byte → Nat
  | [] => 0
  | b :: r => b.toNat + 256 * leNat r

/-- Dwords as bytes, little-endian (R9, R316). -/
def dwBytes (ds : List Dword) : List Byte := ds.flatMap (fun d => leBytes 4 d.toNat)

/-- Bytes as dwords, little-endian; a last partial dword is filled with zeros. -/
def bytesDw : List Byte → List Dword
  | a :: b :: c :: d :: r => dw (leNat [a, b, c, d]) :: bytesDw r
  | [] => []
  | r => [dw (leNat r)]

/-- x is later than y modulo 2^32 (R338). -/
def later (x y : Nat) : Bool :=
  let d := (x + 2 ^ 32 - y) % 2 ^ 32
  decide (1 ≤ d) && decide (d ≤ 2 ^ 31 - 1)

/-- The multiples of `step` from `lo` that are below `hi`, as a list of (start, length) runs that cross none of them. -/
def runsOf (boundary : Nat) : Nat → Nat → Nat → List (Nat × Nat)
  | 0, _, _ => []
  | fuel + 1, a, n =>
    if n = 0 then []
    else
      let room := boundary - a % boundary
      let k := min room n
      (a, k) :: runsOf boundary fuel (a + k) (n - k)

/-- ST_OK: Done -/
def stOk : Nat := 0x0000
/-- ST_OK_WAS_BROKEN: Done. The lock was acquired, and its previous holder had lost it. -/
def stOkWasBroken : Nat := 0x0001
/-- ST_OK_SKIPPED: Done. Blocks were skipped under SKIP (R132). -/
def stOkSkipped : Nat := 0x0002
/-- ST_POISON_PROPAGATED: Done. Poisoned input was carried into the output (R133). -/
def stPoisonPropagated : Nat := 0x0003
/-- ST_PENDING: Accepted. The result is read with GET_RESULT. -/
def stPending : Nat := 0x0100
/-- ST_RETRY: Not accepted, and nothing took effect. Send it again. -/
def stRetry : Nat := 0x0101
/-- ST_DOMAIN_FENCED: The target domain is fenced. HINT is in RESULT DW0 [15:0]. -/
def stDomainFenced : Nat := 0x0102
/-- ST_BAD_OPCODE: The opcode is unassigned -/
def stBadOpcode : Nat := 0x0200
/-- ST_PARAM_RESERVED: A reserved field is not 0 -/
def stParamReserved : Nat := 0x0201
/-- ST_PARAM_RANGE: A field is out of its range -/
def stParamRange : Nat := 0x0202
/-- ST_PARAM_LENGTH: PLEN is wrong for the opcode, or breaks R317 -/
def stParamLength : Nat := 0x0203
/-- ST_IMAGE_INVALID: The schedule image is malformed -/
def stImageInvalid : Nat := 0x0204
/-- ST_TABLE_INVALID: The code-table image is malformed -/
def stTableInvalid : Nat := 0x0205
/-- ST_BLOCK_MALFORMED: A pushed block is malformed -/
def stBlockMalformed : Nat := 0x0206
/-- ST_STREAM_FORMAT: A PACK's format disagrees with its context -/
def stStreamFormat : Nat := 0x0207
/-- ST_STREAM_DIRECTION: The context has the other direction -/
def stStreamDirection : Nat := 0x0208
/-- ST_WINDOW_SHARE_WRITABLE: The share source is writable -/
def stWindowShareWritable : Nat := 0x0209
/-- ST_STATE_BUSY: The object is in use or in the wrong state -/
def stStateBusy : Nat := 0x0300
/-- ST_NO_RESULT: The ticket names no result -/
def stNoResult : Nat := 0x0301
/-- ST_DRAINING: The device is draining -/
def stDraining : Nat := 0x0302
/-- ST_RETIRED: The device is marked for replacement, and the command is not diagnostic or read -/
def stRetired : Nat := 0x0303
/-- ST_ABORTED: Ended by PROGRAM_ABORT, or an operator drain ended by DRAIN_CANCEL before its DRAIN_START completed (R448) -/
def stAborted : Nat := 0x0304
/-- ST_PARTITION_RESET: Ended by a partition reset -/
def stPartitionReset : Nat := 0x0305
/-- ST_WATCHDOG: The tile watchdog expired -/
def stWatchdog : Nat := 0x0306
/-- ST_TOKEN_OVERFLOW: A token counter would pass 65,535 -/
def stTokenOverflow : Nat := 0x0307
/-- ST_SLOT_OVERRUN: An EXPAND passed the end of its slot -/
def stSlotOverrun : Nat := 0x0308
/-- ST_MCAST_PARTIAL: A multicast was not delivered everywhere -/
def stMcastPartial : Nat := 0x0309
/-- ST_TILE_BUSY: A tile holds another program -/
def stTileBusy : Nat := 0x030A
/-- ST_STREAM_BUSY: The context is held or awaited -/
def stStreamBusy : Nat := 0x030B
/-- ST_STREAM_UNCONFIGURED: The context is not configured -/
def stStreamUnconfigured : Nat := 0x030C
/-- ST_CTX_TABLE_UNSET: CONTEXT_BASE has not completed -/
def stCtxTableUnset : Nat := 0x030D
/-- ST_TABLE_ABSENT: The static slot lacks the generation -/
def stTableAbsent : Nat := 0x030E
/-- ST_NO_GAIN: A block did not shrink under REFUSE -/
def stNoGain : Nat := 0x030F
/-- ST_SOURCE_CHANGED: The source changed between passes -/
def stSourceChanged : Nat := 0x0310
/-- ST_WINDOW_IN_USE: The window is in use -/
def stWindowInUse : Nat := 0x0311
/-- ST_WINDOW_OVERLAP: Pages overlap -/
def stWindowOverlap : Nat := 0x0312
/-- ST_SPILL_TARGET_UNSET: No usable spill target -/
def stSpillTargetUnset : Nat := 0x0313
/-- ST_LINK_DOWN: The Peloc port is down -/
def stLinkDown : Nat := 0x0314
/-- ST_LINK_NO_PEER: No peer answered training -/
def stLinkNoPeer : Nat := 0x0315
/-- ST_LINK_TRAIN_FAILED: Training failed -/
def stLinkTrainFailed : Nat := 0x0316
/-- ST_LOOP_NOT_OPEN: The Kestrel loop is not open -/
def stLoopNotOpen : Nat := 0x0317
/-- ST_HANDOVER_REFUSED: The outputs disagree beyond HANDOVER_TOL -/
def stHandoverRefused : Nat := 0x0318
/-- ST_LOCK_HELD: The lock is held by another owner -/
def stLockHeld : Nat := 0x0319
/-- ST_LOCK_NOT_HELD: The caller does not hold the lock -/
def stLockNotHeld : Nat := 0x031A
/-- ST_SEQUENCE_NOT_OPEN: No locked sequence is open -/
def stSequenceNotOpen : Nat := 0x031B
/-- ST_BUF_ALREADY_FREE: The buffer is already free -/
def stBufAlreadyFree : Nat := 0x031C
/-- ST_BUF_STALE: The handle's generation is stale -/
def stBufStale : Nat := 0x031D
/-- ST_QP_STATE: The queue pair is in use, absent or in error -/
def stQpState : Nat := 0x031E
/-- ST_QUEUE_FULL: A job queue is full -/
def stQueueFull : Nat := 0x0400
/-- ST_RESULT_FULL: The port has no free result slot -/
def stResultFull : Nat := 0x0401
/-- ST_POOL_EMPTY: The buffer pool is empty -/
def stPoolEmpty : Nat := 0x0402
/-- ST_OUTPUT_FULL: The output space or result list is exhausted -/
def stOutputFull : Nat := 0x0403
/-- ST_HBM_EXHAUSTED: Not enough free HBM pages -/
def stHbmExhausted : Nat := 0x0404
/-- ST_LOAM_EXHAUSTED: Not enough free Loam pages -/
def stLoamExhausted : Nat := 0x0405
/-- ST_CHECK_FAILED: The CRC-32C failed after the re-fetch -/
def stCheckFailed : Nat := 0x0500
/-- ST_POISON_CONSUMED: Poisoned data was consumed -/
def stPoisonConsumed : Nat := 0x0501
/-- ST_DECODE_ERROR: A decode error; the code is in the result -/
def stDecodeError : Nat := 0x0502
/-- ST_OUTPUT_IMPLAUSIBLE: Replays did not cure a plausibility failure -/
def stOutputImplausible : Nat := 0x0503
/-- ST_NOC_TIMEOUT: An on-chip request timed out -/
def stNocTimeout : Nat := 0x0504
/-- ST_PELOC_TIMEOUT: A Peloc transaction timed out -/
def stPelocTimeout : Nat := 0x0505
/-- ST_HOST_FAULT: A host-memory access of the command failed -/
def stHostFault : Nat := 0x0506
/-- ST_PATCH_SIGNATURE: The firmware patch signature failed -/
def stPatchSignature : Nat := 0x0507
/-- ST_BRINGUP_BUSY: The opcode is not served before stage S4 -/
def stBringupBusy : Nat := 0x0600
/-- ST_BRINGUP_FAILED: A bring-up stage failed -/
def stBringupFailed : Nat := 0x0601
/-- ST_PRIV_ADMIN: ADMIN privilege is required -/
def stPrivAdmin : Nat := 0x0700
/-- ST_PRIV_PARTITION: The port or queue pair may not act for PART -/
def stPrivPartition : Nat := 0x0701
/-- ST_WINDOW_FAULT: The window check failed -/
def stWindowFault : Nat := 0x0702
/-- ST_STREAM_RANGE: The stream is outside the partition's range -/
def stStreamRange : Nat := 0x0703
/-- ST_TILE_NOT_OWNED: The tile is not owned -/
def stTileNotOwned : Nat := 0x0704
/-- ST_CHANNEL_NOT_OWNED: The link channel is not owned or not open -/
def stChannelNotOwned : Nat := 0x0705
/-- ST_SLOT_NOT_OWNED: The static slot is owned elsewhere -/
def stSlotNotOwned : Nat := 0x0706
/-- ST_PELOC_INBOUND: An inbound access is outside the open windows -/
def stPelocInbound : Nat := 0x0707
/-- ST_BUF_NOT_OWNER: The buffer belongs to another owner -/
def stBufNotOwner : Nat := 0x0708
/-- ST_DEBUG_LOCKED: Debug is locked -/
def stDebugLocked : Nat := 0x0709

/-- CNT_ACC_SATURATE (Table 12.2). -/
def cntAccSaturate : Nat := 0x0100
/-- CNT_CONVERT_SATURATE (Table 12.2). -/
def cntConvertSaturate : Nat := 0x0101
/-- CNT_CONVERT_NAN (Table 12.2). -/
def cntConvertNan : Nat := 0x0102
/-- CNT_SELFTEST_STALL (Table 12.2). -/
def cntSelftestStall : Nat := 0x0103
/-- CNT_REPLAY (Table 12.2). -/
def cntReplay : Nat := 0x0104
/-- CNT_PLAUS_CHECKED (Table 12.2). -/
def cntPlausChecked : Nat := 0x0105
/-- CNT_PLAUS_FAIL (Table 12.2). -/
def cntPlausFail : Nat := 0x0106
/-- CNT_DUAL_MISMATCH (Table 12.2). -/
def cntDualMismatch : Nat := 0x0107
/-- CNT_KAK_RUN (Table 12.2). -/
def cntKakRun : Nat := 0x0108
/-- CNT_KAK_FAIL (Table 12.2). -/
def cntKakFail : Nat := 0x0109
/-- CNT_CHECK_REFETCH (Table 12.2). -/
def cntCheckRefetch : Nat := 0x0200
/-- CNT_DECODE_ERROR (Table 12.2). -/
def cntDecodeError : Nat := 0x0201
/-- CNT_CTX_WAIT (Table 12.2). -/
def cntCtxWait : Nat := 0x0202
/-- CNT_CTX_MISS (Table 12.2). -/
def cntCtxMiss : Nat := 0x0203
/-- CNT_CTX_EVICT (Table 12.2). -/
def cntCtxEvict : Nat := 0x0204
/-- CNT_CODEC_RAW (Table 12.2). -/
def cntCodecRaw : Nat := 0x0205
/-- CNT_CODEC_NOGAIN (Table 12.2). -/
def cntCodecNogain : Nat := 0x0206
/-- CNT_CODEC_CHAIN (Table 12.2). -/
def cntCodecChain : Nat := 0x0207
/-- CNT_CODEC_SIZING (Table 12.2). -/
def cntCodecSizing : Nat := 0x0208
/-- CNT_WINDOW_FAULT (Table 12.2). -/
def cntWindowFault : Nat := 0x0300
/-- CNT_STREAM_RANGE (Table 12.2). -/
def cntStreamRange : Nat := 0x0301
/-- CNT_POOL_SPILL (Table 12.2). -/
def cntPoolSpill : Nat := 0x0302
/-- CNT_SPILL_HOST_RD (Table 12.2). -/
def cntSpillHostRd : Nat := 0x0303
/-- CNT_SPILL_HOST_WR (Table 12.2). -/
def cntSpillHostWr : Nat := 0x0304
/-- CNT_SPILL_PEER_RD (Table 12.2). -/
def cntSpillPeerRd : Nat := 0x0305
/-- CNT_SPILL_PEER_WR (Table 12.2). -/
def cntSpillPeerWr : Nat := 0x0306
/-- CNT_SPILL_ERROR (Table 12.2). -/
def cntSpillError : Nat := 0x0307
/-- CNT_BAR2_FAULT (Table 12.2). -/
def cntBar2Fault : Nat := 0x0308
/-- CNT_BAR2_POISON (Table 12.2). -/
def cntBar2Poison : Nat := 0x0309
/-- CNT_SRAM_CORR (Table 12.2). -/
def cntSramCorr : Nat := 0x030A
/-- CNT_SRAM_UNCORR (Table 12.2). -/
def cntSramUncorr : Nat := 0x030B
/-- CNT_HBM_CORR (Table 12.2). -/
def cntHbmCorr : Nat := 0x030C
/-- CNT_HBM_UNCORR (Table 12.2). -/
def cntHbmUncorr : Nat := 0x030D
/-- CNT_SCRUB_PASS (Table 12.2). -/
def cntScrubPass : Nat := 0x030E
/-- CNT_NOC_PARITY (Table 12.2). -/
def cntNocParity : Nat := 0x0400
/-- CNT_NOC_HDR_DROP (Table 12.2). -/
def cntNocHdrDrop : Nat := 0x0401
/-- CNT_NOC_MISROUTE (Table 12.2). -/
def cntNocMisroute : Nat := 0x0402
/-- CNT_NOC_TIMEOUT (Table 12.2). -/
def cntNocTimeout : Nat := 0x0403
/-- CNT_NOC_LATE (Table 12.2). -/
def cntNocLate : Nat := 0x0404
/-- CNT_NOC_FENCE_NACK (Table 12.2). -/
def cntNocFenceNack : Nat := 0x0405
/-- CNT_MCAST_WAIT (Table 12.2). -/
def cntMcastWait : Nat := 0x0406
/-- CNT_MCAST_PARTIAL (Table 12.2). -/
def cntMcastPartial : Nat := 0x0407
/-- CNT_PELOC_FEC_CORR (Table 12.2). -/
def cntPelocFecCorr : Nat := 0x0500
/-- CNT_PELOC_FEC_UNCORR (Table 12.2). -/
def cntPelocFecUncorr : Nat := 0x0501
/-- CNT_PELOC_CRC (Table 12.2). -/
def cntPelocCrc : Nat := 0x0502
/-- CNT_PELOC_REPLAY (Table 12.2). -/
def cntPelocReplay : Nat := 0x0503
/-- CNT_PELOC_INBOUND_REFUSED (Table 12.2). -/
def cntPelocInboundRefused : Nat := 0x0504
/-- CNT_PELOC_TIMEOUT (Table 12.2). -/
def cntPelocTimeout : Nat := 0x0505
/-- CNT_PELOC_DEGRADE (Table 12.2). -/
def cntPelocDegrade : Nat := 0x0506
/-- CNT_PELOC_WAKE (Table 12.2). -/
def cntPelocWake : Nat := 0x0507
/-- CNT_PELOC_RECAL (Table 12.2). -/
def cntPelocRecal : Nat := 0x0508
/-- CNT_PELOC_DOWN (Table 12.2). -/
def cntPelocDown : Nat := 0x0509
/-- CNT_QP_FAULT (Table 12.2). -/
def cntQpFault : Nat := 0x0600
/-- CNT_CMD_RETRY (Table 12.2). -/
def cntCmdRetry : Nat := 0x0601
/-- CNT_LOCK_BROKEN (Table 12.2). -/
def cntLockBroken : Nat := 0x0700
/-- CNT_SEQ_DISCARDED (Table 12.2). -/
def cntSeqDiscarded : Nat := 0x0701
/-- CNT_SEQ_COMMIT_FAIL (Table 12.2). -/
def cntSeqCommitFail : Nat := 0x0702
/-- CNT_BUF_BAD_HANDLE (Table 12.2). -/
def cntBufBadHandle : Nat := 0x0703
/-- CNT_BUF_STALE (Table 12.2). -/
def cntBufStale : Nat := 0x0704
/-- CNT_BUF_DOUBLE_FREE (Table 12.2). -/
def cntBufDoubleFree : Nat := 0x0705
/-- CNT_BUF_NOT_OWNER (Table 12.2). -/
def cntBufNotOwner : Nat := 0x0706
/-- CNT_BUF_RECLAIMED (Table 12.2). -/
def cntBufReclaimed : Nat := 0x0707
/-- CNT_POISON_CONSUMED (Table 12.2). -/
def cntPoisonConsumed : Nat := 0x0800
/-- CNT_POISON_PROPAGATED (Table 12.2). -/
def cntPoisonPropagated : Nat := 0x0801
/-- CNT_CHECK_FAILED (Table 12.2). -/
def cntCheckFailed : Nat := 0x0802
/-- CNT_LEDGER_WRITE (Table 12.2). -/
def cntLedgerWrite : Nat := 0x0803
/-- CNT_LEDGER_DROP (Table 12.2). -/
def cntLedgerDrop : Nat := 0x0804
/-- CNT_LEDGER_WRITE_FAIL (Table 12.2). -/
def cntLedgerWriteFail : Nat := 0x0805
/-- CNT_VERDICT_TRANSIENT (Table 12.2). -/
def cntVerdictTransient : Nat := 0x0806
/-- CNT_VERDICT_DATA (Table 12.2). -/
def cntVerdictData : Nat := 0x0807
/-- CNT_INPUT_GLITCH (Table 16.8). -/
def cntInputGlitch : Nat := 0x0F10
/-- CNT_THERM_ALERT (Table 16.8). -/
def cntThermAlert : Nat := 0x0F11
/-- CNT_PWR_ALERT (Table 16.8). -/
def cntPwrAlert : Nat := 0x0F12
/-- CNT_TACH0_OVERRANGE (Table 16.8). -/
def cntTach0Overrange : Nat := 0x0F13
/-- CNT_TACH1_OVERRANGE (Table 16.8). -/
def cntTach1Overrange : Nat := 0x0F14
/-- CNT_TACH0_STUCK (Table 16.8). -/
def cntTach0Stuck : Nat := 0x0F15
/-- CNT_TACH1_STUCK (Table 16.8). -/
def cntTach1Stuck : Nat := 0x0F16
/-- CNT_P2_XFER_ERR (Table 16.8). -/
def cntP2XferErr : Nat := 0x0F18
/-- CNT_P2_PEC_ERR (Table 16.8). -/
def cntP2PecErr : Nat := 0x0F19
/-- CNT_P3_MBOX_ERR (Table 16.8). -/
def cntP3MboxErr : Nat := 0x0F1A
/-- CNT_DEBUG_FAIL (Table 16.8). -/
def cntDebugFail : Nat := 0x0F1B
/-- CNT_PCIE_CPL_TIMEOUT (Table 16.8). -/
def cntPcieCplTimeout : Nat := 0x0F20
/-- CNT_PCIE_CPL_ERR (Table 16.8). -/
def cntPcieCplErr : Nat := 0x0F21
/-- CNT_PCIE_POISON_RX (Table 16.8). -/
def cntPciePoisonRx : Nat := 0x0F22
/-- CNT_PCIE_LINK_DOWN (Table 16.8). -/
def cntPcieLinkDown : Nat := 0x0F23
/-- CNT_PCIE_UR_SENT (Table 16.8). -/
def cntPcieUrSent : Nat := 0x0F24
/-- CNT_OWL_RECORDS (Table 14.7). -/
def cntOwlRecords : Nat := 0x0E00
/-- CNT_OWL_LOST (Table 14.7). -/
def cntOwlLost : Nat := 0x0E01
/-- CNT_OWL_WRAP (Table 14.7). -/
def cntOwlWrap : Nat := 0x0E02
/-- CNT_OWL_WRITE_ERR (Table 14.7). -/
def cntOwlWriteErr : Nat := 0x0E03
/-- CNT_KST_SAT of a loop (Table 13.7). -/
def cntKstSat (loop : Nat) : Nat := 0x0D00 + 16 * loop + 0
/-- CNT_KST_STORE_SAT of a loop (Table 13.7). -/
def cntKstStoreSat (loop : Nat) : Nat := 0x0D00 + 16 * loop + 1
/-- CNT_KST_LATE of a loop (Table 13.7). -/
def cntKstLate (loop : Nat) : Nat := 0x0D00 + 16 * loop + 2
/-- CNT_KST_AVS_ERR of a loop (Table 13.7). -/
def cntKstAvsErr (loop : Nat) : Nat := 0x0D00 + 16 * loop + 3
/-- CNT_KST_SENSOR of a loop (Table 13.7). -/
def cntKstSensor (loop : Nat) : Nat := 0x0D00 + 16 * loop + 4
/-- CNT_KST_SLIP of a loop (Table 13.7). -/
def cntKstSlip (loop : Nat) : Nat := 0x0D00 + 16 * loop + 5
/-- CNT_KST_REFUSED of a loop (Table 13.7). -/
def cntKstRefused (loop : Nat) : Nat := 0x0D00 + 16 * loop + 6
/-- CNT_KST_FAULT of a loop (Table 13.7). -/
def cntKstFault (loop : Nat) : Nat := 0x0D00 + 16 * loop + 7
/-- CNT_KST_DROOP of a loop (Table 13.7). -/
def cntKstDroop (loop : Nat) : Nat := 0x0D00 + 16 * loop + 8
/-- CNT_KST_FORCED of a loop (Table 13.7). -/
def cntKstForced (loop : Nat) : Nat := 0x0D00 + 16 * loop + 9
/-- CNT_KST_HOST_AVS of a loop (Table 13.7). -/
def cntKstHostAvs (loop : Nat) : Nat := 0x0D00 + 16 * loop + 10

/-- ATTN_COUNTER (Table 09.6). -/
def attnCounter : Nat := 0
/-- ATTN_RESULT_READY (Table 09.6). -/
def attnResultReady : Nat := 1
/-- ATTN_DRAIN_REQUESTED (Table 09.6). -/
def attnDrainRequested : Nat := 2
/-- ATTN_REPLACE (Table 09.6). -/
def attnReplace : Nat := 3
/-- ATTN_LOCK_BROKEN (Table 09.6). -/
def attnLockBroken : Nat := 4
/-- ATTN_LINK_CHANGE (Table 09.6). -/
def attnLinkChange : Nat := 5
/-- ATTN_LOOP_FAULT (Table 09.6). -/
def attnLoopFault : Nat := 6
/-- ATTN_THERMAL (Table 09.6). -/
def attnThermal : Nat := 7
/-- ATTN_BOARD_INPUT (Table 09.6). -/
def attnBoardInput : Nat := 8
/-- ATTN_LEDGER_NEAR_FULL (Table 09.6). -/
def attnLedgerNearFull : Nat := 9
/-- ATTN_SPILL (Table 09.6). -/
def attnSpill : Nat := 10
/-- ATTN_POISON_SEEN (Table 09.6). -/
def attnPoisonSeen : Nat := 11
/-- ATTN_PATCH (Table 09.6). -/
def attnPatch : Nat := 12
/-- ATTN_BRINGUP (Table 09.6). -/
def attnBringup : Nat := 13

end Sys2Proof.Machine
end

