-- ==== Sys2Proof/Machine/Crc.lean ====
section
/-! DEFINITION. The three cyclic redundancy checks: HCRC (R49), CRC-32C (R50) and the flit CRC-32 (R270). -/

namespace Sys2Proof.Machine

/-- `n` bit steps of a reflected 32-bit CRC. -/
def crcBits (poly : Nat) : Nat → Nat → Nat
  | 0, c => c
  | n + 1, c => crcBits poly n (if c % 2 = 1 then (c / 2) ^^^ poly else c / 2)

/-- A reflected 32-bit CRC register after one more byte. -/
def crcStep (poly c : Nat) (b : Byte) : Nat := crcBits poly 8 (c ^^^ b.toNat)

/-- The CRC-32C register after bytes (R50), from a register value. -/
def crc32cFrom (c : Nat) (bs : List Byte) : Nat := bs.foldl (crcStep 0x82F63B78) c

/-- CRC-32C (R50). -/
def crc32c (bs : List Byte) : Nat := crc32cFrom 0xFFFFFFFF bs ^^^ 0xFFFFFFFF

/-- The flit CRC-32 (R270). -/
def crc32 (bs : List Byte) : Nat := bs.foldl (crcStep 0xEDB88320) 0xFFFFFFFF ^^^ 0xFFFFFFFF

/-- `n` bit steps of the 8-bit CRC, most significant bit first. -/
def crc8Bits : Nat → Nat → Nat
  | 0, c => c
  | n + 1, c => crc8Bits n (if 128 ≤ c then (2 * c) % 256 ^^^ 0x07 else 2 * c)

/-- HCRC over bytes (R49). -/
def crc8 (bs : List Byte) : Nat := bs.foldl (fun c b => crc8Bits 8 (c ^^^ b.toNat)) 0xFF

end Sys2Proof.Machine
end

