-- ==== Sys2Proof/Config.lean ====
section
/-! DEFINITION. What a part fixes and what the spec leaves open: fuse values, keys, ROM contents and the free values.
None of these constants has a value that a proof can see. -/

namespace Sys2Proof.Config

/-- A fresh value nothing constrains, one for each value of the state's free counter (assumption 3). -/
opaque freeValue : Nat → BitVec 64

/-- The byte that host or peer memory holds when the device reads it: outside the device, so nothing fixes it
(assumption 4).  Arguments: the free counter, the bus or peer address. -/
opaque freeByte : Nat → Nat → BitVec 8

/-- The 64-bit serial number from the fuses (Table 10.4). -/
opaque fuseSerial : BitVec 64

/-- The ROM firmware version (Table 10.4). -/
opaque romVersion : BitVec 16

/-- Fuse DBGEN (R582). -/
opaque fuseDbgEn : Bool

/-- Fuse DBGKEY[1:0] (R582). -/
opaque fuseDbgKey : BitVec 2

/-- Fuse KEYREV, the mask of revoked keys (R543). -/
opaque fuseKeyRev : BitVec 4

/-- Fuse MINPVER, the lowest patch version the part accepts (R543). -/
opaque fuseMinPver : BitVec 16

/-- Whether an ECDSA P-384 signature verifies over SHA-384 of the bytes under ROM key `key` (R542, R583): the key values
are not given, so the verdict is open. -/
opaque verifies : (key : Nat) → (message : List (BitVec 8)) → (signature : List (BitVec 8)) → Bool

/-- The first eight bytes of the SHA-384 digest of the bytes (FIPS 180-4; R553). -/
opaque sha384Head : List (BitVec 8) → BitVec 64

/-- The expected CRC-32C of known-answer kernel k, held in ROM (R439). -/
opaque kakExpected : Nat → BitVec 32

/-- The symbol stream that an encoder chooses for a block's coded bytes (R67, R124: one fixed choice, but no rule gives it): its
tokens as (symbol, extra bits, distance class, distance bits), as a function of the coded bytes, the history that it may reach (newest
first), the place where the ZMASK bitmap ends (0: none), and the static table's lengths (empty for a dynamic table). -/
opaque encodeTokens : (coded history : List (BitVec 8)) → (bitmapEnd : Nat) → (lengths : List Nat) → List (Nat × Nat × Nat × Nat)

/-- Which of the dynamic tables that minimise the symbol codes' bits an encoder picks (R124: a fixed rule, not given): the lengths of
the 288 symbols, as a function of how often the symbol stream uses each. -/
opaque tableChoice : (counts : List Nat) → List Nat

/-- What an accumulator of one type stands for to a MAC of another type that does not clear it (R80: a function of its bits; no rule
gives it, assumption 46): the raw value, by the old type, the new type and the old raw value. -/
opaque accAs : (old new : Nat) → Int → Int

/-- The parity symbols of RS(544,514), which IEEE 802.3 Clause 91 gives and the spec does not repeat: symbol `i` of a message's
(assumption 167). -/
opaque rsParity : (message : List Nat) → (i : Nat) → Nat

/-- Whether a peer that is no AK520 is one the AK520 can accept (R283): by vendor, device and receive credits. -/
opaque acceptsPeer : (vendor device : Nat) → (credits : List Nat) → Bool

/-- The ROM default of a loop's regulator voltage read back in S1 (R473), in millivolts, per AVSBus. -/
opaque bootMillivolts : Nat → Nat

end Sys2Proof.Config
end

