-- ==== Sys2Proof/Machine/NumFmt.lean ====
section
/-! DEFINITION. The fifteen number formats: the value of every encoding, accumulation, and conversion with its rounding and
saturation (chapter 03). -/

namespace Sys2Proof.Machine

/-! ### Values -/

/-- The value of an encoding: a signed dyadic number m × 2^e (the sign is kept on zero), an infinity, or NaN. -/
inductive NVal where
  | fin (neg : Bool) (m : Nat) (e : Int)
  | inf (neg : Bool)
  | nan
  deriving DecidableEq, Repr, Inhabited

/-- Bits of an element (Table 03.3). -/
def fmtBits (fmt : Nat) : Nat :=
  match fmt with
  | 0x0 => 32
  | 0x1 | 0x2 | 0x8 | 0xE => 16
  | 0x5 | 0x6 => 6
  | 0x7 | 0xB => 4
  | 0xC => 2
  | _ => 8

/-- Layout of a floating format: exponent bits, mantissa bits, bias, largest finite pattern (Table 03.2). -/
structure FloatFmt where
  eb : Nat := 8
  mb : Nat := 23
  bias : Nat := 127
  top : Nat := 0x7F7FFFFF
  hasInf : Bool := true
  nanCode : Option Nat := some 0x7FC00000

/-- The floating formats (Table 03.2, R83). -/
def floatFmt (fmt : Nat) : Option FloatFmt :=
  match fmt with
  | 0x0 => some {}
  | 0x1 => some { eb := 8, mb := 7, bias := 127, top := 0x7F7F, nanCode := some 0x7FC0 }
  | 0x2 => some { eb := 5, mb := 10, bias := 15, top := 0x7BFF, nanCode := some 0x7E00 }
  | 0x3 => some { eb := 4, mb := 3, bias := 7, top := 0x7E, hasInf := false, nanCode := some 0x7F }
  | 0x4 => some { eb := 5, mb := 2, bias := 15, top := 0x7B, nanCode := some 0x7E }
  | 0x5 => some { eb := 3, mb := 2, bias := 3, top := 0x1F, hasInf := false, nanCode := none }
  | 0x6 => some { eb := 2, mb := 3, bias := 1, top := 0x1F, hasInf := false, nanCode := none }
  | 0x7 => some { eb := 2, mb := 1, bias := 1, top := 0x7, hasInf := false, nanCode := none }
  | _ => none

/-- The value of a pattern of a floating format (R82). -/
def FloatFmt.value (f : FloatFmt) (x : Nat) : NVal :=
  let w := f.eb + f.mb
  let neg := x.testBit w
  let mag := x % 2 ^ w
  if mag ≤ f.top then
    let e := mag / 2 ^ f.mb
    let m := mag % 2 ^ f.mb
    if e = 0 then .fin neg m (1 - (f.bias : Int) - f.mb)
    else .fin neg (2 ^ f.mb + m) ((e : Int) - f.bias - f.mb)
  else if f.hasInf && mag % 2 ^ f.mb == 0 then .inf neg
  else .nan

/-- An integer as a value. -/
def intVal (q : Int) (e : Int) : NVal := .fin (decide (q < 0)) q.natAbs e

/-- T[f] of R86 in units of 2^−23: the binary32 value nearest to 2^(f/16). -/
def logTable : List Nat :=
  [8388608, 8760003, 9147842, 9552851, 9975792, 10417458, 10878679, 11360319, 11863283, 12388516, 12937002, 13509772, 14107901,
   14732511, 15384775, 16065917]

/-- 2^(l/16) as R86 computes it. -/
def logVal (neg : Bool) (l : Int) : NVal := .fin neg (logTable.getD (l % 16).toNat 0) (l / 16 - 23)

/-- The value of an element's bits in a format; `bs` for a block-scaled one, its scale aside (R82 to R86, R90). -/
def elemVal (fmt : Nat) (bs : Bool) (x : Nat) : NVal :=
  match floatFmt fmt with
  | some f => f.value x
  | none =>
    match fmt with
    | 0x8 => intVal (signed 16 x) 0
    | 0x9 => intVal (signed 8 x) (if bs then -6 else 0)
    | 0xA => .fin false (x % 256) 0
    | 0xB => intVal (signed 4 x) (if bs then -2 else 0)
    | 0xC => intVal (signed 2 x) 0
    | 0xD => if x % 256 = 0x80 then .fin false 0 0 else logVal (x.testBit 7) (signed 7 x)
    | _ => intVal (signed 16 x) (-15)

/-- Multiply by 2^k. -/
def NVal.scale (v : NVal) (k : Int) : NVal :=
  match v with
  | .fin n m e => .fin n m (e + k)
  | v => v

/-- The value of an element under a scale byte (R89). -/
def scaledVal (fmt sc x : Nat) : NVal := if sc = 0xFF then .nan else (elemVal fmt true x).scale ((sc : Int) - 127)

/-! ### Packing (R87, R88) -/

/-- Element `i` of `b` bits of a little-endian bit string. -/
def elemAt (b : Nat) (str i : Nat) : Nat := str / 2 ^ (b * i) % 2 ^ b

/-- The first `n` elements of a byte string. -/
def unpack (b n : Nat) (bs : List Byte) : List Nat := (List.range n).map (elemAt b (leNat bs))

/-- Elements packed in whole bytes, the last byte's rest 0. -/
def packBits (b : Nat) : List Nat → Nat
  | [] => 0
  | x :: r => x % 2 ^ b + 2 ^ b * packBits b r

/-- The bytes of packed elements. -/
def pack (b : Nat) (xs : List Nat) : List Byte := leBytes ((b * xs.length + 7) / 8) (packBits b xs)

/-! ### Rounding -/

/-- m × 2^e as a multiple of 2^q: nearest with ties to even, or toward zero (R97). -/
def roundAt (toZero : Bool) (m : Nat) (e q : Int) : Nat :=
  if q ≤ e then m * 2 ^ (e - q).toNat
  else
    let d := 2 ^ (q - e).toNat
    let k := m / d
    let r := 2 * (m % d)
    if toZero then k else if r > d ∨ (r = d ∧ k % 2 = 1) then k + 1 else k

/-- ⌊log2 (m × 2^e)⌋ of a magnitude that is not 0. -/
def floorLog (m : Nat) (e : Int) : Int := (Nat.log2 m : Int) + e

/-- The pattern that a magnitude rounds to, without its sign; beyond `top` it overflows (R82, R98). -/
def FloatFmt.round (f : FloatFmt) (toZero : Bool) (m : Nat) (e : Int) : Nat :=
  if m = 0 then 0
  else
    let x := max (floorLog m e) (1 - (f.bias : Int))
    (x + f.bias - 1).toNat * 2 ^ f.mb + roundAt toZero m e (x - f.mb)

/-- A pattern with its sign. -/
def FloatFmt.sign (f : FloatFmt) (neg : Bool) (x : Nat) : Nat := x + b2n neg * 2 ^ (f.eb + f.mb)

/-! ### Accumulators (R92 to R96) -/

/-- The accumulator types of Table 03.4. -/
inductive AccKind where
  | fp32 | int32 | int48 | q15
  deriving DecidableEq, Repr, Inhabited

/-- Formats of the first row of Table 03.4. -/
def isFloat (fmt : Nat) : Bool := decide (fmt ≤ 7)

/-- The accumulator of an operand pair, if Table 03.4 has the pair. -/
def accKind (wf : Nat) (wbs : Bool) (af : Nat) (asc : Bool) : Option AccKind :=
  let mx := fun f => decide (3 ≤ f ∧ f ≤ 7) || f == 0x9 || f == 0xB
  let small := fun f => f == 0x9 || f == 0xA || f == 0xB || f == 0xC
  if wbs && asc then (if mx wf && mx af then some .fp32 else none)
  else if wbs || asc then none
  else if isFloat wf && isFloat af then some .fp32
  else if wf == 0xD && af == 0xD then some .fp32
  else if small wf && small af then some .int32
  else if (wf == 0x8 && (af == 0x8 || af == 0x9 || af == 0xA)) || (af == 0x8 && (wf == 0x9 || wf == 0xA)) then some .int48
  else if wf == 0xE && af == 0xE then some .q15
  else none

/-- MACs per ACLK cycle of a format as the slower operand (Table 03.5). -/
def macRate (fmt : Nat) : Nat :=
  match fmtBits fmt with
  | 32 => 512
  | 16 => 2048
  | 4 => 8192
  | 2 => 16384
  | _ => 4096

/-- Rate of a pair (R92). -/
def pairRate (wf af : Nat) : Nat := min (macRate wf) (macRate af)

/-- Products of a chunk. -/
def chunkLen (wf af : Nat) (bs : Bool) : Nat := if bs then 32 else max 1 (pairRate wf af / 4096)

/-- The product of two element values; LOG8 products add logarithms first (R86). -/
def mulVal (wf af : Nat) (bs : Bool) (x y : Nat) : NVal :=
  if wf = 0xD ∧ af = 0xD then
    if x % 256 = 0x80 ∨ y % 256 = 0x80 then .fin false 0 0
    else logVal (x.testBit 7 != y.testBit 7) (signed 7 x + signed 7 y)
  else
    match elemVal wf bs x, elemVal af bs y with
    | .nan, _ => .nan
    | _, .nan => .nan
    | .inf a, .inf b => .inf (a != b)
    | .inf a, .fin b m _ => if m = 0 then .nan else .inf (a != b)
    | .fin a m _, .inf b => if m = 0 then .nan else .inf (a != b)
    | .fin a m e, .fin b k f => .fin (a != b) (m * k) (e + f)

/-- The exact sum of two values; a zero sum is −0 only when both are (assumption 13). -/
def addVal (v w : NVal) : NVal :=
  match v, w with
  | .nan, _ => .nan
  | _, .nan => .nan
  | .inf a, .inf b => if a = b then .inf a else .nan
  | .inf a, _ => .inf a
  | _, .inf b => .inf b
  | .fin a m e, .fin b k f =>
    let q := min e f
    let x : Int := (m * 2 ^ (e - q).toNat : Nat)
    let y : Int := (k * 2 ^ (f - q).toNat : Nat)
    let z := (if a then -x else x) + (if b then -y else y)
    .fin (if z = 0 then a && b else decide (z < 0)) z.natAbs q

/-- The exact sum of a chunk's products. -/
def sumVals : List NVal → NVal
  | [] => .fin false 0 0
  | [v] => v
  | v :: r => addVal v (sumVals r)

/-- A value rounded into binary32, and whether a finite value became an infinity (R94). -/
def toFp32 (v : NVal) : Nat × Bool :=
  let f : FloatFmt := {}
  match v with
  | .nan => (0x7FC00000, false)
  | .inf n => (f.sign n 0x7F800000, false)
  | .fin n m e =>
    let x := f.round false m e
    if f.top < x then (f.sign n 0x7F800000, true) else (f.sign n x, false)

/-- An integer value, for the integer accumulators: a value in units of 2^u. -/
def NVal.toInt (v : NVal) (u : Int) : Int :=
  match v with
  | .fin n m e => let x : Int := (m * 2 ^ (e - u).toNat : Nat); if n then -x else x
  | _ => 0

/-- The limits of an integer or Q15 accumulator: 2^k (R95). -/
def AccKind.limit : AccKind → Int
  | .fp32 => 0
  | .int32 => 2 ^ 31
  | .int48 => 2 ^ 47
  | .q15 => 2 ^ 39

/-- An accumulator takes a chunk: its raw value, its saturation mark, and whether it became saturated or infinite now (R94 to
R96). -/
def accTake (k : AccKind) (raw : Int) (sat : Bool) (s : NVal) : Int × Bool × Bool :=
  match k with
  | .fp32 =>
    let old := (({} : FloatFmt).value raw.toNat)
    let r := toFp32 (addVal old s)
    ((r.1 : Nat), false, r.2)
  | k =>
    if sat then (raw, true, false)
    else
      let z := raw + s.toInt (if k = .q15 then -30 else 0)
      let lim := k.limit
      if z < -lim then (-lim, true, true) else if lim ≤ z then (lim - 1, true, true) else (z, false, false)

/-! ### Conversion (R97 to R100) -/

/-- A conversion's source: a value, or a saturated accumulator of a sign (R98). -/
inductive ConvSrc where
  | val (v : NVal)
  | sat (neg : Bool)
  deriving DecidableEq, Repr, Inhabited

/-- The source value of an accumulator. -/
def accSrc (k : AccKind) (raw : Int) (sat : Bool) : ConvSrc :=
  match k with
  | .fp32 => .val (({} : FloatFmt).value raw.toNat)
  | .q15 => if sat then .sat (decide (raw < 0)) else .val (intVal raw (-30))
  | _ => if sat then .sat (decide (raw < 0)) else .val (intVal raw 0)

/-- A converted element: its bits, whether it saturated, and whether a NaN met a destination without one. -/
structure Conv where
  x : Nat := 0
  sat : Bool := false
  nan : Bool := false
  deriving DecidableEq, Repr, Inhabited

/-- The integer limits of a destination that is not floating, and its unit 2^u (R84, R90). -/
def intRange (fmt : Nat) (bs : Bool) : Int × Int × Int :=
  match fmt with
  | 0x8 => (-32768, 32767, 0)
  | 0x9 => (-128, 127, if bs then -6 else 0)
  | 0xA => (0, 255, 0)
  | 0xB => (-8, 7, if bs then -2 else 0)
  | 0xC => (-2, 1, 0)
  | _ => (-32768, 32767, -15)

/-- A magnitude to LOG8 (R99). -/
def toLog8 (toZero : Bool) (neg : Bool) (m : Nat) (e : Int) : Conv :=
  if m = 0 then { x := 0x80 }
  else
    let l : Int := if toZero then floorLog (m ^ 16) (16 * e) else (floorLog (m ^ 32) (32 * e) + 1) / 2
    if l < -64 then { x := 0x80 }
    else
      let over63 := decide (63 < l)
      let l1 := if over63 then 63 else if neg && l == 0 then -1 else l
      { x := unsigned 7 l1 + 128 * b2n neg, sat := over63 }

/-- The largest magnitude of a destination, with a sign. -/
def destLimit (fmt : Nat) (bs : Bool) (neg : Bool) : Nat :=
  match floatFmt fmt with
  | some f => f.sign neg f.top
  | none =>
    if fmt = 0xD then 63 + 128 * b2n neg
    else
      let r := intRange fmt bs
      unsigned (fmtBits fmt) (if neg then r.1 else r.2.1)

/-- Convert one value, not block-scaled or already divided by its scale; `force` saturates in every mode (R97 to R100). -/
def convVal (fmt : Nat) (bs : Bool) (mode : Nat) (force : Bool) (v : NVal) : Conv :=
  let tz := mode == 2
  match floatFmt fmt with
  | some f =>
    let beyond := fun n : Bool =>
      if mode = 1 ∧ force = false ∧ f.hasInf = true then ({ x := f.sign n (f.top + 1) } : Conv)
      else if mode = 1 ∧ force = false ∧ f.nanCode.isSome = true then { x := f.nanCode.getD 0 }
      else { x := f.sign n f.top, sat := true }
    match v with
    | .nan => match f.nanCode with | some c => { x := c } | none => { nan := true }
    | .inf n => beyond n
    | .fin n m e => let x := f.round tz m e; if f.top < x then beyond n else { x := f.sign n x }
  | none =>
    match v with
    | .nan => { x := if fmt = 0xD then 0x80 else 0, nan := true }
    | .inf n => { x := destLimit fmt bs n, sat := true }
    | .fin n m e =>
      if fmt = 0xD then toLog8 tz n m e
      else
        let r := intRange fmt bs
        let k : Int := (roundAt tz m e r.2.2 : Nat)
        let z := if n then -k else k
        if z < r.1 ∨ r.2.1 < z then { x := destLimit fmt bs n, sat := true } else { x := unsigned (fmtBits fmt) z }

/-- Convert one element to a destination without block scaling: v × 2^E, then the mode (R97, R98). -/
def convElem (fmt mode : Nat) (e : Int) (v : ConvSrc) : Conv :=
  match v with
  | .sat n => { x := destLimit fmt false n, sat := true }
  | .val v => convVal fmt false mode false (v.scale e)

/-- The exponent ceiling of R90. -/
def emaxOf (fmt : Nat) : Int :=
  match fmt with
  | 0x3 => 8
  | 0x4 => 15
  | 0x5 => 4
  | 0x6 => 2
  | 0x7 => 2
  | _ => 0

/-- A magnitude's ⌊log2⌋, `none` for zero; infinities and saturated accumulators as the largest finite element value (R100). -/
def groupLog (fmt : Nat) (v : ConvSrc) : Option Int :=
  let lim := match elemVal fmt true (destLimit fmt true false) with | .fin _ m e => some (floorLog m e) | _ => none
  match v with
  | .sat _ => lim
  | .val (.inf _) => lim
  | .val (.fin _ m e) => if m = 0 then none else some (floorLog m e)
  | .val .nan => none

/-- The larger of two optional numbers. -/
def maxOpt (a b : Option Int) : Option Int :=
  match a, b with
  | some x, some y => some (max x y)
  | some x, none => some x
  | none, y => y

/-- Convert a group of 32 values to a block-scaled destination: the scale byte and the elements (R100).  DESIGN CHOICE: the elements of
a group with a NaN are set by step 1 of R100, so none of them counts under R98 as a lost NaN or as saturated (assumption 146). -/
def convGroup (fmt mode : Nat) (e : Int) (vs : List ConvSrc) : Nat × List Conv :=
  let ws := vs.map (fun v => match v with | .val x => ConvSrc.val (x.scale e) | .sat n => .sat n)
  if ws.any (fun v => decide (v = .val .nan)) then (0xFF, ws.map (fun _ => {}))
  else
    match (ws.map (groupLog fmt)).foldl maxOpt none with
    | none => (0, ws.map (fun _ => {}))
    | some l =>
      let k := max (-127) (min 127 (l - emaxOf fmt))
      ((k + 127).toNat, ws.map (fun v => match v with
        | .sat n => { x := destLimit fmt true n, sat := true }
        | .val (.inf n) => { x := destLimit fmt true n, sat := true }
        | .val x => convVal fmt true mode true (x.scale (-k))))

/-- A row of converted elements: the bytes, and the elements with what happened to each. -/
structure ConvRow where
  bytes : List Byte := []
  elems : List Conv := []
  scales : List Nat := []
  deriving DecidableEq, Repr, Inhabited

/-- Convert a list of values to a destination; `n` groups of 32 where it is block-scaled (R97, R100, Table 02.5). -/
def convGroups (fmt mode : Nat) (e : Int) : Nat → List ConvSrc → ConvRow
  | 0, _ => {}
  | n + 1, vs =>
    if vs = [] then {}
    else
      let g := convGroup fmt mode e (vs.take 32)
      let r := convGroups fmt mode e n (vs.drop 32)
      { bytes := BitVec.ofNat 8 g.1 :: pack (fmtBits fmt) (g.2.map (·.x)) ++ r.bytes
        elems := g.2 ++ r.elems, scales := g.1 :: r.scales }

/-- Convert a list of values. -/
def convList (fmt : Nat) (bs : Bool) (mode : Nat) (e : Int) (vs : List ConvSrc) : ConvRow :=
  if bs then convGroups fmt mode e vs.length vs
  else
    let cs := vs.map (convElem fmt mode e)
    { bytes := pack (fmtBits fmt) (cs.map (·.x)), elems := cs }

/-- The values of `groups` block-scaled groups. -/
def groupVals (fmt : Nat) : Nat → List Byte → List NVal
  | 0, _ => []
  | n + 1, bs =>
    let k := 4 * fmtBits fmt
    let sc := (bs.headD 0).toNat
    (unpack (fmtBits fmt) 32 ((bs.drop 1).take k)).map (scaledVal fmt sc) ++ groupVals fmt n (bs.drop (1 + k))

/-- The values of the elements in a block's original without its padding (R88, R89). -/
def blockVals (fmt : Nat) (bs : Bool) (data : List Byte) : List NVal :=
  if bs then groupVals fmt (data.length / (1 + 4 * fmtBits fmt)) data
  else (unpack (fmtBits fmt) (8 * data.length / fmtBits fmt) data).map (elemVal fmt false)

end Sys2Proof.Machine
end

