-- ==== Sys2Proof/Machine/Tab.lean ====
section
/-! DEFINITION. Sparse tables: a list of (key, value) pairs with strictly rising keys and no entry that equals the default
value, so that equal tables are equal lists.  Device memory and every numbered resource of the AK520 is held in one. -/

namespace Sys2Proof.Machine

/-- A sparse table from numbers to values of `α`; a key it does not list holds `default`. -/
abbrev Tab (α : Type) := List (Nat × α)

/-- The value at a key. -/
def tget {α : Type} [Inhabited α] : Tab α → Nat → α
  | [], _ => default
  | (k', v) :: r, k => if k' = k then v else tget r k

/-- Put a listed value at a key, in its place in the order. -/
def tput {α : Type} : Tab α → Nat → α → Tab α
  | [], k, v => [(k, v)]
  | (k', v') :: r, k, v =>
    if k < k' then (k, v) :: (k', v') :: r
    else if k = k' then (k, v) :: r
    else (k', v') :: tput r k v

/-- Remove a key, which then holds `default`. -/
def tdel {α : Type} : Tab α → Nat → Tab α
  | [], _ => []
  | (k', v') :: r, k => if k' = k then tdel r k else (k', v') :: tdel r k

/-- Write a value at a key; writing `default` removes the entry, so that the form stays canonical. -/
def tset {α : Type} [Inhabited α] [DecidableEq α] (t : Tab α) (k : Nat) (v : α) : Tab α :=
  if v = default then tdel t k else tput t k v

/-- Change the value at a key. -/
def tmod {α : Type} [Inhabited α] [DecidableEq α] (t : Tab α) (k : Nat) (f : α → α) : Tab α :=
  tset t k (f (tget t k))

/-- Keep only the entries whose key and value satisfy `p`; the others return to `default`. -/
def tfilter {α : Type} (p : Nat → α → Bool) (t : Tab α) : Tab α :=
  t.filter (fun e => p e.1 e.2)

/-- Change every listed value. -/
def tmap {α : Type} [Inhabited α] [DecidableEq α] (f : Nat → α → α) (t : Tab α) : Tab α :=
  (t.map (fun e => (e.1, f e.1 e.2))).filter (fun e => decide (e.2 ≠ default))

/-- The keys, counted from `lo`, rise strictly. -/
def tsorted {α : Type} : Nat → Tab α → Bool
  | _, [] => true
  | lo, (k, _) :: r => decide (lo ≤ k) && tsorted (k + 1) r

/-- The canonical form: keys strictly rising, no entry equal to `default`. -/
def twf {α : Type} [Inhabited α] [DecidableEq α] (t : Tab α) : Bool :=
  tsorted 0 t && t.all (fun e => decide (e.2 ≠ default))

/-- A sorted list of numbers without repeats, as a set: membership. -/
def smem (s : List Nat) (k : Nat) : Bool := s.contains k

/-- Insert into a sorted set. -/
def sput : List Nat → Nat → List Nat
  | [], k => [k]
  | x :: r, k => if k < x then k :: x :: r else if k = x then x :: r else x :: sput r k

/-- Remove from a set. -/
def sdel (s : List Nat) (k : Nat) : List Nat := s.filter (fun x => x ≠ k)

end Sys2Proof.Machine
end

