-- ==== Sys2Proof/Machine/TypesHost.lean ====
section
/-! DEFINITION. State of the command ports: attention views, queue pairs, mailboxes, commands in progress, result slots, the
PCI Express functions, P2 and the test access port (chapters 09, 10 and 16). -/

namespace Sys2Proof.Machine

/-- One attention bit of a view: whether it is set, and its LASTSEQ (R336). -/
structure AttnBit where
  isSet : Bool := false
  last : Nat := 0
  deriving DecidableEq, Repr, Inhabited

/-- One of a view's 32 counter thresholds (R360). -/
structure Threshold where
  en : Bool := false
  cid : Nat := 0
  inst : Nat := 0
  value : Nat := 0
  deriving DecidableEq, Repr, Inhabited

/-- An attention view (R337): the bits by number and the thresholds by index. -/
structure View where
  bits : Tab AttnBit := []
  thr : Tab Threshold := []
  deriving DecidableEq, Repr, Inhabited

/-- A command port P0 to P3: privilege (R313), ESEQ (R336), its port view (R337), whether a port reset runs (R545), and the QP0
configuration registers by offset (Table 09.10). -/
structure Port where
  admin : Bool := false
  eseq : Nat := 0
  view : View := {}
  resetting : Bool := false
  qp0 : Tab Dword := []
  deriving DecidableEq, Repr, Inhabited

/-- A queue pair (Tables 09.10 and 09.11, R327, R328).  `bound` is its partition, `reserved` the completion entries
reserved for replies, `unread` those written and not freed by CQHEAD, `phase` the PHASE of the present pass, `epoch` counts its
enables. -/
structure Qp where
  live : Bool := false
  en : Bool := false
  enWaits : Bool := false
  rdy : Bool := false
  err : Bool := false
  cause : Nat := 0
  cfgerr : Bool := false
  bound : Option Nat := none
  sqbase : Nat := 0
  cqbase : Nat := 0
  sqlog : Nat := 0
  cqlog : Nat := 0
  sqtail : Nat := 0
  cqhead : Nat := 0
  fetch : Nat := 0
  cqw : Nat := 0
  phase : Bool := true
  reserved : Nat := 0
  unread : Nat := 0
  epoch : Nat := 0
  view : View := {}
  deriving DecidableEq, Repr, Inhabited

/-- The mailbox of P2 or P3 (Table 09.12a, R334): the bytes of CMD and DATA by offset, RPLY, the flags, the last command
that received a reply, and a GO held by a port reset (R545). -/
structure Mbx where
  cells : Tab Byte := []
  rply : List Dword := [0, 0, 0, 0, 0, 0, 0, 0]
  busy : Bool := false
  mphase : Bool := false
  retry : Bool := false
  last : Option (List Byte) := none
  held : Bool := false
  deriving DecidableEq, Repr, Inhabited

/-- What an outstanding host-memory read is for (Table 16.10). -/
inductive ReadKind where
  | sqEntry (qp epoch : Nat)
  | block (cmd : Nat)
  | input (cmd : Nat)
  | noc (k : NocPkt)
  deriving DecidableEq, Repr, Inhabited

/-- A read request to host memory, of an access of Table 16.10 that has not ended (R574): the access, named by the tag of its first
request, whether Relaxed Ordering is set, and, once it has completed, its bytes with EP, or that it failed. -/
structure HostRead where
  tag : Nat := 0
  acc : Nat := 0
  fn : Nat := 0
  addr : Nat := 0
  len : Nat := 0
  kind : ReadKind := .sqEntry 0 0
  ro : Bool := false
  came : Option (Option (List Byte × Bool)) := none
  deriving DecidableEq, Repr, Inhabited

/-- A write request that the device has made to host memory as bus master: function, bus address, bytes, and whether Relaxed Ordering is
set (R574). -/
structure HostWrite where
  fn : Nat := 0
  addr : Nat := 0
  data : List Byte := []
  ro : Bool := false
  deriving DecidableEq, Repr, Inhabited

/-- A completion the device has returned to the host for a BAR or configuration read: all bytes, or Unsupported Request,
or a poisoned completion (R216, R324, R575). -/
structure CplOut where
  fn : Nat := 0
  unsupported : Bool := false
  poisoned : Bool := false
  data : List Byte := []
  deriving DecidableEq, Repr, Inhabited

/-- Where the round-robin orders of the ports stand (R312): the port that the command processor looks at next, and by port the
queue pair that it looks at next, for an entry to fetch and for a command to take (assumption 168). -/
structure Rota where
  port : Nat := 0
  fetch : Tab Nat := []
  take : Tab Nat := []
  deriving DecidableEq, Repr, Inhabited

/-- A command in progress (R331): its carrier's owner identity (R387), packet, parameter block as they
arrive, whether its reply is still owed (R327, R339), whether it has passed checks 6 to 8 (R344), and whether it has
been handled and waits for a sample boundary or an AVSBus frame to reply (R370). -/
structure Cmd where
  id : Nat := 0
  carrier : Nat := 0
  pkt : Packet := {}
  block : List Dword := []
  waits : Nat := 0
  blockFault : Bool := false
  gated : Bool := false
  owed : Bool := true
  counted : Bool := true
  parked : Bool := false
  time : Nat := 0
  deriving DecidableEq, Repr, Inhabited

/-- A result slot (R315, R335): held by the work of one ST_PENDING command.  `orphan` marks the slot of a command whose
port was reset before it replied (R343). -/
structure RSlot where
  gen : Nat := 0
  held : Bool := false
  port : Nat := 0
  part : Nat := 0
  device : Bool := false
  orphan : Bool := false
  final : Option Nat := none
  result : List Dword := []
  reread : Bool := false
  cmd : Cmd := {}
  deriving DecidableEq, Repr, Inhabited

/-- A PCI Express function: link, Memory Space Enable, Bus Master Enable, D3hot, Device Control (R574; its layout and reset value are
PCI Express's, assumption 87), and the other configuration dwords written (R573 to R576). -/
structure PcieFn where
  linkUp : Bool := false
  mse : Bool := false
  bme : Bool := false
  d3 : Bool := false
  devCtl : Dword := 0x2010
  cfg : Tab Dword := []
  deriving DecidableEq, Repr, Inhabited

/-- The management target P2 (R566, R577, R580): mode, dynamic address, read pointer and length, CCC values, RSTACT, and
the bytes it returned last. -/
structure P2St where
  i3c : Bool := false
  dyn : Nat := 0
  ptr : Nat := 0x040
  len : Nat := 32
  mwl : Nat := 259
  mrl : Nat := 256
  rstact : Option Nat := none
  out : List Byte := []
  deriving DecidableEq, Repr, Inhabited

/-- The test access port (R568, R569, R581): instruction, the access in progress, the outcome of the latest access, and
the value captured last. -/
structure TapSt where
  ir : Nat := 0x01
  access : Option (Nat × Option Dword) := none
  data : Dword := 0
  didx : Nat := 0
  wrBit : Bool := false
  err : Bool := false
  done : Bool := false
  captured : BitVec 46 := 0
  resetDue : Bool := false
  deriving DecidableEq, Repr, Inhabited

end Sys2Proof.Machine
end

