-- ==== Sys2Proof/Machine/TypesObj.lean ====
section
/-! DEFINITION. State of partitions, locks, sequences, pools, windows, streams, static slots and codec jobs (chapters 04, 06
and 11). -/

namespace Sys2Proof.Machine

/-- Partition states (Table 11.1). -/
inductive PState where
  | absent | active | resetting | destroying
  deriving DecidableEq, Repr, Inhabited

/-- Check modes (Table 12.9). -/
inductive CheckMode where
  | off | sampled | dual
  deriving DecidableEq, Repr, Inhabited

/-- The multicast report of a partition (Table 07.7). -/
structure McReport where
  setMask : BitVec 64 := 0
  delivered : BitVec 64 := 0
  reasons : Tab Nat := []
  deriving DecidableEq, Repr, Inhabited

/-- A partition (R385, R386): state, stream range, bindings to P1 and P3, check mode, multicast report, and the tickets
of the resets and destroys that are waiting (R414). -/
structure Part where
  state : PState := .absent
  sbase : Nat := 0
  scount : Nat := 0
  bind1 : Bool := false
  bind3 : Bool := false
  mode : CheckMode := .off
  log2n : Nat := 0
  report : McReport := {}
  resetTks : List Nat := []
  destroyTks : List Nat := []
  laterTks : List Nat := []
  lateResets : List Nat := []
  deriving DecidableEq, Repr, Inhabited

/-- A hardware lock (R388): FREE, HELD by an owner identity, or BROKEN. -/
inductive Lock where
  | free
  | held (owner : Nat)
  | broken
  deriving DecidableEq, Repr, Inhabited

/-- The open sequence of an owner identity (R399): the lock it is on, and the staged commands in order. -/
structure Seq where
  lock : Option Nat := none
  staged : List Cmd := []
  deriving DecidableEq, Repr, Inhabited

/-- The owner of an allocated buffer (Table 11.4). -/
inductive BufOwner where
  | job
  | ident (owner : Nat)
  deriving DecidableEq, Repr, Inhabited

/-- A buffer record (Table 11.4). -/
structure Buf where
  allocated : Bool := false
  gen : Nat := 0
  owner : BufOwner := .job
  deriving DecidableEq, Repr, Inhabited

/-- A buffer pool (R389, R390). -/
structure Pool where
  owner : Option Nat := none
  spillable : Bool := false
  bufsize : Nat := 0
  pbase : Nat := 0
  pcount : Nat := 0
  sbase : Nat := 0
  scount : Nat := 0
  bufs : Tab Buf := []
  deriving DecidableEq, Repr, Inhabited

/-- A window of a partition (Table 06.4), with whether it is still being zeroed, its map's ticket, and its share source
(R203, R204). -/
structure Window where
  valid : Bool := false
  wr : Bool := false
  spillable : Bool := false
  shared : Bool := false
  region : Nat := 0
  target : Nat := 0x1F
  vpage : Nat := 0
  npages : Nat := 0
  spilled : Nat := 0
  ext : List (Nat × Nat) := []
  sppage : Nat := 0
  zeroing : Bool := false
  ticket : Nat := 0
  srcPart : Nat := 0
  srcWin : Nat := 0
  deriving DecidableEq, Repr, Inhabited

/-- A range of 2 MiB pages: the host spill region with its function and base (R212), or a port's peer range (R213). -/
structure SpillRange where
  fn : Nat := 0
  base : Nat := 0
  first : Nat := 0
  count : Nat := 0
  deriving DecidableEq, Repr, Inhabited

/-- A 2 MiB page of host or peer memory that a refused write has poisoned (R215), with the runs (start, end) of it that have
been written again since, in order. -/
structure PageMark where
  bad : Bool := false
  again : List (Nat × Nat) := []
  deriving DecidableEq, Repr, Inhabited

/-- A BAR2 segment register (Table 06.5). -/
structure Seg where
  en : Bool := false
  wren : Bool := false
  part : Nat := 0
  segerr : Bool := false
  vpage : Nat := 0
  deriving DecidableEq, Repr, Inhabited

/-- A stream context (Table 04.2).  `pfill` marks a context whose fill arrived poisoned (R108). -/
structure Ctx where
  valid : Bool := false
  encode : Bool := false
  ended : Bool := false
  poisoned : Bool := false
  held : Bool := false
  link : Bool := false
  pendok : Bool := false
  flushq : Bool := false
  owner : Nat := 0
  stream : Nat := 0
  fmt : Nat := 0
  bscale : Bool := false
  xf : Nat := 0
  tsel : Nat := 0
  tslot : Nat := 0
  tgen : Nat := 0
  rstride : Nat := 0
  blklen : Nat := 0
  seq : Nat := 0
  lasterr : Nat := 0
  segstart : Bool := false
  cursor : Nat := 0
  sbuf : Nat := 0
  hfill : Nat := 0
  hhead : Nat := 0
  pend : Nat := 0
  pcrc : Nat := 0
  blocks : Nat := 0
  bytes : Nat := 0
  errors : Nat := 0
  pfill : Bool := false
  deriving DecidableEq, Repr, Inhabited

/-- The stream context manager (R110 to R112): table base, a clear in progress with its ticket, whether any context has
been configured since reset, the resident contexts from least to most recently released, the holders, the units waiting
in order of request, the tickets of queued flushes, the contexts with a cached word that holds an injected error, with its
kind (Table 12.7), and the elements in the pending area of a stream of unscaled FP6 that packers or a TRANSCODE left there (R88,
assumption 149). -/
structure CtxMgr where
  base : Option Nat := none
  clearing : Option Nat := none
  configured : Bool := false
  resident : List Nat := []
  holder : Tab (Option Nat) := []
  waiting : List (Nat × Nat) := []
  flushes : Tab (List Nat) := []
  bad : List (Nat × Nat) := []
  pendElems : Tab Nat := []
  deriving DecidableEq, Repr, Inhabited

/-- Ownership of a static slot (R118). -/
inductive SlotOwner where
  | free
  | part (p : Nat)
  | global
  deriving DecidableEq, Repr, Inhabited

/-- A static code-table slot (R66, R118): owner, generation (0: never loaded), code lengths of the 288 symbols. -/
structure StaticSlot where
  owner : SlotOwner := .free
  gen : Nat := 0
  lens : List Nat := []
  deriving DecidableEq, Repr, Inhabited

/-- A request that a fence has refused: its first device address and length, whether it writes, and the fence's HINT (R253). -/
structure Fenced where
  dev : Nat := 0
  len : Nat := 0
  wr : Bool := false
  hint : Nat := 0
  deriving DecidableEq, Repr, Inhabited

/-- Why a unit's access or block cannot be carried out: the status that ends its job, and the request that a fence has refused. -/
structure Stop where
  st : Nat := 0
  fence : Option Fenced := none
  deriving DecidableEq, Repr, Inhabited

/-- What static slots held when a decoder or encoder took its block up, where they have changed since: by slot, the generation and
lengths that it could use, if any (R75). -/
abbrev OldSlots := List (Nat × Option (Nat × List Nat))

/-- The passes of a codec job (R128). -/
inductive JobPass where
  | queued | direct | sizing | sized | writing | ended
  deriving DecidableEq, Repr, Inhabited

/-- A codec job (R114 to R116, R121, R127, R128): its descriptor, where its result goes (a ticket; or, issued by a program, the
program slot and tile, the counter that receives a token, and the descriptor's address), and how far it is.  `saved` and
`hist` are the context and history (newest first) of a single-mode job or of a sizing pass; `elems` and `carry` are the
converted units (bytes, or elements of unscaled FP6) and the elements of a TRANSCODE that fill no block yet; `overflow` is a list entry that
found no room, `old` the slots that changed under the block in hand (R75), `fence` the request that a fence has refused, `tries` how often that has
happened, and
`order` the number of its CODEC bundle in its tile's window. -/
structure Job where
  id : Nat := 0
  part : Nat := 0
  desc : List Dword := []
  ticket : Option Nat := none
  prog : Option (Nat × Nat) := none
  token : Option Nat := none
  descAddr : Nat := 0
  descBundle : Nat := 0
  pass : JobPass := .queued
  engine : Option Nat := none
  tgen : Nat := 0
  src : Nat := 0
  srcLeft : Nat := 0
  out : Nat := 0
  outEnd : Nat := 0
  chained : Bool := false
  listed : Nat := 0
  need : Nat := 0
  inBytes : Nat := 0
  outBytes : Nat := 0
  nblocks : Nat := 0
  index : Nat := 0
  nfailed : Nat := 0
  firsterr : Nat := 0
  trunc : Bool := false
  overflow : Bool := false
  old : OldSlots := []
  fence : Option Fenced := none
  tries : Nat := 0
  order : Nat := 0
  didSize : Bool := false
  nchain : Nat := 0
  nraw : Nat := 0
  aux : Nat := 0
  skipped : Bool := false
  poisoned : Nat := 0
  reread : Bool := false
  injected : Bool := false
  elems : List Byte := []
  carry : List NVal := []
  saved : Ctx := {}
  hist : List Byte := []
  failed : Nat := 0
  ending : Option Nat := none
  deriving DecidableEq, Repr, Inhabited

/-- A codec engine (R121): its job, the blocks of the slice done, the partition served last. -/
structure Engine where
  job : Option Nat := none
  slice : Nat := 0
  lastPart : Nat := 0
  deriving DecidableEq, Repr, Inhabited

end Sys2Proof.Machine
end

