-- ==== Sys2Proof/Machine/TypesTile.lean ====
section
/-! DEFINITION. State of the tiles and the loaded programs (chapter 05), of a known-answer kernel on a tile (R439), and of a
tile's part in multicasts (R248 to R251). -/

namespace Sys2Proof.Machine

/-- A fault ledger record (Table 12.3); `crcOk` is whether its RCRC matches. -/
structure LRec where
  kind : Nat := 0
  verdict : Nat := 0
  unit : Nat := 0
  powerup : Nat := 0
  time : Nat := 0
  status : Nat := 0
  count : Nat := 0
  part : Option Nat := none
  d0 : Nat := 0
  d1 : Nat := 0
  crcOk : Bool := true
  deriving DecidableEq, Repr, Inhabited

/-- Operand slot states (Table 05.3). -/
inductive SlotState where
  | empty | filling | ready | inUse
  deriving DecidableEq, Repr, Inhabited

/-- A weight or activation slot: its state and its bytes. -/
structure OpSlot where
  st : SlotState := .empty
  data : Tab Byte := []
  deriving DecidableEq, Repr, Inhabited

/-- An accumulator (Table 03.4): its type, the raw two's complement value or binary32 pattern, the saturation mark of R95, and whether it
has been counted since it was cleared (R96). -/
structure Acc where
  kind : AccKind := .fp32
  raw : Int := 0
  sat : Bool := false
  counted : Bool := false
  deriving DecidableEq, Repr, Inhabited

/-- An address register (R150): value, INIT, STRIDE, and the operations whose advance of it is not yet known. -/
structure AReg where
  val : Nat := 0
  init : Nat := 0
  stride : Int := 0
  busy : Nat := 0
  deriving DecidableEq, Repr, Inhabited

/-- A plausibility bound (Table 05.6). -/
structure Bound where
  lo : Dword := 0
  hi : Dword := 0
  nanok : Bool := false
  infok : Bool := false
  satok : Bool := false
  maxout : Nat := 0
  deriving DecidableEq, Repr, Inhabited

/-- A remote-signal entry (Table 05.6). -/
structure Remote where
  channel : Nat := 0
  rtile : Nat := 0
  rcnt : Nat := 0
  deriving DecidableEq, Repr, Inhabited

/-- The effect tallies of R175: MOVEs, SYNC signals, waits satisfied, PACKs written, CODEC jobs, PERIOD marks. -/
structure Tally where
  moves : Nat := 0
  signals : Nat := 0
  waits : Nat := 0
  packs : Nat := 0
  codecs : Nat := 0
  periods : Nat := 0
  deriving DecidableEq, Repr, Inhabited

/-- An operation that a bundle has placed in a unit's queue: its issue number, bundle index, the bundle's dwords, and the
addresses its registers held at issue. -/
structure UOp where
  no : Nat := 0
  bundle : Nat := 0
  w : List Dword := []
  a1 : Nat := 0
  a2 : Nat := 0
  deriving DecidableEq, Repr, Inhabited

/-- One run of stored bytes that a MOVE still has to copy: source and destination device addresses, length. -/
structure Chunk where
  src : Nat := 0
  dst : Nat := 0
  len : Nat := 0
  deriving DecidableEq, Repr, Inhabited

/-- A MOVE that has started: the runs still under way, and the tile whose store receives the data (R169). -/
structure MoveOp where
  op : UOp := {}
  active : Nat := 0
  dest : Option Nat := none
  deriving DecidableEq, Repr, Inhabited

/-- An EXPAND that has started on a port (R160): the next block's address, its index, the byte offset in the slot, and of the tiles
whose copy of the block in hand is decoded (the tile itself and, under DUAL, its shadow) those whose copy waits to be fetched again, has
been (R29), was spoilt by an injected fault, and was spoilt by the expander's own fault; the slots that changed under the block; and how
often a fence has turned its reads away. -/
structure ExpOp where
  op : UOp := {}
  addr : Nat := 0
  blk : Nat := 0
  off : Nat := 0
  refetch : List Nat := []
  again : List Nat := []
  hit : List Nat := []
  spoilt : List Nat := []
  old : OldSlots := []
  tries : Nat := 0
  deriving DecidableEq, Repr, Inhabited

/-- A MAC that has started, and the next activation row whose result is due (R145, R146). -/
structure MacOp where
  op : UOp := {}
  row : Nat := 0
  deriving DecidableEq, Repr, Inhabited

/-- A word of a tile's array that holds an injected error (Table 12.7): in an operand slot at a byte offset, or (`slot` none) at an
accumulator's number. -/
structure BadWord where
  act : Bool := false
  slot : Option Nat := none
  off : Nat := 0
  kind : Nat := 0
  deriving DecidableEq, Repr, Inhabited

/-- A PACK that has read its rows (R162): the converted bytes, and one byte for each element; what its elements are (R179), whether it
is tested, where it first differs from the shadow's bytes under DUAL (R437), and whether the checker has passed it; then, once its output
has begun, the units (bytes, or elements of an unscaled FP6 stream) that are in no block yet, the bytes written, and how often a fence
has turned its writes away. -/
structure PackOp where
  op : UOp := {}
  bytes : List Byte := []
  elems : List Byte := []
  todo : Option (List (Byte × Bool)) := none
  len : Nat := 0
  tries : Nat := 0
  nans : Nat := 0
  infs : Nat := 0
  sats : Nat := 0
  outs : Nat := 0
  tested : Bool := false
  differs : Option Nat := none
  passed : Bool := false
  deriving DecidableEq, Repr, Inhabited

/-- What a CHECKPOINT saves (R175). -/
structure Checkpoint where
  pc : Nat := 0
  loops : List (Nat × Nat) := []
  regs : Tab AReg := []
  packNo : Nat := 0
  deriving DecidableEq, Repr, Inhabited

/-- Why a known-answer kernel runs (R439 to R443). -/
inductive KernelWhy where
  | background
  | command (ticket : Nat)
  | confirm
  deriving DecidableEq, Repr, Inhabited

/-- A known-answer kernel running on a tile, whether its first run failed (R441), what that run gave and whether it failed by itself, and
whether an injected fault acts on it. -/
structure KernelRun where
  k : Nat := 0
  why : KernelWhy := .background
  rerun : Bool := false
  firstCrc : Dword := 0
  firstReal : Bool := false
  forced : Bool := false
  idle : Bool := false
  deriving DecidableEq, Repr, Inhabited

/-- A reservation of a tile's multicast landing buffer (R249, R250). -/
structure Landing where
  src : Nat := 0
  sport : Nat := 0
  tag : Nat := 0
  part : Nat := 0
  sys : Bool := false
  off : Nat := 0
  total : Nat := 0
  got : List Nat := []
  data : Tab Byte := []
  pois : List Nat := []
  whole : Bool := false
  deriving DecidableEq, Repr, Inhabited

/-- A multicast between steps 1 and 6 of Table 07.11 at its sender: the granules, what has been read, the grants and
results by tile (REASON + 1; 0: none yet), whether MC_DATA has been sent, and the source runs as (offset, address, length). -/
structure McSend where
  tag : Nat := 0
  part : Nat := 0
  mask : BitVec 64 := 0
  off : Nat := 0
  total : Nat := 0
  op : UOp := {}
  data : Tab Byte := []
  pois : List Nat := []
  active : Nat := 0
  runs : List (Nat × Nat × Nat) := []
  grants : Tab Nat := []
  results : Tab Nat := []
  sent : Bool := false
  deriving DecidableEq, Repr, Inhabited

/-- An output that has failed (R434): its bundle, its incident, whether that was injected, and whether the shadow's copy differed. -/
structure OutFail where
  bundle : Nat := 0
  rec_ : LRec := {}
  injected : Bool := false
  dual : Bool := false
  deriving DecidableEq, Repr, Inhabited

/-- What a tile was doing as its run ended, for incidents of the same cycle (R452): the time, its MAC and PACK queues, its blocks in hand,
its PACK, and the replays of its window. -/
structure Late where
  time : Nat := 0
  maq : List UOp := []
  pq : List UOp := []
  exW : Option ExpOp := none
  exA : Option ExpOp := none
  pk : Option PackOp := none
  replays : Nat := 0
  deriving DecidableEq, Repr, Inhabited

/-- A tile (Tables 01.1 and 05.1).  `idle` and `idleAt`: the ACLK cycles that an IDLE bundle expects, and when it issued (R178); `ctries`:
how often a fence has turned the CODEC bundle's read away (R254); `cpTaken`: the gang has taken the checkpoint that this tile has still to issue (R175);
`lastFail` and `lastInj`: the window's last output failure and the last that was injected, each with how many there were (R434, R451,
R459); `failing`: the window's PACK, by its number in it, that an injected fault fails at every replay (Table 12.7); `due`: an output
that failed during a re-fetch (R40); `late`: R452; `packLens`: the bytes
that each PACK of the window wrote (R176); `sent`: the CODEC jobs of the window, by their number in it, whose end has sent the signal of
their bundle; `partials`: units of a block still to be filled, by stream, on contexts with PENDOK = 0. -/
structure Tile where
  owner : Option Nat := none
  prog : Option Nat := none
  gang : Nat := 0
  w : Tab OpSlot := []
  s : Tab OpSlot := []
  acc : Tab Acc := []
  bad : List BadWord := []
  bundles : List (List Dword) := []
  a : Tab AReg := []
  c : Tab Nat := []
  loops : List (Nat × Nat) := []
  streams : List (Nat × Nat) := []
  bounds : List Bound := []
  remotes : List Remote := []
  pc : Nat := 0
  issued : Nat := 0
  halted : Bool := false
  running : Bool := false
  mq : List UOp := []
  eq : List UOp := []
  maq : List UOp := []
  pq : List UOp := []
  mv : Option MoveOp := none
  exW : Option ExpOp := none
  exA : Option ExpOp := none
  mc : Option MacOp := none
  pk : Option PackOp := none
  frees : List (Nat × Bool × Nat) := []
  idle : Option Nat := none
  idleAt : Nat := 0
  ctries : Nat := 0
  cp : Checkpoint := {}
  cpTaken : Bool := false
  tally : Tally := {}
  goal : Option Tally := none
  replays : Nat := 0
  lastFail : Option (LRec × Nat) := none
  lastInj : Option (LRec × Nat) := none
  failing : Option Nat := none
  due : Option OutFail := none
  late : Option Late := none
  sent : List Nat := []
  packLens : List Nat := []
  partials : Tab (List Byte) := []
  packNo : Nat := 0
  kernel : Option KernelRun := none
  nextKernel : Nat := 0
  landing : Option Landing := none
  landq : List NocPkt := []
  send : Option McSend := none
  moveSrc : Tab Nat := []
  deriving DecidableEq, Repr, Inhabited

/-- The ending event of a run (R163, R183), with the time at which it came (R187), the unit whose counter of ended jobs it is (Table
12.2), and the token counter that an overflow names (R151), for which the result has no field. -/
structure RunEnd where
  status : Nat := 0
  at_ : Nat := 0
  unit : Nat := 0
  counter : Option Nat := none
  tile : Nat := 0
  tvalid : Bool := false
  err : Nat := 0
  slotk : Nat := 0
  bundle : Nat := 0
  deriving DecidableEq, Repr, Inhabited

/-- A program slot (R165, R354): its generation, and the loaded program with its image header, its run and its totals. -/
structure Prog where
  gen : Nat := 0
  loaded : Bool := false
  part : Nat := 0
  tilemask : BitVec 64 := 0
  wdlim : Nat := 0
  pen : Bool := false
  ptile : Nat := 0
  period : Nat := 0
  lead : Nat := 0
  icrc : Nat := 0
  power : List (Nat × Nat × Int) := []
  msets : List (BitVec 64) := []
  running : Bool := false
  ticket : Nat := 0
  mode : CheckMode := .off
  log2n : Nat := 0
  started : Nat := 0
  ending : Option RunEnd := none
  replays : Nat := 0
  refetch : Nat := 0
  poisoned : Nat := 0
  deriving DecidableEq, Repr, Inhabited

/-- A PROGRAM_LOAD that has replied ST_PENDING (R164). -/
structure LoadOp where
  ticket : Nat := 0
  part : Nat := 0
  addr : Nat := 0
  len : Nat := 0
  deriving DecidableEq, Repr, Inhabited

end Sys2Proof.Machine
end

