-- ==== Sys2Proof/Machine/TypesNet.lean ====
section
/-! DEFINITION. State of the on-chip network's requesters and domains (chapter 07) and of the Peloc Link ports (chapter 08). -/

namespace Sys2Proof.Machine

/-- What a requester's outstanding request is for. -/
inductive Purpose where
  | moveRead (tile : Nat) (c : Chunk)
  | moveWrite (tile : Nat)
  | tailRead (tile : Nat) (c : Chunk)
  | tailWrite (tile : Nat)
  | mcRead (tile : Nat) (c : Chunk) (at_ : Nat)
  | signal (tile bundle : Nat)
  | owl (records : List (List Dword))
  | pelocIn (port tx : Nat) (at_ : Nat)
  | system
  deriving DecidableEq, Repr, Inhabited

/-- A request that a requester has sent and that has no response yet (R242, R246, R254). -/
structure NocReq where
  pkt : NocPkt := {}
  why : Purpose := .system
  attempts : Nat := 0
  backoff : Option Nat := none
  deriving DecidableEq, Repr, Inhabited

/-- A link of the mesh or of a local port, as a packet crosses it: router, port (Table 14.1), direction and lane (R227). -/
structure Crossing where
  router : Nat := 0
  rport : Nat := 0
  toEndpoint : Bool := false
  lane : Bool := false
  deriving DecidableEq, Repr, Inhabited

/-- A packet, or on VN2 a copy of one, in an input buffer of a router (R236 to R238): its flits, the outputs that have taken it, on
how many of them it is still being sent, and the links that it has crossed. -/
structure Transit where
  id : Nat := 0
  k : NocPkt := {}
  d : Damage := {}
  flits : Nat := 1
  took : List Nat := []
  busy : Nat := 0
  path : List Crossing := []
  deriving DecidableEq, Repr, Inhabited

/-- A packet that is being sent over a link (R227, R239): the input buffer that it leaves, and the flits still to go. -/
structure Sending where
  link : Crossing := {}
  buf : Nat := 0
  id : Nat := 0
  left : Nat := 0
  deriving DecidableEq, Repr, Inhabited

/-- The routers of the mesh (R235 to R239).  `bufs` holds the input buffers by 4 × (8 × router + port) + virtual network, oldest packet
first, and `used` their flits in use, so that an output's credit is what they leave of 32; `lanes` the packets being sent; `last`, by
4 × (8 × router + port) + virtual network of an output, 1 + the input port that it served last; `turn` the outputs where VN2 is next
before VN0; `out` the packets that have reached their endpoints; `ids` numbers the packets that have entered; `cfg` holds what CFG_WR has
written at the endpoints, by 2^48 × (8 × router + local port) + address. -/
structure Mesh where
  bufs : Tab (List Transit) := []
  used : Tab Nat := []
  lanes : List Sending := []
  last : Tab Nat := []
  turn : Tab Bool := []
  out : List Transit := []
  ids : Nat := 0
  cfg : Tab (Option Byte) := []
  deriving DecidableEq, Repr, Inhabited

/-- A fenceable domain (R252, R253, R373): powered, fenced with its HINT as DOMAIN_OFF gave it and the time at which it did, and the
tickets of DOMAIN_OFF and DOMAIN_ON. -/
structure Domain where
  on : Bool := false
  fenced : Bool := false
  hint : Nat := 0
  since : Nat := 0
  offTk : Option Nat := none
  onTks : List Nat := []
  deriving DecidableEq, Repr, Inhabited

/-- States of a Peloc port (R276). -/
inductive PelState where
  | off | down | training | active | sleep
  deriving DecidableEq, Repr, Inhabited

/-- A link channel entry (Table 08.9). -/
structure Chan where
  valid : Bool := false
  owner : Nat := 0
  outen : Bool := false
  inen : Bool := false
  intile : Bool := false
  tokenok : Bool := false
  mcok : Bool := false
  inwin : Nat := 0
  deriving DecidableEq, Repr, Inhabited

/-- What was in force when the head flit of an inbound transaction was found good (R305, R310): its channel's binding, and the HINT of a
fence. -/
structure Gate where
  chan : Chan := {}
  fence : Option Nat := none
  deriving DecidableEq, Repr, Inhabited

/-- An inbound transaction whose last flit has not come yet: its bytes so far. -/
structure Asm where
  bytes : List Byte := []
  gate : Gate := {}
  deriving DecidableEq, Repr, Inhabited

/-- A Peloc transaction: the header of Table 08.6 and the payload.  `pmask` lists the poisoned 64-byte sectors; `gate` is what an inbound one
is checked against. -/
structure PelTx where
  ttype : Nat := 0
  lch : Nat := 0
  tag : Nat := 0
  len : Nat := 0
  status : Nat := 0
  addr : Nat := 0
  nmask : Nat := 0
  rtile : Nat := 0
  rcnt : Nat := 0
  rval : Nat := 0
  slast : Bool := false
  pmask : List Nat := []
  reason : Nat := 0
  hint : Nat := 0
  rsvd : Bool := false
  data : List Byte := []
  gate : Gate := {}
  deriving DecidableEq, Repr, Inhabited

/-- Who waits for the response of an outbound transaction: an on-chip requester, block `index` (of so many bytes, poisoned
or not) of LINK_PUSH `push`, or nobody any more. -/
inductive OutWhy where
  | chip (req : NocPkt)
  | push (push index bytes : Nat)
  | nobody
  deriving DecidableEq, Repr, Inhabited

/-- An outbound transaction that has no response yet (R289). -/
structure OutTx where
  live : Bool := false
  ttype : Nat := 0
  why : OutWhy := .nobody
  lch : Nat := 0
  deriving DecidableEq, Repr, Inhabited

/-- An inbound transaction whose on-chip requests are under way (R290, R292, R294); `owed` is the flits of its virtual channel's buffer that
it still holds (R287). -/
structure InTx where
  id : Nat := 0
  tx : PelTx := {}
  left : Nat := 0
  data : Tab Byte := []
  pois : List Nat := []
  status : Nat := 0
  hint : Nat := 0
  owed : Nat := 0
  deriving DecidableEq, Repr, Inhabited

/-- A LINK_PUSH in progress on a port (R293): its ticket, the source bytes left, the next block's index and peer address, the
blocks in flight, what has been acknowledged, the failed block, the blocks that carry poison, and how it ends. -/
structure PushOp where
  id : Nat := 0
  ticket : Nat := 0
  part : Nat := 0
  lch : Nat := 0
  src : Nat := 0
  left : Nat := 0
  dst : Nat := 0
  next : Nat := 0
  flying : Nat := 0
  pushed : Nat := 0
  bytes : Nat := 0
  failed : Option Nat := none
  poisoned : Nat := 0
  status : Nat := 0
  tries : Nat := 0
  deriving DecidableEq, Repr, Inhabited

/-- A link multicast held in a port's inbound buffer at a node (Table 08.17); `whole`: its landing has begun. -/
structure LmcBuf where
  group : Nat := 0
  total : Nat := 0
  data : Tab Byte := []
  pois : List Nat := []
  segs : List Nat := []
  last : Option Nat := none
  whole : Bool := false
  memFail : Bool := false
  deriving DecidableEq, Repr, Inhabited

/-- Configuration of a port (Table 08.10). -/
structure LinkCfg where
  wmin : Bool := true
  degauto : Bool := true
  recal : Bool := true
  tolink : Nat := 64
  sleepidle : Nat := 0
  symlim : Nat := 10000
  deriving DecidableEq, Repr, Inhabited

/-- A lane of a port: training and equalization results (R276, R282), faults (R298), the precoding asked for and the inversion corrected
(R263).  `from_` is the peer's lane that it hears; `heardC` and `heardS` are the control and status word of the last frame, `onC` and `onS`
those in effect, `ctl` and `sts` the words that this port sends on the lane (R279); `window` is the millisecond in which `symbols`
corrected symbols have been counted, and `before` the count of the one before (R276, R298). -/
structure Lane where
  seen : Bool := false
  locked : Bool := false
  failed : Bool := false
  inverted : Bool := false
  from_ : Nat := 0
  taps : List Int := [0, 0, 0]
  ready : Bool := false
  peerReady : Bool := false
  precode : Bool := false
  heardC : Option (BitVec 64) := none
  heardS : Option (BitVec 64) := none
  onC : Option (BitVec 64) := none
  onS : Option (BitVec 64) := none
  ctl : BitVec 64 := 0
  sts : BitVec 64 := 0
  window : Nat := 0
  symbols : Nat := 0
  before : Nat := 0
  deriving DecidableEq, Repr, Inhabited

/-- A Peloc Link port (chapter 08).  `step` is the training step T0 to T4, `wait` the WAIT of the LINK_TRAIN in ms.  `outq` and `ctlq` hold transactions and
link-control messages not yet sent, `held` on-chip requests that wait for a tag, and `wire` the flits that have been sent as their 256 bytes,
oldest first, with whether an injected fault struck one of its bits after the CRC.  `ackSent` and `crSent` are the ACK and the credit totals
that the last flits carried, `replaying` the SEQ from which a replay runs and the time at which it ends (R303); `reversed`: the lanes
have been found in reverse order and renumbered (R263). -/
structure Peloc where
  st : PelState := .off
  reason : Nat := 0
  txWidth : Nat := 0
  rxWidth : Nat := 0
  cfg : LinkCfg := {}
  live : LinkCfg := {}
  step : Nat := 0
  wait : Nat := 0
  trainTk : Option Nat := none
  frameLock : Bool := false
  lanes : Tab Lane := []
  reversed : Bool := false
  peer : List Byte := []
  txSeq : Nat := 0
  rxSeq : Nat := 0
  replay : List Flit := []
  nakSent : Bool := false
  replays : Nat := 0
  replaying : Option (Nat × Nat) := none
  ackSent : Nat := 0
  crSent : Tab Nat := []
  txCredit : Tab Nat := []
  txUsed : Tab Nat := []
  rxFreed : Tab Nat := []
  crTurn : Nat := 0
  vcTurn : Nat := 0
  asm : Tab (Option Asm) := []
  rx : List PelTx := []
  ctrl : List (List Byte) := []
  outq : List PelTx := []
  ctlq : List (List Byte) := []
  held : List NocPkt := []
  wire : List (List Byte × Bool) := []
  out : Tab OutTx := []
  inb : List InTx := []
  pushes : List PushOp := []
  lmc : Option LmcBuf := none
  send : Option McSend := none
  sleepReq : Bool := false
  waking : Bool := false
  degRx : Option (Nat × Nat) := none
  degTx : Option (Nat × Nat) := none
  recalTks : List Nat := []
  deriving DecidableEq, Repr, Inhabited

/-- One node's entry of a link multicast report (R278). -/
structure LmcEntry where
  tiles : BitVec 64 := 0
  reason : Nat := 0
  memok : Bool := false
  covered : Bool := false
  deriving DecidableEq, Repr, Inhabited

/-- The link multicast that a node takes part in (Table 08.17): at the root its ticket and source; at every node the child
ports on which grants came up, and, as node masks, the nodes that have granted, refused, and answered after the data; `ents`
gathers the root's report, `behind` the nodes heard through each child port, and `lost` those whose link has gone down (R308). -/
structure LmcRun where
  root : Bool := false
  ticket : Nat := 0
  src : Nat := 0
  total : Nat := 0
  granted : Nat := 0
  refused : Nat := 0
  answered : Nat := 0
  delivered : Nat := 0
  ports : List Nat := []
  dataSent : Bool := false
  ents : Tab LmcEntry := []
  behind : Tab Nat := []
  lost : Nat := 0
  deriving DecidableEq, Repr, Inhabited

/-- A link multicast group (Table 08.12a) with the root's report (R278) and the multicast in flight. -/
structure Group where
  valid : Bool := false
  root : Bool := false
  owner : Nat := 0
  lch : Nat := 0
  parent : Nat := 0
  node : Nat := 0
  mem : Bool := false
  child : Nat := 0
  subtree : Nat := 0
  toff : Nat := 0
  tiles : BitVec 64 := 0
  maddr : Nat := 0
  repExpected : Nat := 0
  repDelivered : Nat := 0
  repTotal : Nat := 0
  report : Tab LmcEntry := []
  run : Option LmcRun := none
  deriving DecidableEq, Repr, Inhabited

end Sys2Proof.Machine
end

