-- ==== Sys2Proof/Machine/TypesCtl.lean ====
section
/-! DEFINITION. State of Kestrel (chapter 13), the board inputs (chapter 16), the fault ledger, drain and self-test
(chapter 12), Owl (chapter 14), bring-up, the firmware patch and debug (chapters 15 and 16). -/

namespace Sys2Proof.Machine

/-- Loop modes, in the codes of R354: 0 OPEN-HOLD, 1 OPEN-SAFE, 2 TABLE, 3 CLOSED, 4 SAFE-FAULT. -/
inductive LoopMode where
  | openHold | openSafe | table | closed | safeFault
  deriving DecidableEq, Repr, Inhabited

/-- The state of one channel of a loop (R463, R475): Q1.15 integers throughout.  `uOld` and `u` are the outputs of the
last two samples, `hold` what OPEN-HOLD holds, `dcyc` the cycle at which the last voltage write completed. -/
structure LoopCh where
  xh : List Int := [0, 0, 0, 0, 0, 0]
  z : List Int := [0, 0]
  u : List Int := [0, 0]
  uOld : List Int := [0, 0]
  hold : List Int := [0, 0]
  v : List Int := [0, 0]
  y : List Int := [0, 0, 0]
  ff : Int := 0
  rc : Int := 0
  dcyc : Option Nat := none
  rEff : Int := 0
  satNow : Bool := false
  satRun : Nat := 0
  badRun : Nat := 0
  sum : Int := 0
  cnt : Nat := 0
  deriving DecidableEq, Repr, Inhabited

/-- A trace or injection in progress on a loop (R499, R500): where its records go, how many are asked for and done, the
injection point with its sequence, the whole range that it uses, and whether its first sample has begun. -/
structure LoopTrace where
  ticket : Nat := 0
  addr : Nat := 0
  samples : Nat := 0
  done : Nat := 0
  inject : Option (Nat × List Int) := none
  base : Nat := 0
  bytes : Nat := 0
  started : Bool := false
  zeroed : List Nat := []
  deriving DecidableEq, Repr, Inhabited

/-- A Kestrel loop: mode, coefficient memory (Table 13.4), channels, host set-point and limits (R482), repetitive memory
and the teacher it last learned from (R485 to R489), writes and mode requests waiting for a sample boundary.  `markDue`: a
period mark is on its way, `marked`: it has arrived, `markNow`: it took effect at the last sample; `y2` is the last read-back
(`none`: it failed); `forced`: forced throttling acted on the last sample. -/
structure KLoop where
  mode : LoopMode := .openSafe
  coef : Tab Int := []
  ch : Tab LoopCh := []
  sp : Int := 0
  lo : Int := 0
  hi : Int := 0
  m : Tab Int := []
  lastIcrc : Option (Nat × Nat) := none
  teacher : Option Nat := none
  phase : Nat := 0
  since : Nat := 0
  seen : Bool := false
  onTime : Nat := 0
  held : Bool := false
  markDue : Bool := false
  marked : Bool := false
  markNow : Bool := false
  pendCoef : List (Nat × List Int) := []
  pendMode : List (LoopMode × Cmd) := []
  suspended : Bool := false
  former : LoopMode := .openHold
  inMode : Nat := 0
  divCount : Nat := 0
  avsFails : Nat := 0
  y2 : Option Int := some 0
  forced : Bool := false
  lastMv : Option Nat := none
  noWrite : Bool := false
  trace : Option LoopTrace := none
  droop : Bool := false
  deriving DecidableEq, Repr, Inhabited

/-- What an AVSBus frame does (R465, R585): a loop's voltage write, or a partner's access (R498). -/
inductive AvsWhat where
  | write (mv : Nat) (retried : Bool)
  | readback
  | partner (op mv : Nat) (cmd : Cmd)
  deriving DecidableEq, Repr, Inhabited

/-- An AVSBus: the frame in progress with its starting cycle, whether a voltage write of the sample waits that can no longer start
in time (R477), whether the sample's current read-back is still to come, and the partner accesses that wait. -/
structure AvsBus where
  frame : Option (AvsWhat × Nat) := none
  late : Bool := false
  readDue : Bool := false
  queue : List (Nat × Nat × Cmd) := []
  deriving DecidableEq, Repr, Inhabited

/-- A tachometer (R589 to R592): the times of the latest edges, newest first, the estimate A, and the flags. -/
structure Tach where
  edges : List Nat := []
  est : Nat := 0
  still : Bool := true
  fast : Bool := false
  stuck : Bool := false
  deriving DecidableEq, Repr, Inhabited

/-- ACLK by the root clock (R464, R537): the cycles that have passed, and the root-clock time since the last, in 2^−15 of a cycle. -/
structure Aclk where
  cycles : Nat := 0
  rest : Nat := 0
  deriving DecidableEq, Repr, Inhabited

/-- The alert inputs, tachometers and FAN_PWM (R586 to R593), forced throttling by the sensors (R495, R618, R619), and
when each THERMAL record source wrote last (R588). -/
structure Board where
  therm : Bool := false
  pwr : Bool := false
  thermSince : Nat := 0
  pwrSince : Nat := 0
  thermStuck : Bool := false
  pwrStuck : Bool := false
  tach : Tab Tach := []
  duty : Nat := 1000
  dutyNext : Nat := 1000
  dutySince : Option Nat := some 0
  hot : Bool := false
  critical : Bool := false
  coolSince : Option Nat := none
  hottest : Int := 0
  temps : List (Option Int) := []
  lastRecord : Tab (Option Nat) := []
  stretch : Int := 16384
  deriving DecidableEq, Repr, Inhabited

/-- The fault ledger, the only state that survives power-down (R2, R425): records by slot, the used slots in the order in
which they were written, oldest first, and POWERUPS. -/
structure Ledger where
  recs : Tab LRec := []
  order : List Nat := []
  powerups : Nat := 0
  deriving DecidableEq, Repr, Inhabited

/-- Device state (Table 12.12). -/
inductive DState where
  | running | draining | retired
  deriving DecidableEq, Repr, Inhabited

/-- A confirmation that is due or running (R443, R627): the tile and the incident that it judges, whether it runs, whether the
incident was injected, the kernel runs left as 32 × tile + kernel, the units whose kernel failed twice with the kernel's number and its
output's CRC-32C, and the unit of the first kernel that failed once with its number. -/
structure Confirm where
  tile : Nat := 0
  incident : LRec := {}
  running : Bool := false
  forced : Bool := false
  left : List Nat := []
  twice : List (Nat × Nat × Dword) := []
  once : Option (Nat × Nat × Dword) := none
  made : List (Nat × Nat × Dword) := []
  deriving DecidableEq, Repr, Inhabited

/-- Drain, self-test, injection and incident state (chapter 12).  `queue` holds the ledger records whose writes are due in
verdict order; `dropped` the TRANSIENT incidents of this power-up that a full ledger did not record, as (unit, time); `inject`
the injections not yet made, as (unit, kind, count); `latent` those that
wait in memory words, as (device address, kind); `corr` the corrected errors of each unit within the last hour, newest first, as (time,
injected); `corrHour` and `corrInj` the times of a unit's last CORR_RATE incident and of its last injected one. -/
structure Integ where
  dstate : DState := .running
  drainSuspect : Bool := false
  drainUnit : Nat := 0
  drainSlot : Option Nat := none
  drainTk : Option Nat := none
  drainStart : Nat := 0
  drainOver : Bool := false
  deadline : Nat := 10000
  queue : List LRec := []
  dropped : List (Nat × Nat) := []
  selfEn : Bool := false
  selfMask : Nat := 0
  rotate : Nat := 0
  confirms : List Confirm := []
  inject : List (Nat × Nat × Nat) := []
  latent : List (Nat × Nat) := []
  corr : Tab (List (Nat × Bool)) := []
  corrHour : Tab (Option Nat) := []
  corrInj : Tab (Option Nat) := []
  deriving DecidableEq, Repr, Inhabited

/-- An Owl probe (Table 14.1). -/
structure Probe where
  router : Nat := 0
  rport : Nat := 0
  mode : Nat := 0
  pmatch : BitVec 64 := 0
  mask : BitVec 64 := 0
  count : Nat := 0
  deriving DecidableEq, Repr, Inhabited

/-- Owl (chapter 14): probes, probe settings that wait for a fence to be lowered (R528), trace configuration, status, and
the records in the record buffer and on their way. -/
structure Owl where
  probes : Tab Probe := []
  waiting : Tab (Option Probe) := []
  base : Option Nat := none
  size : Nat := 0x400000
  wrap : Bool := true
  off : Nat := 0
  sent : Nat := 0
  running : Bool := false
  stopping : Bool := false
  wrapped : Bool := false
  full : Bool := false
  lost : Nat := 0
  buf : List (List Dword) := []
  lossCount : Nat := 0
  lossTime : Nat := 0
  lossWerr : Bool := false
  lapDue : Bool := false
  deriving DecidableEq, Repr, Inhabited

/-- Pins, straps, clocks and bring-up (chapter 15).  `stage` is the stage that runs or was reached; `s3done`: S3 has ended and the
firmware of S4 starts. -/
structure Bring where
  pwrok : Bool := true
  sysrst : Bool := false
  perst : Bool := false
  inReset : Bool := false
  strapBif : Nat := 0
  strapAddr : Nat := 0
  dbgoff : Bool := false
  pll : Bool := false
  stage : Nat := 1
  failStage : Nat := 0
  failCause : Nat := 0
  ends : List Nat := [0, 0, 0, 0]
  trained : Nat := 0
  failed : Nat := 0
  s3done : Bool := false
  deriving DecidableEq, Repr, Inhabited

/-- Firmware patch and debug unlock (R349, R542, R552, R582, R583). -/
structure Fw where
  patch : Option (Nat × Nat) := none
  rejected : Bool := false
  loadTk : Option Nat := none
  loadAddr : Nat := 0
  loadLen : Nat := 0
  removeTk : Option Nat := none
  nonce : Option (List Byte) := none
  nonceTime : Nat := 0
  unlocked : Bool := false
  fails : Nat := 0
  deriving DecidableEq, Repr, Inhabited

end Sys2Proof.Machine
end

