-- ==== Sys2Proof/Machine/RomDefaults.lean ====
section
/-! DEFINITION. What the mask ROM gives Kestrel's loops at a cold or system reset (R473). -/

namespace Sys2Proof.Machine

/-- The ROM defaults of a loop's coefficient memory (R473), by loop number; `mv` is the regulator voltage read back. -/
def romCoef (loop mv : Nat) : Tab Int :=
  if loop < 5 then
    (if 16 * mv = 0 then
      [(0x000, 0x20), (0x004, 160), (0x005, 160), (0x008, 32767), (0x009, 32767), (0x00B, 16384), (0x015, 100)]
     else
      [(0x000, 0x20), (0x004, 160), (0x005, 160), (0x008, 32767), (0x009, 32767), (0x00A, (16 * mv : Nat)), (0x00B, 16384),
       (0x015, 100)])
  else
    [(0x004, 160), (0x005, 160), (0x008, 32767), (0x009, 32767), (0x00A, 32767), (0x015, 100)]

/-- A loop right after reset release: OPEN-SAFE with ROM defaults (R473), its outputs at USAFE (assumption 6). -/
def resetLoop (n : Nat) : KLoop :=
  { coef := romCoef n 0
    ch := if n < 5 then [(0, { u := [0, 16384], uOld := [0, 16384], hold := [0, 16384] })]
      else [(0, { u := [32767, 0], uOld := [32767, 0], hold := [32767, 0] })] ++
        (if n = 5 then [(1, { u := [32767, 0], uOld := [32767, 0], hold := [32767, 0] }),
          (2, { u := [32767, 0], uOld := [32767, 0], hold := [32767, 0] }),
          (3, { u := [32767, 0], uOld := [32767, 0], hold := [32767, 0] })] else []) }

end Sys2Proof.Machine
end

