-- ==== Sys2Proof/Machine/State.lean ====
section
/-! DEFINITION. The state of the AK520 as plain data, its value right after reset release, and the reasons a step may stop. -/

namespace Sys2Proof.Machine

/-- Everything the spec gives the block, and the queue of commands that are waiting. -/
structure State where
  /-- Commands that wait, first in first out. -/
  pending : List Instr := []
  /-- The 64-bit TCLK timebase (R521). -/
  timebase : Nat := 0
  /-- ACLK's cycles, stretched as they are (R464). -/
  aclk : Aclk := {}
  /-- The model's own: the number of free values drawn so far (assumption 3). -/
  freeCtr : Nat := 0
  /-- Pins, straps, clocks and bring-up (chapter 15). -/
  bring : Bring := {}
  /-- The counters of Tables 12.2, 13.7, 14.7 and 16.8, keyed by CID × 65,536 + INST. -/
  cnt : Tab Nat := []
  /-- The command ports P0 to P3 (R311). -/
  ports : Tab Port := []
  /-- Queue pairs by owner identity: 64 × port + number (R387). -/
  qps : Tab Qp := []
  /-- The mailboxes of P2 and P3 (R325). -/
  mbx : Tab Mbx := []
  /-- Commands in progress, oldest first (R331). -/
  cmds : List Cmd := []
  /-- The model's own: the next command, read, job and transaction numbers. -/
  nextId : Nat := 0
  /-- Whose turn it is at the front ends and the command processor (R312). -/
  rota : Rota := {}
  /-- Host-memory reads outstanding (R574). -/
  hostReads : List HostRead := []
  /-- Writes made to host memory, oldest first. -/
  hostOut : List HostWrite := []
  /-- Completions returned to the host, oldest first. -/
  cplOut : List CplOut := []
  /-- The PCI Express functions (R573). -/
  fns : Tab PcieFn := []
  /-- The P2 target (R577). -/
  p2 : P2St := {}
  /-- The test access port (R568). -/
  tap : TapSt := {}
  /-- The 4,096 result slots (R315). -/
  slots : Tab RSlot := []
  /-- The 64 partitions (R385). -/
  parts : Tab Part := []
  /-- The 256 locks (R388). -/
  locks : Tab Lock := []
  /-- The open sequences by owner identity (R399). -/
  seqs : Tab Seq := []
  /-- The 16 buffer pools (R389). -/
  pools : Tab Pool := []
  /-- Device memory by device address (Table 06.2): HBM, Loam and tile stores. -/
  mem : List Host.Cell := []
  /-- Poisoned 32-byte sectors, by device address ÷ 32 (R208, R420). -/
  poison : List Nat := []
  /-- Poisoned 2 MiB pages of host and peer memory, by device page (R215). -/
  pagePoison : Tab PageMark := []
  /-- Windows by 16 × partition + number (R195). -/
  windows : Tab Window := []
  /-- The host spill region (R212). -/
  hostSpill : Option SpillRange := none
  /-- The peer spill range of each Peloc port (R213). -/
  peerSpill : Tab SpillRange := []
  /-- BAR2 segment registers by 16 × function + segment (R199). -/
  segs : Tab Seg := []
  /-- Stream contexts (R113). -/
  ctxs : Tab Ctx := []
  /-- The stream context manager (R110 to R112). -/
  cm : CtxMgr := {}
  /-- The 256 static code-table slots (R118). -/
  sslots : Tab StaticSlot := []
  /-- Codec jobs queued and running, in acceptance order (R120). -/
  jobs : List Job := []
  /-- The 8 codec engines (R121). -/
  engines : Tab Engine := []
  /-- The 64 program slots (R354). -/
  progs : Tab Prog := []
  /-- PROGRAM_LOADs in progress (R164). -/
  loads : List LoadOp := []
  /-- The 64 tiles (R143). -/
  tiles : Tab Tile := []
  /-- Packets that their endpoints have sent and that no router has taken yet, oldest first, with the damage that an injected fault has
  done to each (R238, Table 12.7). -/
  flights : List (NocPkt × Damage) := []
  /-- The routers' buffers, lanes and arbiters, and the packets that have reached their endpoints (R235 to R239). -/
  mesh : Mesh := {}
  /-- Requests outstanding at their requesters (R242, R246). -/
  reqs : List NocReq := []
  /-- Requests that wait at their requester for a free tag, oldest first (R242). -/
  netq : List (NocPkt × Purpose) := []
  /-- The fenceable domains by domain code (R252, R354). -/
  doms : Tab Domain := []
  /-- The 16 Peloc ports (chapter 08). -/
  pel : Tab Peloc := []
  /-- The 256 link channels (R265). -/
  chans : Tab Chan := []
  /-- The 64 link multicast groups (R277). -/
  groups : Tab Group := []
  /-- Kestrel's loops L0 to L7 (R462). -/
  loops : Tab KLoop := []
  /-- AVSBuses 0 to 4 (R465). -/
  avs : Tab AvsBus := []
  /-- Inner samples since Kestrel started (R474). -/
  samples : Nat := 0
  /-- Alert inputs, tachometers, FAN_PWM and forced throttling (chapter 16). -/
  board : Board := {}
  /-- The fault ledger (R425). -/
  ledger : Ledger := {}
  /-- Drain, self-test and incident state (chapter 12). -/
  integ : Integ := {}
  /-- Owl (chapter 14). -/
  owl : Owl := {}
  /-- Firmware patch and debug unlock (chapters 15 and 16). -/
  fw : Fw := {}
  deriving DecidableEq, Repr, Inhabited

/-- Reasons a step would stop with a fault. -/
inductive Fault where
  /-- Operation beyond the absolute maximum ratings, where the spec gives the part no behaviour at all (R607).  No command of
  the table reports it, so nobody raises it.  Safe. -/
  | beyondRatings
  deriving DecidableEq, Repr

/-- Reasons a step would be refused. -/
inductive Refusal where
  /-- A command whose meaning has not been written: raised by its arm of exec alone.  Safe. -/
  | notModelled (mnemonic : String)
  deriving DecidableEq, Repr

/-- The device at the moment of reset release (R539): stage S1 runs, nothing is configured, memory reads as zero (R200), and
the fault ledger is `led`.  Straps as sampled. -/
def State.released (led : Ledger) (strapBif strapAddr : Nat) (dbgoff : Bool) : State :=
  { bring := { strapBif := strapBif, strapAddr := strapAddr, dbgoff := dbgoff }
    ports := [(0, { admin := true }), (2, { admin := true })]
    loops := [(0, resetLoop 0), (1, resetLoop 1), (2, resetLoop 2), (3, resetLoop 3), (4, resetLoop 4), (5, resetLoop 5),
      (6, resetLoop 6), (7, resetLoop 7)]
    ledger := led }

/-- The machine right after reset: a new part's first reset release, with every strap sampled 0 (assumption 5). -/
def State.reset : State := State.released {} 0 0 false

end Sys2Proof.Machine
end

