-- ==== Sys2Proof/Machine/Basics.lean ====
section
/-! DEFINITION. Free values, ports and views, attention, and counters with their thresholds (R15, R320, R336, R337, R360). -/

namespace Sys2Proof.Machine

/-! ### Free values -/

/-- A free value below `n` (assumption 3). -/
def freeBelow (s : State) (n : Nat) : Nat := (Config.freeValue s.freeCtr).toNat % n

/-- The next free value is another one. -/
def drawFree (s : State) : State := { s with freeCtr := s.freeCtr + 1 }

/-- A number nothing else has: commands, reads, jobs and transactions are told apart by it. -/
def takeId (s : State) : State := { s with nextId := s.nextId + 1 }

/-! ### Ports and views -/

/-- P1 exists only with the x8 + x8 strap (R311). -/
def portExists (s : State) (p : Nat) : Bool := decide (p < 4) && (p != 1 || s.bring.strapBif == 1)

/-- The port that a carrier belongs to (Table 11.3). -/
def portOf (c : Nat) : Nat := c / 64

/-- A carrier that is a queue pair and not a mailbox. -/
def isQp (c : Nat) : Bool := decide (c < 128)

/-- The partition a carrier is bound to; a mailbox and QP0 are unbound (R314). -/
def boundPart (s : State) (c : Nat) : Option Nat := if isQp c then (tget s.qps c).bound else none

/-- A port holds ADMIN privilege (R313). -/
def isAdmin (s : State) (p : Nat) : Bool := (tget s.ports p).admin

/-- A partition is bound to a port (R393). -/
def boundToPort (s : State) (part p : Nat) : Bool :=
  (p == 1 && (tget s.parts part).bind1) || (p == 3 && (tget s.parts part).bind3)

/-- The partition exists (R385). -/
def partExists (s : State) (part : Nat) : Bool := decide ((tget s.parts part).state ≠ .absent)

/-- Which views an event enters (R320, R337). -/
inductive Scope where
  | all
  | admin
  | parts (ps : List Nat)
  | result (port : Nat) (ps : List Nat)

/-- Whether an event of a scope enters the port view of port `p`. -/
def entersPort (s : State) (sc : Scope) (p : Nat) : Bool :=
  match sc with
  | .all => true
  | .admin => isAdmin s p
  | .parts ps => isAdmin s p || ps.any (fun q => boundToPort s q p)
  | .result port ps => port == p && (isAdmin s p || ps.any (fun q => boundToPort s q p))

/-- Whether it enters the view of a queue pair of port `p` that is bound to partition `b`. -/
def entersBound (sc : Scope) (p b : Nat) : Bool :=
  match sc with
  | .all => true
  | .admin => false
  | .parts ps => ps.contains b
  | .result port ps => port == p && ps.contains b

/-- Set a bit of a view with its LASTSEQ (R336). -/
def View.raise (v : View) (b e : Nat) : View := { v with bits := tset v.bits b { isSet := true, last := e } }

/-- The view of a queue pair that an event of scope `sc` enters. -/
def qpEnters (sc : Scope) (p c : Nat) (q : Qp) : Bool :=
  q.live && portOf c == p && (match q.bound with | some b => entersBound sc p b | none => false)

/-- An event of attention bit `b` reaches one port (R336): ESEQ advances if any of its views takes it. -/
def raisePort (s : State) (b : Nat) (sc : Scope) (p : Nat) : State :=
  let pv := entersPort s sc p
  let qv := s.qps.any (fun e => qpEnters sc p e.1 e.2)
  if portExists s p && (pv || qv) then
    let po := tget s.ports p
    let e := (po.eseq + 1) % 2 ^ 32
    { s with
      ports := tset s.ports p { po with eseq := e, view := if pv then po.view.raise b e else po.view }
      qps := s.qps.map (fun x => (x.1, if qpEnters sc p x.1 x.2 then { x.2 with view := x.2.view.raise b e } else x.2)) }
  else s

/-- An event of attention bit `b` enters every view of its scope (R320, R336, R337). -/
def raise (b : Nat) (sc : Scope) (s : State) : State :=
  raisePort (raisePort (raisePort (raisePort s b sc 0) b sc 1) b sc 2) b sc 3

/-- ATTN_COUNTER in one view only: the one that set the threshold (R360). -/
def raiseOwn (s : State) (p : Nat) (qp : Option Nat) : State :=
  let po := tget s.ports p
  let e := (po.eseq + 1) % 2 ^ 32
  match qp with
  | none => { s with ports := tset s.ports p { po with eseq := e, view := po.view.raise attnCounter e } }
  | some c =>
    { s with
      ports := tset s.ports p { po with eseq := e }
      qps := tmod s.qps c (fun q => { q with view := q.view.raise attnCounter e }) }

/-! ### Counters (R15, R423) -/

/-- The key of a counter. -/
def cntKey (cid inst : Nat) : Nat := cid * 65536 + inst

/-- A counter's value; an Owl probe's counter shows the probe's COUNT (R518). -/
def counter (s : State) (cid inst : Nat) : Nat :=
  if 0x0E10 ≤ cid ∧ cid < 0x0E20 then min (tget s.owl.probes (cid - 0x0E10)).count 0xFFFFFFFF
  else tget s.cnt (cntKey cid inst)

/-- A view's threshold on a counter is passed on the way from `old` to `new` (R360). -/
def View.passes (v : View) (cid inst old new : Nat) : Bool :=
  v.thr.any (fun t => t.2.en && t.2.cid == cid && t.2.inst == inst && decide (old < t.2.value) && decide (t.2.value ≤ new))

/-- The attention that a counter's rise from `old` to `new` causes, over the ports and the queue pairs (R360). -/
def fireThresholds (s : State) (cid inst old new : Nat) : State :=
  let s1 := [0, 1, 2, 3].foldl
    (fun x p => if (tget s.ports p).view.passes cid inst old new then raiseOwn x p none else x) s
  s.qps.foldl (fun x e => if e.2.view.passes cid inst old new then raiseOwn x (portOf e.1) (some e.1) else x) s1

/-- Add `n` to a counter, which saturates at 0xFFFFFFFF, and raise what thresholds ask for (R15, R360). -/
def bumpBy (cid inst n : Nat) (s : State) : State :=
  let old := tget s.cnt (cntKey cid inst)
  let new := min (old + n) 0xFFFFFFFF
  fireThresholds { s with cnt := tset s.cnt (cntKey cid inst) new } cid inst old new

/-- Add 1 to a counter. -/
def bump (cid inst : Nat) (s : State) : State := bumpBy cid inst 1 s

/-! ### Unit identifiers (R25, Table 01.3) -/

/-- The unit identifier of member `n` of a class. -/
def unitId (cls n : Nat) : Nat := cls * 256 + n

end Sys2Proof.Machine
end

