-- ==== Sys2Proof/Machine/Places.lean ====
section
/-! DEFINITION. Where things are: the device address map, the domains, and the units on the routers (Tables 06.2 and 07.1). -/

namespace Sys2Proof.Machine

/-! ### The device address map (Table 06.2, R192) -/

/-- The levels that a device address can name. -/
inductive Level where
  | hbm
  | loam
  | tile (n : Nat)
  | host
  | peer (port : Nat)
  | nothing
  deriving DecidableEq, Repr

/-- Bytes of HBM: 288 GiB. -/
def hbmSize : Nat := 0x4800000000
/-- The first Loam address. -/
def loamBase : Nat := 0x8000000000
/-- Bytes of the Loam: 128 MiB. -/
def loamSize : Nat := 0x8000000
/-- The first tile-store address. -/
def tileBase : Nat := 0x8100000000
/-- Bytes of one tile store (R194). -/
def storeSize : Nat := 0x180000
/-- The first address of the host spill region. -/
def hostBase : Nat := 0x10000000000
/-- The first address of port 0's peer region. -/
def peerBase : Nat := 0x20000000000
/-- A page of windows: 2 MiB. -/
def pageSize : Nat := 0x200000

/-- The level of a device address (R192, R194). -/
def levelOf (a : Nat) : Level :=
  if a < hbmSize then .hbm
  else if loamBase ≤ a ∧ a < loamBase + loamSize then .loam
  else if tileBase ≤ a ∧ a < tileBase + 64 * pageSize then
    if (a - tileBase) % pageSize < storeSize then .tile ((a - tileBase) / pageSize) else .nothing
  else if hostBase ≤ a ∧ a < peerBase then .host
  else if peerBase ≤ a ∧ a < peerBase + 16 * hostBase then .peer ((a - peerBase) / hostBase)
  else .nothing

/-- Memory on the device: HBM, the Loam or a tile store. -/
def Level.onChip : Level → Bool
  | .hbm | .loam | .tile _ => true
  | _ => false

/-- The whole range [a, a + n) lies in one level that exists. -/
def sameLevel (a n : Nat) : Bool :=
  decide (levelOf a ≠ .nothing) && (n == 0 || decide (levelOf (a + n - 1) = levelOf a))

/-- The HBM stack of a device address (R198). -/
def stackOf (a : Nat) : Nat := a / 256 % 8
/-- The HBM channel within its stack (R198). -/
def channelOf (a : Nat) : Nat := a / 256 / 8 % 32
/-- The pseudo-channel within its channel, and the location within that (R198). -/
def pseudoOf (a : Nat) : Nat × Nat := (a / 256 / 256 % 2, a / 256 / 512 * 256 + a % 256)
/-- The Loam bank of an offset (R197). -/
def bankOf (o : Nat) : Nat := o / 512 % 32

/-- The unit that holds a byte of device memory (Table 01.3). -/
def memUnit (a : Nat) : Nat :=
  match levelOf a with
  | .hbm => unitId 0x07 (stackOf a)
  | .loam => unitId 0x06 (bankOf (a - loamBase))
  | .tile n => unitId 0x04 n
  | _ => 0

/-- The quadrant of a tile (R22). -/
def quadOf (t : Nat) : Nat := 2 * (t / 32) + (t % 8) / 4

/-- The device address of an offset in a tile's store (R194). -/
def storeAddr (t off : Nat) : Nat := tileBase + t * pageSize + off

/-- The HINT of a fence: the µs until the domain is scheduled to accept requests again, as DOMAIN_OFF gave them less the time that has
passed since; 0xFFFF says that no return is scheduled (R253; the timebase counts 100 MHz, R521). -/
def Domain.hintNow (d : Domain) (now : Nat) : Nat := if d.hint = 0xFFFF then 0xFFFF else d.hint - (now - d.since) / 100

/-- A domain (R354) is fenced: its HINT. -/
def fenceOf (s : State) (dom : Nat) : Option Nat :=
  let d := tget s.doms dom
  if d.fenced then some (d.hintNow s.timebase) else none

/-- The HINT of the fence that stands before a device address, if its domain is fenced (R253). -/
def fenceAt (s : State) (a : Nat) : Option Nat :=
  match levelOf a with
  | .tile n => fenceOf s (quadOf n)
  | .peer p => fenceOf s (0x10 + p)
  | _ => none

/-! ### Places (R23, R228, Table 07.1) -/

/-- The router of a tile. -/
def tileRouter (t : Nat) : Nat := 10 * (t / 8) + t % 8 + 11

/-- The tile of a router, if it is a tile router. -/
def routerTile (r : Nat) : Option Nat :=
  let x := r % 10
  let y := r / 10
  if 1 ≤ x ∧ x ≤ 8 ∧ 1 ≤ y ∧ y ≤ 8 then some (8 * (y - 1) + (x - 1)) else none

/-- The index of side router m. -/
def sideRouter (m : Nat) : Nat :=
  let i := m % 8
  match m / 8 with
  | 0 => 1 + i
  | 1 => 10 * (1 + i) + 9
  | 2 => 90 + (8 - i)
  | _ => 10 * (8 - i)

/-- The side router of a Peloc port, at local port 2. -/
def pelocRouter (p : Nat) : Nat := sideRouter (2 * p)

/-- The Peloc port at a router's local port 2. -/
def routerPeloc (r : Nat) : Option Nat := (List.range 16).find? (fun p => pelocRouter p == r)

/-- The router of a codec engine, at its local port 3 (Table 07.1: engine 2k + (i − 1) / 4 at position i = 1 or 5 of side k). -/
def engineRouter (j : Nat) : Nat := sideRouter (8 * (j / 2) + 1 + 4 * (j % 2))

/-- The stream context manager's router and local port. -/
def ctxPlace : Nat × Nat := (9, 1)

/-- Kestrel's router. -/
def kestrelRouter : Nat := 90

/-- Owl's router. -/
def owlRouter : Nat := 99
/-- The host interface's router. -/
def hostRouter : Nat := 0
/-- The command processor's router. -/
def procRouter : Nat := 9

/-- The number of local ports that a router has (Table 07.1). -/
def localPort (r q : Nat) : Bool :=
  match routerTile r with
  | some _ => q == 0
  | none =>
    if r = 0 ∨ r = 90 ∨ r = 99 then q == 0
    else if r = 9 then decide (q ≤ 1)
    else
      let m := ((List.range 32).find? (fun m => sideRouter m == r)).getD 0
      decide (q ≤ 1) || (q == 2 && m % 2 == 0) || (q == 3 && (m % 8 == 1 || m % 8 == 5))

/-- The router and local port that serve a device address (R197, R198, R240). -/
def placeOf (a : Nat) : Nat × Nat :=
  match levelOf a with
  | .hbm => (sideRouter (4 * stackOf a + channelOf a / 8), 1)
  | .loam => (sideRouter (bankOf (a - loamBase)), 0)
  | .tile t => (tileRouter t, 0)
  | .peer p => (pelocRouter p, 2)
  | _ => (hostRouter, 0)

/-- The boundary of the largest request at a device address (Table 07.8). -/
def boundaryOf (a : Nat) : Nat :=
  match levelOf a with
  | .hbm => 256
  | .loam => 512
  | _ => 4096

end Sys2Proof.Machine
end

