-- ==== Sys2Proof/Machine/Mesh.lean ====
section
/-! DEFINITION. The mesh: its packets as flits and headers (R229 to R231), routing (R236, R237), credits, arbitration and the lanes
(R227, R235, R238, R239, R262).  One cycle moves one flit on every busy lane; its length in time is out of the model. -/

namespace Sys2Proof.Machine

/-! ### Packet types and the header (Tables 07.3 and 07.5) -/

/-- The packet types that Table 07.5 assigns. -/
def typeAssigned (t : Nat) : Bool := [0x01, 0x02, 0x03, 0x04, 0x05, 0x08, 0x09, 0x0A, 0x0B, 0x0C, 0x10, 0x11, 0x12, 0x13].contains t

/-- The virtual network of a packet type (R229). -/
def vnOf (t : Nat) : Nat := if t < 0x08 then 0 else if t < 0x10 then 1 else 2

/-- A header that its destination discards: a reserved type or virtual network, a type on another's virtual network, a reserved
field that is not 0 (R229, R232, R245). -/
def badHeader (k : NocPkt) : Bool := !typeAssigned k.typ || k.vn != vnOf k.typ || k.rsvd != 0

/-- A field that a packet's type uses; one that it does not use is 0 (R231). -/
def usedBy (ts : List Nat) (t v : Nat) : Nat := if ts.contains t then v else 0

/-- A packet with the fields that its type does not use at 0 (R231). -/
def plainPkt (k : NocPkt) : NocPkt :=
  { k with
    dest := if k.vn = 2 then 0 else k.dest, dport := if k.vn = 2 then 0 else k.dport
    len := usedBy [0x01, 0x02, 0x04, 0x05, 0x08, 0x10, 0x11] k.typ k.len
    addr := usedBy [0x01, 0x02, 0x04, 0x05, 0x10, 0x11] k.typ k.addr
    status := usedBy [0x0A] k.typ k.status, hint := usedBy [0x0A] k.typ k.hint
    mask := if k.vn = 2 then k.mask else 0
    reason := usedBy [0x0B, 0x0C] k.typ k.reason
    tcnt := usedBy [0x03, 0x13] k.typ k.tcnt, tval := usedBy [0x03, 0x13] k.typ k.tval
    mtotal := usedBy [0x10] k.typ k.mtotal }

/-- Bits of the reserved header bits: `n` of them from the `lo`-th (DW0 [7] is the first, DW7 [31] the last). -/
def rsvdAt (k : NocPkt) (lo n : Nat) : Nat := k.rsvd / 2 ^ lo % 2 ^ n

/-- Header DW0. -/
def nocH0 (k : NocPkt) : Nat :=
  k.typ % 2 ^ 5 + 2 ^ 5 * (k.vn % 2 ^ 2) + 2 ^ 7 * rsvdAt k 0 1 + 2 ^ 8 * (k.dest % 2 ^ 7) + 2 ^ 15 * (k.dport % 2 ^ 3) +
  2 ^ 18 * (k.src % 2 ^ 7) + 2 ^ 25 * (k.sport % 2 ^ 3) + 2 ^ 28 * rsvdAt k 1 4

/-- Header DW1. -/
def nocH1 (k : NocPkt) : Nat :=
  k.part % 2 ^ 6 + 2 ^ 6 * b2n k.sys + 2 ^ 7 * rsvdAt k 5 1 + 2 ^ 8 * (k.tag % 2 ^ 12) + 2 ^ 20 * (k.len % 2 ^ 9) + 2 ^ 29 * rsvdAt k 6 3

/-- The 8 dwords of the header (Table 07.3). -/
def nocHeader (k : NocPkt) : List Dword :=
  [dw (nocH0 k), dw (nocH1 k), dw k.addr, dw (k.addr / 2 ^ 32 % 2 ^ 16 + 2 ^ 16 * rsvdAt k 9 16),
   dw (k.status % 2 ^ 16 + 2 ^ 16 * (k.hint % 2 ^ 16)), dw k.mask.toNat, dw (k.mask.toNat / 2 ^ 32),
   dw (k.reason % 2 ^ 4 + 2 ^ 4 * (k.tcnt % 2 ^ 4) + 2 ^ 8 * (k.tval % 2 ^ 3) + 2 ^ 11 * (k.mtotal % 2 ^ 13) + 2 ^ 24 * rsvdAt k 25 8)]

/-! ### Flits and their parity (R230, R244, R245) -/

/-- A flit of the mesh: the header slot, the payload, and the sideband of Table 07.2. -/
structure NocFlit where
  slot : List Byte := []
  payload : List Byte := []
  wpar : List Bool := []
  pois : List Nat := []
  vn : Nat := 0
  head : Bool := false
  tail : Bool := false
  deriving DecidableEq, Repr

/-- Flits of a packet (R230). -/
def nocFlits (k : NocPkt) : Nat := max 1 ((k.data.length + 255) / 256)

/-- A byte holds an odd number of ones. -/
def oddByte (b : Byte) : Bool := (List.range 8).foldl (fun a i => xor a (b.getLsbD i)) false

/-- Bytes hold an odd number of ones. -/
def oddBytes (bs : List Byte) : Bool := bs.foldl (fun a b => xor a (oddByte b)) false

/-- The 36 words of a flit: the header slot, then the payload filled up with zeros. -/
def flitWords (slot payload : List Byte) : List (List Byte) :=
  let all := slot ++ payload ++ List.replicate (256 - payload.length) 0
  (List.range 36).map (fun w => (all.drop (8 * w)).take 8)

/-- The parity bit of a word under odd parity. -/
def parityBit (w : List Byte) : Bool := !oddBytes w

/-- The words of a flit whose parity is wrong. -/
def NocFlit.badWords (f : NocFlit) : List Nat :=
  let ws := flitWords f.slot f.payload
  (List.range 36).filter (fun w => f.wpar.getD w false != parityBit (ws.getD w []))

/-- Flit `i` of a packet as its source endpoint forms it. -/
def formFlit (k : NocPkt) (i : Nat) : NocFlit :=
  let slot := if i = 0 then dwBytes (nocHeader k) else List.replicate 32 0
  let payload := (k.data.drop (256 * i)).take 256
  { slot := slot, payload := payload, wpar := (flitWords slot payload).map parityBit
    pois := (k.pois.filter (fun s => s / 8 == i)).map (· % 8), vn := k.vn, head := i == 0, tail := i + 1 == nocFlits k }

/-- The flits of a packet. -/
def formFlits (k : NocPkt) : List NocFlit := (List.range (nocFlits k)).map (formFlit k)

/-- What a destination finds of a packet's flits: a parity error in the header slot, and the payload sectors with one (R244, R245). -/
def flitDamage (fs : List NocFlit) : Damage :=
  { header := (fs.headD {}).badWords.any (· < 4)
    sectors := fs.zipIdx.flatMap (fun f => ((f.1.badWords.filter (4 ≤ ·)).map (fun w => 8 * f.2 + (w - 4) / 4)).eraseDups) }

/-! ### Routing (R236, R237) -/

/-- The tiles of a mask. -/
def maskTiles (m : BitVec 64) : List Nat := (List.range 64).filter (fun i => m.getLsbD i)

/-- A mask of tiles. -/
def tilesMask (ts : List Nat) : BitVec 64 := BitVec.ofNat 64 ((ts.map (fun t => 2 ^ t)).foldl (· ||| ·) 0)

/-- The mesh outputs that R236 permits at column `xc`, for source column `xs`, towards column `xd` and from row `yc` to row `yd`: ports 0
to 3 lead to −X, +X, −Y and +Y. -/
def routeOutputs (xs xd xc : Nat) (yd yc : Nat) : List Nat :=
  let ydir := if yc < yd then 3 else 2
  if xd = xc then (if yd = yc then [] else [ydir])
  else if xc < xd then
    if yd = yc then [1]
    else (if xc % 2 = 1 ∨ xc = xs then [ydir] else []) ++ (if xd % 2 = 1 ∨ xd - xc ≠ 1 then [1] else [])
  else 0 :: (if xc % 2 = 0 ∧ yd ≠ yc then [ydir] else [])

/-- The router beyond a mesh port. -/
def beyond (r p : Nat) : Nat :=
  match p with
  | 0 => r - 1
  | 1 => r + 1
  | 2 => r - 10
  | _ => r + 10

/-- The port by which a mesh link enters the router beyond output `p`. -/
def opposite (p : Nat) : Nat := if p % 2 = 0 then p + 1 else p - 1

/-- The outputs from router `a` along its row (step 1), or along its column (step 10), to router `b`. -/
def straight (step : Nat) (a b : Nat) : List (Nat × Nat) :=
  let up := if step = 1 then 1 else 3
  let down := if step = 1 then 0 else 2
  if a ≤ b then (List.range ((b - a) / step)).map (fun i => (a + step * i, up))
  else (List.range ((a - b) / step)).map (fun i => (a - step * i, down))

/-- The mesh outputs of a multicast's tree: X first, then Y. -/
def treeOutputs (src : Nat) (tiles : List Nat) : List (Nat × Nat) :=
  (tiles.flatMap (fun t =>
    let d := tileRouter t
    let corner := src / 10 * 10 + d % 10
    straight 1 src corner ++ straight 10 corner d)).eraseDups

/-- The outputs of a router that a packet's routing permits: for a unicast the mesh ports of R236 or the local port, which is port 0
where the header names none that exists (R245); for a multicast the tree's. -/
def openOutputs (k : NocPkt) (r : Nat) : List Nat :=
  if k.vn = 2 then
    let ts := maskTiles k.mask
    ((treeOutputs k.src ts).filter (fun o => o.1 == r)).map Prod.snd ++ (if ts.any (fun t => tileRouter t == r) then [4] else [])
  else if 99 < k.dest then [4]
  else if r = k.dest then [4 + (if localPort r k.dport then k.dport else 0)]
  else routeOutputs (k.src % 10) (k.dest % 10) (r % 10) (k.dest / 10) (r / 10)

/-! ### Buffers, credits and lanes (R227, R235, R238) -/

/-- Flits of an input buffer (R238). -/
def bufFlits : Nat := 32

/-- The key of an input buffer, or of an output's arbiter. -/
def bufKey (r p vn : Nat) : Nat := 4 * (8 * r + p) + vn

/-- The credits that an output holds for a virtual network: the downstream buffer's free flits.  An endpoint takes what arrives
(assumption 142). -/
def Mesh.credit (m : Mesh) (r p vn : Nat) : Nat :=
  if p < 4 then bufFlits - tget m.used (bufKey (beyond r p) (opposite p) vn) else bufFlits

/-- The unicast output that a router takes: the one with the most free credits, ties to X (R236). -/
def Mesh.best (m : Mesh) (r vn : Nat) : List Nat → Option Nat
  | [] => none
  | p :: rest =>
    match m.best r vn rest with
    | none => some p
    | some q =>
      if m.credit r q vn < m.credit r p vn then some p
      else if m.credit r p vn < m.credit r q vn then some q
      else some (min p q)

/-- The outputs that a buffered packet still wants. -/
def Mesh.wants (m : Mesh) (r : Nat) (t : Transit) : List Nat :=
  if t.k.vn = 2 then (openOutputs t.k r).filter (fun p => !t.took.contains p)
  else if t.took.isEmpty then (m.best r t.k.vn (openOutputs t.k r)).toList
  else []

/-- A lane of a link is free. -/
def Mesh.idle (m : Mesh) (c : Crossing) : Bool := m.lanes.all (fun x => x.link != c)

/-- The first packet of an input buffer that still wants an output (assumption 142: packets of one buffer do not pass each other). -/
def Mesh.front (m : Mesh) (r i vn : Nat) : Option Transit := (tget m.bufs (bufKey r i vn)).find? (fun t => !(m.wants r t).isEmpty)

/-- An input has a packet that wants the output and has credit for all of it (R238). -/
def Mesh.offers (m : Mesh) (r p vn i : Nat) : Bool :=
  match m.front r i vn with
  | some t => (m.wants r t).contains p && decide (t.flits ≤ m.credit r p vn)
  | none => false

/-! ### Arbitration (R239, R262) -/

/-- The input that an output serves next on a virtual network: round-robin after the one served last. -/
def Mesh.nextInput (m : Mesh) (r p vn : Nat) : Option Nat :=
  ((List.range 8).map (fun i => (tget m.last (bufKey r p vn) + i) % 8)).find? (m.offers r p vn)

/-- The virtual network that an output serves next: VN1 first, VN0 and VN2 by turns where both wait. -/
def Mesh.nextVn (m : Mesh) (r p : Nat) : Option Nat :=
  let has := fun v => (m.nextInput r p v).isSome
  if has 1 then some 1
  else if has 0 && (!has 2 || !tget m.turn (8 * r + p)) then some 0
  else if has 2 then some 2
  else none

/-- Change a packet of an input buffer. -/
def Mesh.onTransit (m : Mesh) (buf id : Nat) (f : Transit → Transit) : Mesh :=
  { m with bufs := tmod m.bufs buf (fun l => l.map (fun t => if t.id = id then f t else t)) }

/-- An output begins to send on a lane what its arbiter picks; `into` gathers the packets that have begun to enter a router. -/
def startOn (r p : Nat) (lane : Bool) (x : Mesh × List (Nat × Transit)) : Mesh × List (Nat × Transit) :=
  let m := x.1
  let link : Crossing := { router := r, rport := p, toEndpoint := true, lane := lane }
  if !m.idle link then x
  else
    match m.nextVn r p with
    | none => x
    | some v =>
      match m.nextInput r p v with
      | none => x
      | some i =>
        match m.front r i v with
        | none => x
        | some t =>
          let m1 := m.onTransit (bufKey r i v) t.id (fun t => { t with took := t.took ++ [p], busy := t.busy + 1 })
          let m2 := { m1 with
            lanes := m1.lanes ++ [{ link := link, buf := bufKey r i v, id := t.id, left := t.flits }]
            last := tset m1.last (bufKey r p v) (i + 1)
            turn := if v = 1 then m1.turn else tset m1.turn (8 * r + p) (v == 0) }
          if p < 4 then
            let down := bufKey (beyond r p) (opposite p) v
            ({ m2 with used := tmod m2.used down (· + t.flits) }, x.2 ++ [(down, { t with took := [], busy := 0, path := t.path ++ [link] })])
          else (m2, x.2)

/-- Every output of a router. -/
def startAll (r : Nat) (x : Mesh × List (Nat × Transit)) : Mesh × List (Nat × Transit) :=
  (List.range 8).foldl (fun y p => startOn r p true (startOn r p false y)) x

/-! ### A cycle -/

/-- The last flit of a packet has left its buffer over a link: a local port's has arrived at its endpoint; a multicast's buffer is free
only once every output has taken its copy (R237). -/
def Mesh.sent (m : Mesh) (x : Sending) : Mesh :=
  let r := x.buf / 32
  match (tget m.bufs x.buf).find? (fun t => t.id == x.id) with
  | none => m
  | some t =>
    let m1 := if 4 ≤ x.link.rport then { m with out := m.out ++ [{ t with took := [], busy := 0, path := t.path ++ [x.link] }] } else m
    if t.busy ≤ 1 ∧ (m.wants r t).isEmpty = true then
      { m1 with
        bufs := tmod m1.bufs x.buf (·.filter (fun y => y.id != t.id))
        used := if t.k.vn = 2 then tmod m1.used x.buf (· - t.flits) else m1.used }
    else m1.onTransit x.buf x.id (fun y => { y with busy := y.busy - 1 })

/-- One flit moves on a lane (R227); a unicast's flit gives its credit back as it leaves (R238). -/
def Mesh.move (m : Mesh) (x : Sending) : Mesh :=
  let out := x.link.toEndpoint
  let m1 := if out && x.buf % 4 != 2 then { m with used := tmod m.used x.buf (· - 1) } else m
  if 1 < x.left then { m1 with lanes := m1.lanes.map (fun y => if y = x then { y with left := y.left - 1 } else y) }
  else
    let m2 := { m1 with lanes := m1.lanes.erase x }
    if out then m2.sent x else m2

/-- Packets leave their endpoints, oldest first at each local port and virtual network, on a free lane and with credit for all of
it. -/
def enter : List (NocPkt × Damage) → List Nat → Mesh × List (Nat × Transit) → List (NocPkt × Damage) × (Mesh × List (Nat × Transit))
  | [], _, x => ([], x)
  | f :: rest, held, x =>
    let k := f.1
    let m := x.1
    let buf := bufKey k.src (4 + k.sport) k.vn
    let link : Crossing := { router := k.src, rport := 4 + k.sport }
    let n := nocFlits k
    let free := if m.idle link then some link else if m.idle { link with lane := true } then some { link with lane := true } else none
    match free with
    | some c =>
      if held.contains buf || decide (bufFlits < tget m.used buf + n) then
        let y := enter rest (buf :: held) x
        (f :: y.1, y.2)
      else if (openOutputs k k.src).isEmpty then enter rest held x
      else
        enter rest held
          ({ m with
              ids := m.ids + 1, used := tmod m.used buf (· + n)
              lanes := m.lanes ++ [{ link := c, buf := buf, id := m.ids, left := n }] },
            x.2 ++ [(buf, { id := m.ids, k := k, d := f.2, flits := n, path := [c] })])
    | none =>
      let y := enter rest (buf :: held) x
      (f :: y.1, y.2)

/-- The packets that their endpoints have sent, and the routers. -/
abbrev Net := List (NocPkt × Damage) × Mesh

/-- The routers whose buffers hold a packet. -/
def Mesh.live (m : Mesh) : List Nat := (m.bufs.map (fun e => e.1 / 32)).eraseDups

/-- One cycle of the mesh. -/
def meshCycle (n : Net) : Net :=
  let m1 := n.2.lanes.foldl Mesh.move n.2
  let x := m1.live.foldl (fun y r => startAll r y) (m1, [])
  let e := enter n.1 [] x
  (e.1, e.2.2.foldl (fun m t => { m with bufs := tmod m.bufs t.1 (· ++ [t.2]) }) e.2.1)

/-! ### Arrival -/

/-- The copies of a packet that have reached their endpoints: all of them, or none. -/
def Mesh.arrived (m : Mesh) (k : NocPkt) : List Transit :=
  match m.out.find? (fun t => t.k == k && (k.vn != 2 || (m.out.filter (fun u => u.id == t.id)).length == (maskTiles k.mask).length)) with
  | some t => m.out.filter (fun u => u.id == t.id)
  | none => []

/-- Run the mesh until a packet has arrived. -/
def runMesh (k : NocPkt) : Nat → Net → Net
  | 0, n => n
  | f + 1, n => if (n.2.arrived k).isEmpty then runMesh k f (meshCycle n) else n

/-- The network holds a packet. -/
def netHolds (s : State) (k : NocPkt) : Bool :=
  s.flights.any (fun f => f.1 == k) || s.mesh.bufs.any (fun e => e.2.any (fun t => t.k == k)) || s.mesh.out.any (fun t => t.k == k)

/-- Cycles within which everything in the network arrives. -/
def meshFuel (s : State) : Nat := 640 * (s.flights.length + (s.mesh.bufs.map (fun e => e.2.length)).sum + 1)

/-- The path that a packet would take now, with the lanes that are free: for one that the model's units do not hold in the mesh. -/
def pathNow (k : NocPkt) (m : Mesh) : Nat → Nat → List Crossing
  | 0, _ => []
  | f + 1, r =>
    match m.best r k.vn (openOutputs k r) with
    | none => []
    | some p =>
      let c : Crossing := { router := r, rport := p, toEndpoint := true }
      (if m.idle c then c else { c with lane := true }) :: (if p < 4 then pathNow k m f (beyond r p) else [])

/-- Everything that such a packet crosses. -/
def crossings (k : NocPkt) (m : Mesh) : List Crossing :=
  let first : Crossing := { router := k.src, rport := 4 + k.sport }
  (if m.idle first then first else { first with lane := true }) ::
    (if k.vn = 2 then
      let ts := maskTiles k.mask
      ((treeOutputs k.src ts) ++ ts.map (fun t => (tileRouter t, 4))).map (fun (o : Nat × Nat) =>
        let c : Crossing := { router := o.1, rport := o.2, toEndpoint := true }
        if m.idle c then c else { c with lane := true })
    else pathNow k m 20 k.src)

/-- The network carries packets: from the end of stage S1 (R235). -/
def carries (s : State) : Bool := !s.bring.inReset && decide (2 ≤ s.bring.stage)

end Sys2Proof.Machine
end

