-- ==== Sys2Proof/Machine/NetSend.lean ====
section
/-! DEFINITION. Packets leave their endpoints: tags, outstanding requests, and injected faults that strike them (R242, Tables 07.9
and 12.7). -/

namespace Sys2Proof.Machine

/-! ### Armed injections (Table 12.7) -/

/-- An injection of a kind is armed on a unit. -/
def armed (s : State) (unit kind : Nat) : Bool := s.integ.inject.any (fun i => i.1 == unit && i.2.1 == kind && i.2.2 != 0)

/-- One injection fewer of the first matching entry; an entry that is used up goes. -/
def useInject (unit kind : Nat) : List (Nat × Nat × Nat) → List (Nat × Nat × Nat)
  | [] => []
  | (u, k, n) :: r =>
    if u = unit ∧ k = kind then (if n ≤ 1 then r else (u, k, n - 1) :: r) else (u, k, n) :: useInject unit kind r

/-- The next occasion of an armed injection has come. -/
def takeInject (unit kind : Nat) (s : State) : State :=
  { s with integ := { s.integ with inject := useInject unit kind s.integ.inject } }

/-! ### Requests (R242, Table 07.9) -/

/-- What an endpoint holds in reserve for its responses: tags, bytes for read responses (`none`: each read has a destination of its own, or
the endpoint reads nothing), and slots for the others (Table 07.9). -/
structure Reserve where
  tags : Nat := 0
  space : Option Nat := none
  slots : Nat := 0

/-- Table 07.9: tiles, the host interface, Peloc ports, codec engines, the stream context manager, the command processor, Owl, HBM's
scrub; Kestrel is not in the table and has the tags of a tile (assumption 143). -/
def reserveOf (r q : Nat) : Reserve :=
  match routerTile r with
  | some _ => { tags := 64, slots := 64 }
  | none =>
    if r = hostRouter then { tags := 1024, space := some 0x40000, slots := 256 }
    else if r = procRouter then (if q = 1 then { tags := 64, space := some 0x1000, slots := 64 } else { tags := 16, space := some 0x2000, slots := 16 })
    else if r = owlRouter then { tags := 16, slots := 16 }
    else if r = kestrelRouter then { tags := 64, slots := 64 }
    else if q = 2 then { tags := 512, space := some 0x20000, slots := 128 }
    else if q = 3 then { tags := 256, space := some 0x10000, slots := 64 }
    else { tags := 32, space := some 0x2000, slots := 32 }

/-- The multicast that an endpoint is sending: a tile's, or a Peloc port's landing (R248, R249). -/
def sendAt (s : State) (r q : Nat) : Option McSend :=
  match routerTile r with
  | some t => if q = 0 then (tget s.tiles t).send else none
  | none =>
    match routerPeloc r with
    | some p => if q = 2 then (tget s.pel p).send else none
    | none => none

/-- Set or clear it. -/
def setSend (r q : Nat) (m : Option McSend) (s : State) : State :=
  match routerTile r with
  | some t => if q = 0 then { s with tiles := tmod s.tiles t (fun x => { x with send := m }) } else s
  | none =>
    match routerPeloc r with
    | some p => if q = 2 then { s with pel := tmod s.pel p (fun x => { x with send := m }) } else s
    | none => s

/-- A tag that no outstanding request of an endpoint carries: the lowest (assumption 14). -/
def freeTag (s : State) (r q : Nat) : Option Nat :=
  (List.range (reserveOf r q).tags).find? (fun t =>
    !s.reqs.any (fun x => x.pkt.src == r && x.pkt.sport == q && x.pkt.tag == t) && ((sendAt s r q).map (·.tag)) != some t)

/-- Injected network faults strike the next packet that a router's endpoints send (Table 12.7). -/
def injectNoc (k : NocPkt) (s : State) : Damage × State :=
  let u := unitId 0x0A k.src
  let p := k.data.length != 0 && armed s u 4
  let s1 := if p then takeInject u 4 s else s
  let h := armed s1 u 5
  ({ header := h, sectors := if p then [freeBelow s ((k.data.length + 31) / 32)] else [] },
    if p || h then drawFree (if h then takeInject u 5 s1 else s1) else s1)

/-- A packet leaves its endpoint. -/
def sendPkt (k : NocPkt) (s : State) : State :=
  let d := injectNoc (plainPkt k) s
  { d.2 with flights := d.2.flights ++ [(plainPkt k, d.1)] }

/-- A request that an RD_DATA answers. -/
def isRead (k : NocPkt) : Bool := k.typ == 0x01 || k.typ == 0x04

/-- An endpoint has room for the whole response to a request beside those outstanding (R242). -/
def hasRoom (s : State) (k : NocPkt) : Bool :=
  let own := s.reqs.filter (fun x => x.pkt.src == k.src && x.pkt.sport == k.sport)
  let v := reserveOf k.src k.sport
  if isRead k then
    match v.space with
    | some n => decide (((own.filter (fun x => isRead x.pkt)).map (fun x => 16 * x.pkt.len)).sum + 16 * k.len ≤ n)
    | none => true
  else decide ((own.filter (fun x => !isRead x.pkt)).length < v.slots)

/-- The quadrant of a tile that would send a request is fenced: its endpoints send no new one (step 2 of Table 07.12). -/
def srcFenced (s : State) (k : NocPkt) : Bool :=
  match routerTile k.src with
  | some t => (fenceOf s (quadOf t)).isSome
  | none => false

/-- The tag with which a request can go out now, if it can (R242, R253). -/
def tagFor (s : State) (k : NocPkt) : Option Nat := if hasRoom s k && !srcFenced s k then freeTag s k.src k.sport else none

/-- An endpoint sends a request and remembers it; it waits where it has no tag or no room. -/
def sendReq (k : NocPkt) (why : Purpose) (s : State) : State :=
  match tagFor s k with
  | none => { s with netq := s.netq ++ [(k, why)] }
  | some t =>
    let k1 := plainPkt { k with tag := t }
    sendPkt k1 { s with reqs := s.reqs ++ [{ pkt := k1, why := why }] }

/-- A read request. -/
def rdPkt (r q part : Nat) (sys : Bool) (a n : Nat) : NocPkt :=
  { typ := 0x01, dest := (placeOf a).1, dport := (placeOf a).2, src := r, sport := q, part := part, sys := sys, len := n / 16, addr := a }

/-- A write request. -/
def wrPkt (r q part : Nat) (sys : Bool) (a : Nat) (data : List Byte) (pois : List Nat) : NocPkt :=
  { typ := 0x02, dest := (placeOf a).1, dport := (placeOf a).2, src := r, sport := q, part := part, sys := sys
    len := (data.length + 15) / 16, addr := a, data := data, pois := pois }

/-- An on-chip response of type `t` to a request, with data and poisoned sectors. -/
def answerPkt (k : NocPkt) (t : Nat) (status hint : Nat) (data : List Byte) (pois : List Nat) : NocPkt :=
  { typ := t, vn := 1, dest := k.src, dport := k.sport, src := k.dest, sport := k.dport, part := k.part, sys := k.sys, tag := k.tag
    len := (data.length + 15) / 16, status := status, hint := hint, data := data, pois := pois }

/-- Payload sectors of 32 bytes from granules of 16, and back (Table 07.2). -/
def toSectors (g : List Nat) : List Nat := (g.map (· / 2)).eraseDups

/-- Granules that payload sectors cover. -/
def toGranules (ss : List Nat) : List Nat := ss.flatMap (fun k => [2 * k, 2 * k + 1])

end Sys2Proof.Machine
end

