-- ==== Sys2Proof/Machine/Owl.lean ====
section
/-! DEFINITION. Owl's record buffer and trace writer (R517, R521 to R527, R533). -/

namespace Sys2Proof.Machine

/-! ### Records (Tables 14.4 to 14.6) -/

/-- Low and high dwords of the timebase. -/
def timeDws (t : Nat) : List Dword := [dw t, dw (t / 2 ^ 32)]

/-- A LOSS record. -/
def lossRecord (o : Owl) (now : Nat) : List Dword :=
  [dw 0x6, dw now] ++ timeDws o.lossTime ++ [dw o.lossCount, dw (b2n o.lossWerr), 0, 0]

/-- A SYNC record. -/
def syncRecord (reason domain probes now : Nat) : List Dword :=
  [dw (0x2 + 2 ^ 8 * reason + 2 ^ 16 * domain), dw now] ++ timeDws now ++ [dw probes, 0, 0, 0]

/-- The full time of a record's stamp, which is at most 2^32 cycles old. -/
def stampTime (now : Nat) (r : List Dword) : Nat := now - (now + 2 ^ 32 - (r.getD 1 0).toNat) % 2 ^ 32

/-! ### The record buffer (R524, R525) -/

/-- The record buffer has room. -/
def Owl.room (o : Owl) : Bool := decide (o.buf.length < 2048)

/-- A record enters the buffer; the one that takes the last place of a lap makes a LAP record due. -/
def Owl.put (o : Owl) (r : List Dword) : Owl :=
  { o with buf := o.buf ++ [r], lapDue := o.wrap && (o.sent + 32 * (o.buf.length + 1)) % o.size == 0 }

/-- A due LAP record is the first of its lap. -/
def Owl.lap (o : Owl) (now : Nat) : Owl := if o.lapDue && o.room then o.put (syncRecord 4 0 0 now) else o

/-- A record enters the buffer if it has room, behind a due LAP record. -/
def Owl.add (o : Owl) (now : Nat) (r : List Dword) : Owl × Bool :=
  let o1 := o.lap now
  if o1.room then (o1.put r, true) else (o1, false)

/-- `n` records are lost, the first of which was stamped `t`. -/
def Owl.lose (o : Owl) (n t : Nat) : Owl :=
  { o with lost := o.lost + n, lossTime := if o.lossCount = 0 then t else o.lossTime, lossCount := o.lossCount + n }

/-- Put a record in the record buffer, a due LOSS record before it; a full buffer loses it (R525). -/
def Owl.push (o : Owl) (now : Nat) (r : List Dword) : Owl × Bool :=
  let a := o.add now (lossRecord o now)
  let o1 := if o.lossCount = 0 then o else if a.2 then { a.1 with lossCount := 0, lossWerr := false } else a.1
  let b := o1.add now r
  if b.2 then b else (b.1.lose 1 now, false)

/-! ### The trace writer (R524) -/

/-- The purpose of a trace write. -/
def Purpose.isOwl : Purpose → Bool
  | .owl _ => true
  | _ => false

/-- Trace writes outstanding, oldest first. -/
def owlOut (s : State) : List NocReq := s.reqs.filter (fun x => x.why.isOwl)

/-- Records up to the end of the 256-byte unit that the writer has reached: a group. -/
def Owl.group (o : Owl) : Nat := 8 - o.sent / 32 % 8

/-- The writer can send `n` records now: it has them, a tag, and a place for them. -/
def owlCanSend (n : Nat) (s : State) : Bool :=
  s.owl.running && n != 0 && decide (n ≤ s.owl.buf.length) && decide ((owlOut s).length < 16) && decide (s.owl.sent < s.owl.size)

/-- The first `n` buffered records go out as one WR. -/
def owlSend (n : Nat) (s : State) : State :=
  let o := s.owl
  let rs := o.buf.take n
  let e := o.sent + 32 * n
  sendReq (wrPkt owlRouter 0 0 true (o.base.getD 0 + o.sent) (rs.flatMap dwBytes) []) (.owl rs)
    { s with owl := { o with buf := o.buf.drop n, sent := if o.wrap && e == o.size then 0 else e } }

/-- Every full group goes out while a tag is free; after a stop has been accepted, what remains goes out as well. -/
def owlPump : Nat → State → State
  | 0, s => s
  | f + 1, s =>
    let n := if s.owl.stopping then min s.owl.group s.owl.buf.length else s.owl.group
    if owlCanSend n s then owlPump f (owlSend n s) else s

/-- Put a record in the buffer and write what is due. -/
def owlPut (r : List Dword) (s : State) : State :=
  let p := s.owl.push s.timebase r
  let s1 := { s with owl := p.1 }
  owlPump 17 (if p.2 then s1 else bump cntOwlLost 0 s1)

/-- A PACKET, COMMAND or MARK record: only while the trace runs and no stop has been accepted (R523, R527). -/
def owlRecord (r : List Dword) (s : State) : State := if s.owl.running && !s.owl.stopping then owlPut r s else s

/-- A SYNC or POWER_DOWN record: only while the trace runs (R522, R529). -/
def owlNote (r : List Dword) (s : State) : State := if s.owl.running then owlPut r s else s

/-- The acknowledged write offset after a trace write has ended: it passes SIZE with a LAP record, or the trace stops full
(R524, R533). -/
def owlSettle (s : State) : State :=
  let o := s.owl
  let off := match owlOut s with | x :: _ => x.pkt.addr - o.base.getD 0 | [] => o.sent
  if !o.running then s
  else if o.size ≤ off then
    { s with owl := { o with off := off, running := false, stopping := false, full := true, buf := [], lapDue := false } }
  else if off < o.off then
    owlPump 17 (bump cntOwlWrap 0 { s with owl := { o with off := off, wrapped := true }.lap s.timebase })
  else owlPump 17 { s with owl := { o with off := off } }

/-- A group of trace records has been written (R518, R524). -/
def owlWritten (records : List (List Dword)) (s : State) : State := owlSettle (bumpBy cntOwlRecords 0 records.length s)

/-- A write of trace records that fails: its records are lost, with WERR (R526). -/
def owlFailed (records : List (List Dword)) (s : State) : State :=
  let n := records.length
  owlSettle (bumpBy cntOwlLost 0 n (bump cntOwlWriteErr 0
    { s with owl := { s.owl.lose n (stampTime s.timebase (records.headD [])) with lossWerr := true } }))

end Sys2Proof.Machine
end

