-- ==== Sys2Proof/Machine/Ops.lean ====
section
/-! DEFINITION. The operations every command shares: replies and result slots, locks and buffers losing their owner, queue pairs,
and a port reset. -/

namespace Sys2Proof.Machine

/-- The COMMAND record of a reply or of a posted final status (Table 14.6). -/
def commandRecord (now : Nat) (c : Cmd) (final : Bool) (st ticket : Nat) : List Dword :=
  let d := c.pkt.dws
  let d0 := d.getD 0 0
  let d1 := d.getD 1 0
  [dw (0x5 + 2 ^ 8 * portOf c.carrier + 2 ^ 10 * (c.carrier % 64) + 2 ^ 16 * bits d1 21 16 + 2 ^ 22 * b2n final), dw now,
   dw (bits d0 15 0 + 2 ^ 16 * bits d1 15 0), dw (bits (d.getD 2 0) 15 0 + 2 ^ 16 * st), dw ticket,
   dw (min (now - c.time) 0xFFFFFFFF), 0, 0]

/-! ### Packets, parameters and carriers -/

end Sys2Proof.Machine

namespace Sys2Proof

open Sys2Proof.Machine

/-- Dword n of a packet (R316). -/
def Packet.dwn (p : Packet) (n : Nat) : Dword := p.dws.getD n 0
/-- OPCODE (Table 09.2). -/
def Packet.opcode (p : Packet) : Nat := bits (p.dwn 0) 15 0
/-- XPARAM. -/
def Packet.xparam (p : Packet) : Bool := bit (p.dwn 0) 16
/-- PLEN. -/
def Packet.plen (p : Packet) : Nat := bits (p.dwn 0) 31 24
/-- TAG. -/
def Packet.tag (p : Packet) : Nat := bits (p.dwn 1) 15 0
/-- PART. -/
def Packet.part (p : Packet) : Nat := bits (p.dwn 1) 21 16

end Sys2Proof

namespace Sys2Proof.Machine

/-- Parameter dword DWn of a command: inline, or from the parameter block (R350). -/
def Cmd.par (c : Cmd) (n : Nat) : Dword := if c.pkt.xparam then c.block.getD (n - 4) 0 else c.pkt.dwn n
/-- Bits [hi:lo] of parameter dword n. -/
def Cmd.fld (c : Cmd) (n hi lo : Nat) : Nat := bits (c.par n) hi lo
/-- The 64-bit parameter in DWn and DWn+1. -/
def Cmd.par64 (c : Cmd) (n : Nat) : Nat := (c.par n).toNat + 2 ^ 32 * (c.par (n + 1)).toNat
/-- The partition a command names. -/
def Cmd.part (c : Cmd) : Nat := c.pkt.part
/-- The port of a command. -/
def Cmd.port (c : Cmd) : Nat := portOf c.carrier

/-! ### Locks and buffers that lose their owner (R397, R398, R406) -/

/-- Break one lock (R398): the holder's sequence on it is discarded and closed, the lock becomes BROKEN, the counters count,
and ATTN_LOCK_BROKEN is raised. -/
def breakLock (s : State) (n : Nat) : State :=
  match tget s.locks n with
  | .held o =>
    let q := tget s.seqs o
    let k := if q.lock = some n then q.staged.length else 0
    let s1 := { s with
      seqs := if q.lock = some n then tset s.seqs o {} else s.seqs
      locks := tset s.locks n .broken }
    raise attnLockBroken .admin (bumpBy cntSeqDiscarded 0 k (bump cntLockBroken 0 s1))
  | _ => s

/-- The locks held by an owner that satisfies `own`. -/
def locksOf (s : State) (own : Nat → Bool) : List Nat :=
  (s.locks.filter (fun e => match e.2 with | .held o => own o | _ => false)).map Prod.fst

/-- Every lock of the owners that lose their carrier breaks (R397, Table 11.5). -/
def breakLocks (own : Nat → Bool) (s : State) : State := (locksOf s own).foldl breakLock s

/-- The buffers of an owner that has lost its carrier become JOB-owned (R406). -/
def orphanBuffers (own : Nat → Bool) (s : State) : State :=
  { s with pools := tmap (fun _ (p : Pool) =>
      { p with bufs := tmap (fun _ (b : Buf) =>
          match b.owner with
          | .ident o => if b.allocated && own o then { b with owner := .job } else b
          | .job => b) p.bufs }) s.pools }

/-! ### Queue pairs and host memory -/

/-- The function can issue host-memory requests (R574). -/
def canMaster (s : State) (fn : Nat) : Bool :=
  let f := tget s.fns fn
  f.linkUp && f.bme && !f.d3 && s.bring.pll

/-- Replies owed to the carriers that satisfy `own` are discarded; their commands run to their end (R327, R339). -/
def disown (own : Nat → Bool) (s : State) : State :=
  { s with cmds := s.cmds.map (fun c => if own c.carrier then { c with owed := false } else c) }

/-- A queue pair stops with ERR (R327): it fetches nothing more, its replies are discarded, CNT_QP_FAULT counts, and its
locks break (R397). -/
def stopQp (c cause : Nat) (s : State) : State :=
  let s1 := { s with qps := tmod s.qps c (fun q => { q with rdy := false, err := true, cause := cause, reserved := 0 }) }
  let s2 := disown (· == c) s1
  orphanBuffers (· == c) (breakLocks (· == c) (bump cntQpFault (unitId 0x0C (portOf c)) s2))

/-- Max_Payload_Size of a function, 512 at most (R574, Table 16.4). -/
def PcieFn.mps (f : PcieFn) : Nat := 128 * 2 ^ min 2 (bits f.devCtl 7 5)

/-- Max_Read_Request_Size of a function (R574). -/
def PcieFn.mrrs (f : PcieFn) : Nat := 128 * 2 ^ min 5 (bits f.devCtl 14 12)

/-- The requests of an access to host memory: none crosses a multiple of the size limit, so none crosses 4 KiB (R574; assumption 169). -/
def hostRuns (limit addr len : Nat) : List (Nat × Nat) := runsOf limit (len / limit + 2) addr len

/-- The writes of an access to host memory as bus master; only host spill may set Relaxed Ordering (R574). -/
def hostWrite (spill : Bool) (fn addr : Nat) (data : List Byte) (s : State) : State :=
  let f := tget s.fns fn
  { s with hostOut := s.hostOut ++ (hostRuns f.mps addr data.length).map (fun r =>
      { fn := fn, addr := r.1, data := (data.drop (r.1 - addr)).take r.2, ro := spill && bit f.devCtl 4 }) }

/-! ### Replies (R318, R329, R334) -/

/-- The ATTN summary of a view (Table 09.6). -/
def View.summary (v : View) : Nat := v.bits.foldl (fun n e => if e.2.isSet then n + 2 ^ e.1 else n) 0

/-- The view that carries a carrier's replies (R337). -/
def viewOf (s : State) (c : Nat) : View :=
  match boundPart s c with
  | some _ => (tget s.qps c).view
  | none => (tget s.ports (portOf c)).view

/-- What a command's handling says back: its status, RESULT dwords, and REREAD. -/
structure Reply where
  status : Nat := 0
  result : List Dword := []
  reread : Bool := false

/-- A reply's first two dwords and its six RESULT dwords (Table 09.3). -/
def replyDws (tag st attn : Nat) (phase reread dup : Bool) (sqhead : Nat) (res : List Dword) : List Dword :=
  [dw (tag + 2 ^ 16 * st),
   dw (attn + 2 ^ 16 * b2n phase + 2 ^ 17 * b2n reread + 2 ^ 18 * b2n dup + 2 ^ 20 * sqhead)] ++
  (res ++ List.replicate 6 0).take 6

/-- A reply on a queue pair: one 32-byte write to the next completion entry, PHASE inverting at each wrap; a write that
cannot be issued stops the queue pair with CAUSE 2 (R327, R329). -/
def replyQp (c tag : Nat) (r : Reply) (s : State) : State :=
  let q := tget s.qps c
  if !canMaster s (portOf c) then stopQp c 2 s
  else
    let dws := replyDws tag r.status (viewOf s c).summary q.phase r.reread false q.fetch r.result
    let w := q.cqw + 1
    let wraps := decide (w ≥ 2 ^ q.cqlog)
    hostWrite false (portOf c) (q.cqbase + 32 * q.cqw) (dwBytes dws)
      { s with qps := tset s.qps c { q with cqw := if wraps then 0 else w, phase := if wraps then !q.phase else q.phase
                                            reserved := q.reserved - 1, unread := q.unread + 1 } }

/-- A reply in a mailbox: RPLY is written, then MPHASE toggles and BUSY clears in one step (R334). -/
def replyMbx (p : Nat) (sent : List Byte) (tag : Nat) (r : Reply) (s : State) : State :=
  let m := tget s.mbx p
  let dws := replyDws tag r.status (viewOf s (64 * p)).summary (!m.mphase) r.reread false 0 r.result
  { s with mbx := tset s.mbx p { m with rply := dws, mphase := !m.mphase, busy := false, last := some sent } }

/-- A queue pair of QP0 whose EN is clear falls from RDY once its last command has replied; an EN written meanwhile then
takes effect (R328). -/
def startQp (q : Qp) : Qp :=
  let ok := decide (q.sqbase % 4096 = 0) && decide (q.cqbase % 4096 = 0) && decide (4 ≤ q.sqlog) && decide (q.sqlog ≤ 12) &&
    decide (4 ≤ q.cqlog) && decide (q.cqlog ≤ 12)
  { q with live := true, en := true, enWaits := false, rdy := ok, err := !ok, cfgerr := !ok, cause := 0, sqtail := 0, cqhead := 0
           fetch := 0, cqw := 0, phase := true, reserved := 0, unread := 0, epoch := q.epoch + 1 }

/-- The commands in progress of a carrier. -/
def inProgressOf (s : State) (c : Nat) : Nat := (s.cmds.filter (fun x => x.carrier == c)).length

/-- QP0 with the ring configuration that its registers hold (Table 09.10). -/
def Qp.configured (q : Qp) (r : Tab Dword) : Qp :=
  let v := fun o => (tget r o).toNat
  { q with sqbase := v 0x1000 + 2 ^ 32 * v 0x1004, cqbase := v 0x1008 + 2 ^ 32 * v 0x100C, sqlog := v 0x1010 % 16
           cqlog := v 0x1010 / 256 % 16 }

/-- Enable QP0 of a function afresh: RDY, or ERR with CFGERR for an invalid ring configuration (R326, R328). -/
def enableQp0 (c : Nat) (s : State) : State :=
  let q := startQp ((tget s.qps c).configured (tget s.ports (portOf c)).qp0)
  let s1 := { disown (· == c) s with qps := tset s.qps c q }
  if q.cfgerr then bump cntQpFault (unitId 0x0C (portOf c)) s1 else s1

/-- After a command of QP0 has gone: a cleared EN lets RDY fall, and a waiting EN then takes effect (R328). -/
def settleQp0 (c : Nat) (s : State) : State :=
  let q := tget s.qps c
  if isQp c && c % 64 == 0 && q.rdy && inProgressOf s c == 0 && (!q.en || q.enWaits) then
    if q.enWaits then enableQp0 c s else { s with qps := tset s.qps c { q with rdy := false } }
  else s

/-- A command is in progress no longer; its reply is written where it is still owed (R331, R327). -/
def finishQuiet (c : Cmd) (r : Reply) (s : State) : State :=
  let s1 := { s with cmds := s.cmds.filter (fun x => x.id != c.id) }
  let owed := match s.cmds.find? (fun x => x.id == c.id) with | some x => x.owed | none => c.owed
  let s2 := if !owed then s1
    else if isQp c.carrier then replyQp c.carrier c.pkt.tag r s1
    else replyMbx c.port (dwBytes c.pkt.dws) c.pkt.tag r s1
  settleQp0 c.carrier s2

/-- The end of a firmware-answered command: its reply, and its COMMAND record while a trace runs (R523). -/
def finish (c : Cmd) (r : Reply) (s : State) : State :=
  let tk := if r.status = stPending then (r.result.getD 0 0).toNat else 0
  let s1 := if r.status = stRetry then s else owlRecord (commandRecord s.timebase c false r.status tk) s
  finishQuiet c r s1

/-! ### Result slots (R315, R321, R332, R335) -/

/-- The slots a port holds. -/
def slotsHeld (s : State) (p : Nat) : Nat := (s.slots.filter (fun e => e.2.held && e.2.port == p)).length

/-- A port has a free result slot (R315). -/
def slotFree (s : State) (p : Nat) : Bool :=
  if p < 2 then decide (slotsHeld s p < 2016) && decide (slotsHeld s 0 + slotsHeld s 1 < 4032) else decide (slotsHeld s p < 32)

/-- The result slots that nothing holds. -/
def freeSlots (s : State) : List Nat := (List.range 4096).filter (fun k => !(tget s.slots k).held)

/-- The slot a new ticket gets: which free one is not stated, so a free value picks it (assumption 3). -/
def pickSlot (s : State) : Nat := (freeSlots s).getD (freeBelow s (freeSlots s).length) 0

/-- A ticket (Table 09.7). -/
def mkTicket (slot gen part port : Nat) : Nat := slot + 2 ^ 12 * gen + 2 ^ 24 * part + 2 ^ 30 * port

/-- The slot a ticket names. -/
def tkSlot (t : Nat) : Nat := t % 4096
/-- The generation a ticket names. -/
def tkGen (t : Nat) : Nat := t / 4096 % 4096
/-- The partition in a ticket. -/
def tkPart (t : Nat) : Nat := t / 2 ^ 24 % 64
/-- The port in a ticket. -/
def tkPort (t : Nat) : Nat := t / 2 ^ 30 % 4

/-- Take a result slot for a command: its ticket, and the state with the slot held (R332, R368). -/
def takeSlot (c : Cmd) (device : Bool) (s : State) : Nat × State :=
  let k := pickSlot s
  let r := tget s.slots k
  let part := if device then 0 else c.part
  let owed := match s.cmds.find? (fun x => x.id == c.id) with | some x => x.owed | none => c.owed
  let slot : RSlot := { gen := r.gen, held := true, port := c.port, part := part, device := device, orphan := !owed, cmd := c }
  (mkTicket k r.gen part c.port, drawFree { s with slots := tset s.slots k slot })

/-- Free a slot and advance its generation (Table 09.7). -/
def RSlot.release (r : RSlot) : RSlot := { gen := (r.gen + 1) % 4096 }

/-- Post the final status and result of pending work (R335): ATTN_RESULT_READY of the slot's port; an orphan's slot is freed
instead (R343); a ticket that no longer names its slot posts nowhere. -/
def post (ticket st : Nat) (res : List Dword) (s : State) : State :=
  let k := tkSlot ticket
  let r := tget s.slots k
  if r.held && r.gen == tkGen ticket && r.final.isNone then
    if r.orphan then { s with slots := tset s.slots k r.release }
    else
      let s1 := { s with slots := tset s.slots k { r with final := some st, result := (res ++ List.replicate 6 0).take 6 } }
      raise attnResultReady (.result r.port (if r.device then [] else [r.part]))
        (owlRecord (commandRecord s.timebase r.cmd true st ticket) s1)
  else s

/-! ### Port reset (R339, R545, Tables 11.5 and 15.5) -/

/-- REPLACE is pinned: a valid REPLACE record stands in the ledger, or its write is due (R430, R445, R449). -/
def replacePinned (s : State) : Bool :=
  s.ledger.recs.any (fun e => e.2.kind == 0x0F && e.2.crcOk) || s.integ.queue.any (fun r => r.kind == 0x0F)

/-- A condition bit's condition holds now (R320). -/
def condHolds (s : State) (b : Nat) : Bool :=
  (b == attnDrainRequested && decide (s.integ.dstate = .draining)) ||
  (b == attnReplace && replacePinned s && (s.bring.stage == 4 || decide (s.integ.dstate = .retired)))

/-- A view after its port has been reset: only condition bits whose condition holds stay (R339). -/
def View.afterReset (s : State) (v : View) : View :=
  { bits := tfilter (fun b _ => condHolds s b) v.bits |>.map (fun e => (e.1, { e.2 with last := 0 })) }

/-- A port reset begins (R339): its queue pairs, mailbox, owed replies, result slots, ESEQ, views, privilege and locks; BAR2
segments of its function (Table 15.5); P2's read pointer (R566) and P3's debug unlock (R583).  The reset completes with
PORT_RESET_COMPLETE (R545). -/
def portReset (p : Nat) (s : State) : State :=
  if !portExists s p then s
  else
    let own := fun c => portOf c == p
    let s1 := disown own s
    let po := tget s.ports p
    let m := tget s.mbx p
    let s2 := { s1 with
      qps := tfilter (fun c _ => portOf c != p) s1.qps
      mbx := if p < 2 then s1.mbx else tset s1.mbx p { held := m.held && po.resetting, busy := m.held && po.resetting }
      slots := tmap (fun _ (r : RSlot) => if r.held && r.port == p then r.release else r) s1.slots
      ports := tset s1.ports p { po with eseq := 0, view := po.view.afterReset s, admin := p == 0 || p == 2, resetting := true, qp0 := [] }
      segs := tfilter (fun k _ => k / 16 != p) s1.segs
      p2 := if p = 2 then { s1.p2 with ptr := 0x040, len := 32 } else s1.p2
      fw := if p = 3 then { s1.fw with unlocked := false, nonce := none } else s1.fw
      integ := if p = 3 ∧ s1.fw.unlocked then { s1.integ with inject := [] } else s1.integ
      hostReads := s1.hostReads.filter (fun r => match r.kind with | .sqEntry c _ => portOf c != p | _ => true) }
    orphanBuffers own (breakLocks own s2)

end Sys2Proof.Machine
end

