-- ==== Sys2Proof/Machine/Operands.lean ====
section
/-! DEFINITION. The operands of commands and bundles: windows and the translation of partition addresses, and device memory with its
poison marks (chapter 06). -/

namespace Sys2Proof.Machine

/-! ### Device memory (R200, R421) -/

/-- The memory's canonical form. -/
abbrev Memory.wf (m : List Host.Cell) : Prop := twf (α := Byte) m = true

/-- A byte of device memory; one that nothing has written is zero (R200). -/
def memByte (s : State) (a : Nat) : Byte := tget s.mem a

/-- `n` bytes from device address `a`. -/
def memBytes (s : State) (a : Nat) : Nat → List Byte
  | 0 => []
  | n + 1 => memByte s a :: memBytes s (a + 1) n

/-- Bytes put in a memory from address `a` upward. -/
def putBytes (m : List Host.Cell) (a : Nat) : List Byte → List Host.Cell
  | [] => m
  | b :: r => putBytes (tset m a b) (a + 1) r

/-- The 32-byte sectors that [a, a + n) touches, by number. -/
def sectorsOf (a n : Nat) : List Nat :=
  if n = 0 then [] else (List.range ((a + n - 1) / 32 + 1 - a / 32)).map (· + a / 32)

/-- The marked sectors among those that [a, a + n) touches (R421). -/
def markedIn (s : State) (a n : Nat) : List Nat := (sectorsOf a n).filter (fun k => smem s.poison k)

/-- Marks after one write of [a, a + n): a sector written whole takes the mark of what was written; a sector written in
part keeps its mark, and takes that of what was written (R421). -/
def remark (marks : List Nat) (a n : Nat) (bad : Nat → Bool) : List Nat :=
  (sectorsOf a n).foldl (fun m k =>
    if bad k then sput m k
    else if a ≤ 32 * k ∧ 32 * k + 32 ≤ a + n then sdel m k
    else m) marks

/-- Write bytes to device memory with good check bits. -/
def memPut (a : Nat) (data : List Byte) (s : State) : State :=
  { s with mem := putBytes s.mem a data, poison := remark s.poison a data.length (fun _ => false) }

/-- Write bytes to device memory, the sectors that touch `bad` (offsets in `data`, in granules of 16 bytes) marked. -/
def memPutBad (a : Nat) (data : List Byte) (bad : List Nat) (s : State) : State :=
  { s with
    mem := putBytes s.mem a data
    poison := remark s.poison a data.length
      (fun k => bad.any (fun j => decide (32 * k < a + 16 * j + 16) && decide (a + 16 * j < 32 * k + 32))) }

/-- Zero device memory from `a` for `n` bytes, with valid check bits. -/
def memZero (a n : Nat) (s : State) : State :=
  { s with
    mem := tfilter (fun k _ => decide (k < a) || decide (a + n ≤ k)) s.mem
    poison := s.poison.filter (fun k => decide (32 * k + 32 ≤ a) || decide (a + n ≤ 32 * k)) }

/-! ### Windows (R195, R196) -/

/-- The key of a window. -/
def winKey (part w : Nat) : Nat := 16 * part + w

/-- The windows of a partition. -/
def windowsOf (s : State) (part : Nat) : List (Nat × Window) :=
  s.windows.filter (fun e => e.1 / 16 == part)

/-- Pages held by a window's extents. -/
def Window.resident (w : Window) : Nat := (w.ext.map Prod.snd).sum

/-- The device page of page `i` of a list of extents. -/
def extPage : List (Nat × Nat) → Nat → Option Nat
  | [], _ => none
  | (p, n) :: r, i => if i < n then some (p + i) else extPage r (i - n)

/-- The device page of a window's page `i`, and whether it is spilled (R196). -/
def Window.page (w : Window) (i : Nat) : Nat × Bool :=
  match extPage w.ext i with
  | some p => (p, false)
  | none => (w.sppage + i - w.resident, w.spilled != 0 && !(w.region == 2 || w.region == 3))

/-- The valid window of a partition that covers a window-space page (R196). -/
def windowAt (s : State) (part vp : Nat) : Option Window :=
  ((windowsOf s part).find? (fun e =>
    e.2.valid && !e.2.zeroing && decide (e.2.vpage ≤ vp) && decide (vp < e.2.vpage + e.2.npages))).map Prod.snd

/-- A run of bytes at a device address that a partition's access comes to; `spilled` for a page backed by a spill extent. -/
structure Piece where
  dev : Nat := 0
  len : Nat := 0
  spilled : Bool := false
  deriving DecidableEq, Repr, Inhabited

/-- Translate the bytes [a, a + n), which lie in one 2 MiB page (R193, R194, R196): a piece, or the status of the check
that fails. -/
def xlatePage (s : State) (part : Nat) (wr : Bool) (a n : Nat) : Except Nat Piece :=
  if a < 0x8000000000 then
    match windowAt s part (a / pageSize) with
    | some w =>
      if wr && !w.wr then .error stWindowFault
      else
        let p := w.page (a / pageSize - w.vpage)
        .ok { dev := p.1 * pageSize + a % pageSize, len := n, spilled := p.2 }
    | none => .error stWindowFault
  else if tileBase ≤ a ∧ a < tileBase + 64 * pageSize then
    let t := (a - tileBase) / pageSize
    if storeSize < (a - tileBase) % pageSize + n then .error stWindowFault
    else if (tget s.tiles t).owner = some part then .ok { dev := a, len := n }
    else .error stTileNotOwned
  else .error stWindowFault

/-- Every page of a list translates, or the first failure (R196). -/
def xlateAll (s : State) (part : Nat) (wr : Bool) : List (Nat × Nat) → Except Nat (List Piece)
  | [] => .ok []
  | (a, n) :: r =>
    match xlatePage s part wr a n with
    | .error e => .error e
    | .ok p =>
      match xlateAll s part wr r with
      | .error e => .error e
      | .ok ps => .ok (p :: ps)

/-- Translate the partition addresses [a, a + n), page by page (R196). -/
def xlate (s : State) (part : Nat) (wr : Bool) (a n : Nat) : Except Nat (List Piece) :=
  xlateAll s part wr (runsOf pageSize (n / pageSize + 2) a n)

/-- The window check of a range passes. -/
def windowOk (s : State) (part : Nat) (wr : Bool) (a n : Nat) : Bool :=
  match xlate s part wr a n with
  | .ok _ => true
  | .error _ => false

/-- Count a failed window check of a partition's job (Table 01.6). -/
def countFault (part st : Nat) (s : State) : State :=
  if st = stWindowFault then bump cntWindowFault part s else s

end Sys2Proof.Machine
end

