-- ==== Sys2Proof/Machine/Faults.lean ====
section
/-! DEFINITION. Incidents, their verdicts and their ledger records; poison that is consumed; injected faults; and the beginning of a
drain (R425 to R427, R432, R442 to R447, R451). -/

namespace Sys2Proof.Machine

/-! ### Records -/

/-- KIND CHECK (Table 12.4). -/
def kindCheck : Nat := 0x01
/-- KIND PLAUSIBILITY. -/
def kindPlaus : Nat := 0x02
/-- KIND DUAL_MISMATCH. -/
def kindDual : Nat := 0x03
/-- KIND KAK. -/
def kindKak : Nat := 0x04
/-- KIND SRAM_UNCORR. -/
def kindSram : Nat := 0x05
/-- KIND HBM_UNCORR. -/
def kindHbm : Nat := 0x06
/-- KIND CORR_RATE. -/
def kindCorr : Nat := 0x07
/-- KIND NOC_PARITY. -/
def kindNoc : Nat := 0x08
/-- KIND POISON. -/
def kindPoison : Nat := 0x09
/-- KIND LINK. -/
def kindLink : Nat := 0x0A
/-- KIND LOOP_FAULT. -/
def kindLoop : Nat := 0x0B
/-- KIND THERMAL. -/
def kindThermal : Nat := 0x0C
/-- KIND BRINGUP. -/
def kindBringup : Nat := 0x0D
/-- KIND DRAIN. -/
def kindDrain : Nat := 0x0E
/-- KIND REPLACE. -/
def kindReplace : Nat := 0x0F

/-- VERDICT INFO (Table 12.5). -/
def verInfo : Nat := 0
/-- VERDICT TRANSIENT. -/
def verTransient : Nat := 1
/-- VERDICT PERMANENT. -/
def verPermanent : Nat := 2
/-- VERDICT DATA. -/
def verData : Nat := 3
/-- VERDICT INJECTED. -/
def verInjected : Nat := 4

/-- A record's bytes 0 to 27 as dwords (Table 12.3). -/
def LRec.body (r : LRec) : List Dword :=
  let pd := match r.part with | some p => 2 ^ 24 * p + 2 ^ 30 | none => 0
  [dw (r.kind + 2 ^ 8 * r.verdict + 2 ^ 16 * r.unit), dw r.powerup, dw r.time, dw (r.time / 2 ^ 32),
   dw (r.status + 2 ^ 16 * r.count + pd), dw r.d0, dw r.d1]

/-- A record's 32 bytes; the RCRC of a record that was not written whole is open (assumption 3). -/
def LRec.bytes (s : State) (r : LRec) : List Byte :=
  if r = {} then List.replicate 32 0
  else
    let b := dwBytes r.body
    b ++ leBytes 4 (if r.crcOk then crc32c b else (Config.freeValue s.freeCtr).toNat)

/-- A record of an incident now. -/
def mkRec (s : State) (kind ver unit : Nat) (st : Nat := 0) (count : Nat := 0) (part : Option Nat := none) (d0 : Nat := 0)
    (d1 : Nat := 0) : LRec :=
  { kind := kind, verdict := ver, unit := unit, powerup := s.ledger.powerups, time := s.timebase, status := st
    count := min count 255, part := part, d0 := d0, d1 := d1 }

/-- DETAIL0 and DETAIL1 of a CHECK or POISON record (Table 12.4). -/
def checkDetail (addr bundle : Nat) : Nat × Nat := (addr % 2 ^ 32, addr / 2 ^ 32 % 2 ^ 16 + 2 ^ 16 * bundle)

/-! ### Verdicts -/

/-- TCLK ticks in 24 hours. -/
def ticksPerDay : Nat := 8640000000000

/-- The TRANSIENT records of a unit that count under R444: those in the ledger and those whose write is due. -/
def transients (s : State) (unit : Nat) : List LRec :=
  ((s.ledger.recs.map Prod.snd) ++ s.integ.queue).filter (fun r => r.crcOk && r.verdict == verTransient && r.unit == unit)

/-- A further TRANSIENT incident of a unit is its eighth within 24 hours of this power-up, or its thirty-second (R444, R446). -/
def historyFull (s : State) (unit : Nat) : Bool :=
  let ts := transients s unit
  let near := (ts.filter (fun r => r.powerup == s.ledger.powerups && decide (s.timebase ≤ r.time + ticksPerDay))).length
  let lost := (s.integ.dropped.filter (fun d => d.1 == unit && decide (s.timebase ≤ d.2 + ticksPerDay))).length
  decide (7 ≤ near + lost) || decide (31 ≤ ts.length)

/-- The verdict an incident receives, once history and injection have had their say (R444, R451, R457). -/
def finalVerdict (s : State) (r : LRec) (injected : Bool) : Nat :=
  if injected && r.verdict != verInfo then verInjected
  else if r.verdict = verTransient ∧ historyFull s r.unit then verPermanent
  else r.verdict

/-- A record's write is due (R445). -/
def queueRec (r : LRec) (s : State) : State := { s with integ := { s.integ with queue := s.integ.queue ++ [r] } }

/-- An incident is judged: its verdict, the verdict's counter, and its record (R442, R444, R445). -/
def judge (r : LRec) (injected : Bool) (s : State) : State :=
  let v := finalVerdict s r injected
  let s1 := if v = verTransient then bump cntVerdictTransient 0 s else if v = verData then bump cntVerdictData 0 s else s
  queueRec { r with verdict := v } s1

/-! ### Poison (R432) -/

/-- A consumer meets poison at an address: ATTN_POISON_SEEN and the POISON record of its partition. -/
def poisonMet (part unit addr bundle : Nat) (s : State) : State :=
  let d := checkDetail addr bundle
  let s1 := raise attnPoisonSeen (.parts [part]) s
  queueRec (mkRec s1 kindPoison verInfo unit stPoisonConsumed 0 (some part) d.1 d.2) s1

/-- A consumer's job ends with ST_POISON_CONSUMED, which its partition's counter counts. -/
def poisonConsumed (part unit addr bundle : Nat) (s : State) : State := poisonMet part unit addr bundle (bump cntPoisonConsumed part s)

/-- A job that wrote poisoned blocks has ended (R432). -/
def poisonPropagated (part blocks : Nat) (s : State) : State :=
  if blocks = 0 then s else raise attnPoisonSeen (.parts [part]) (bumpBy cntPoisonPropagated part blocks s)

/-! ### Error-correcting codes (R208, R419 to R421, Table 12.11) -/

/-- TCLK ticks in an hour. -/
def ticksPerHour : Nat := 360000000000

/-- An hour has passed since a time, if there is one. -/
def hourSince (last : Option Nat) (now : Nat) : Bool := match last with | some t => decide (t + ticksPerHour ≤ now) | none => true

/-- A unit's corrected errors within the last hour, with the one now. -/
def corrNow (s : State) (unit : Nat) (injected : Bool) : List (Nat × Bool) :=
  (s.timebase, injected) :: (tget s.integ.corr unit).filter (fun e => decide (s.timebase < e.1 + ticksPerHour))

/-- A corrected error: at `limit` of them within an hour a CORR_RATE incident, at most one per unit and hour (Table 12.11).  Errors that
nobody injected make an incident of their own; one that needs the injected ones is INJECTED (R451, R459). -/
def corrected (cid unit limit : Nat) (injected : Bool) (s : State) : State :=
  let s1 := bump cid unit s
  let es := corrNow s1 unit injected
  let real := (es.filter (fun e => !e.2)).length
  let s2 := { s1 with integ := { s1.integ with corr := tset s1.integ.corr unit (es.take limit) } }
  let rec_ := fun n u => mkRec u kindCorr verTransient unit 0 0 none n
  if limit ≤ real then
    if hourSince (tget s2.integ.corrHour unit) s2.timebase then
      let s3 := judge (rec_ real s2) false s2
      { s3 with integ := { s3.integ with corrHour := tset s3.integ.corrHour unit (some s3.timebase) } }
    else s2
  else if limit ≤ es.length && hourSince (tget s2.integ.corrInj unit) s2.timebase then
    let s3 := judge (rec_ es.length s2) true s2
    { s3 with integ := { s3.integ with corrInj := tset s3.integ.corrInj unit (some s3.timebase) } }
  else s2

/-- Mark the 32-byte sector of a device address (R208, R420). -/
def markSector (a : Nat) (s : State) : State := { s with poison := sput s.poison (a / 32) }

/-- An uncorrectable error in a tile store or Loam bank: the sector's mark, the counter, the pattern test, and the word left
zero (R420); its verdict (Table 12.11). -/
def sramUncorr (a : Nat) (passed injected : Bool) (s : State) : State :=
  let u := memUnit a
  let off := match levelOf a with
    | .tile _ => (a - tileBase) % pageSize / 16 * 16
    | _ => ((a - loamBase) / 2 ^ 14 * 512 + (a - loamBase) % 512) / 16 * 16
  let s1 := bump cntSramUncorr u { s with mem := putBytes s.mem (a / 16 * 16) (List.replicate 16 0) }
  judge (mkRec s1 kindSram (if passed then verTransient else verPermanent) u 0 0 none off (b2n passed)) injected (markSector a s1)

/-- An uncorrectable error in HBM: the 32 bytes are marked (R208), PERMANENT when the same 32 bytes already carry a record of
this power-up (Table 12.11). -/
def hbmUncorr (a : Nat) (injected : Bool) (s : State) : State :=
  let u := unitId 0x07 (stackOf a)
  let a32 := a / 32 * 32
  let s1 := bump cntHbmUncorr u (markSector a s)
  let again := ((s1.ledger.recs.map Prod.snd) ++ s1.integ.queue).any (fun r =>
    r.crcOk && r.kind == kindHbm && r.powerup == s1.ledger.powerups && r.d0 == a32 % 2 ^ 32 && r.d1 == a32 / 2 ^ 32)
  judge (mkRec s1 kindHbm (if again then verPermanent else verTransient) u 0 0 none (a32 % 2 ^ 32) (a32 / 2 ^ 32)) injected s1

/-- What an access of device memory at `a` finds (R208, R419, R420, R442). -/
def eccAt (a : Nat) (f : EccFinding) (injected : Bool) (s : State) : State :=
  match f, levelOf a with
  | .clean, _ => s
  | .corrected, .hbm => corrected cntHbmCorr (memUnit a) 4096 injected s
  | .corrected, _ => corrected cntSramCorr (memUnit a) 64 injected s
  | .uncorrectable _, .hbm => hbmUncorr a injected s
  | .uncorrectable ok, _ => sramUncorr a ok injected s

/-- An error in a word of an operand slot, an accumulator, the context cache or Owl's record buffer, of unit `unit`: the counter,
and the incident of an uncorrectable one, judged by its pattern test (R419, R431, Table 12.11).  Where in the unit the word lies is
open (assumption 3). -/
def wordEcc (unit st : Nat) (part : Option Nat) (f : EccFinding) (injected : Bool) (s : State) : State :=
  match f with
  | .clean => s
  | .corrected => bump cntSramCorr unit s
  | .uncorrectable ok =>
    judge (mkRec s kindSram (if ok then verTransient else verPermanent) unit st 0 part ((Config.freeValue s.freeCtr).toNat % 2 ^ 32) (b2n ok))
      injected (drawFree (bump cntSramUncorr unit s))

/-- An error in a packer's staging buffer or in bundle memory: the counter (R419, R431). -/
def countEcc (unit : Nat) (f : EccFinding) (s : State) : State :=
  match f with
  | .clean => s
  | .corrected => bump cntSramCorr unit s
  | .uncorrectable _ => bump cntSramUncorr unit s

/-- An error in a memory of the command processor or of the ledger controller: an uncorrectable one is PERMANENT (R418, R442). -/
def controlEcc (unit : Nat) (f : EccFinding) (s : State) : State :=
  match f with
  | .clean => s
  | .corrected => bump cntSramCorr unit s
  | .uncorrectable ok =>
    judge (mkRec s kindSram verPermanent unit stOk 0 none ((Config.freeValue s.freeCtr).toNat % 2 ^ 32) (b2n ok)) false
      (drawFree (bump cntSramUncorr unit s))

/-- An error that stops its reader. -/
def fatalEcc (f : EccFinding) : Bool := match f with | .uncorrectable _ => true | _ => false

/-! ### Drain (R447, Table 12.12) -/

/-- A condition bit's condition begins (R336). -/
def beginCondition (b : Nat) (s : State) : State := raise b .all s

/-- Step 1 of a drain. -/
def beginDrain (suspect : Bool) (unit : Nat) (slot : Option Nat) (reason : Nat) (s : State) : State :=
  let d0 := if suspect then 2 ^ 31 + slot.getD 0 else reason
  let s1 := { s with integ := { s.integ with
    dstate := .draining, drainSuspect := suspect, drainUnit := unit, drainSlot := slot, drainStart := s.timebase, drainOver := false } }
  queueRec (mkRec s1 kindDrain verInfo (if suspect then unit else unitId 0x0D 0) 0 0 none d0 s1.integ.deadline)
    (beginCondition attnDrainRequested s1)

/-- A PERMANENT verdict has been recorded in `slot`: a suspect drain begins, or an operator drain takes the suspect cause
(R383, R447, R455, R456). -/
def suspectDrain (unit slot : Nat) (s : State) : State :=
  match s.integ.dstate with
  | .running => beginDrain true unit (some slot) 0 s
  | .draining =>
    if s.integ.drainSuspect then s
    else { s with integ := { s.integ with drainSuspect := true, drainUnit := unit, drainSlot := some slot } }
  | .retired => s

/-- The REPLACE record of a drain's end (R447). -/
def replaceRec (s : State) : LRec :=
  mkRec s kindReplace verInfo s.integ.drainUnit 0 0 none (s.integ.drainSlot.getD 0)

/-- Step 4 of a suspect drain: the REPLACE record, ATTN_REPLACE, RETIRED (R447). -/
def retire (s : State) : State :=
  let s1 := queueRec (replaceRec s) s
  beginCondition attnReplace { s1 with integ := { s1.integ with dstate := .retired } }

/-! ### Writing a record (R445, R446) -/

/-- The oldest used slot whose record satisfies `f`. -/
def oldestWhere (s : State) (f : LRec → Bool) : Option Nat := s.ledger.order.find? (fun k => f (tget s.ledger.recs k))

/-- The slot that a record takes in a full ledger, if any (R446). -/
def overwriteSlot (s : State) (r : LRec) : Option Nat :=
  if !(r.verdict == verPermanent || r.kind == kindDrain || r.kind == kindReplace) then none
  else
    (oldestWhere s (fun q => !q.crcOk)).orElse fun _ =>
    (oldestWhere s (fun q => (q.verdict == verInfo && q.kind != kindDrain && q.kind != kindReplace) || q.verdict == verInjected ||
      q.verdict == verData)).orElse fun _ =>
    (oldestWhere s (fun q => q.verdict == verTransient)).orElse fun _ =>
    if r.kind == kindReplace then
      (oldestWhere s (fun q => q.kind == kindDrain)).orElse fun _ =>
      s.ledger.order.find? (fun k => (tget s.ledger.recs k).verdict == verPermanent && k != r.d0)
    else none

/-- The slot at which a record is written (R445, R446). -/
def slotFor (s : State) (r : LRec) : Option Nat :=
  if 4096 ≤ s.ledger.recs.length then overwriteSlot s r
  else match s.ledger.order.getLast? with
    | some k => some ((k + 1) % 4096)
    | none => some 0

/-- Put a record in a slot, which becomes the newest; ATTN_LEDGER_NEAR_FULL at 3,584 used records. -/
def putRec (k : Nat) (r : LRec) (s : State) : State :=
  let l := s.ledger
  let recs := tput l.recs k r
  let s1 := bump cntLedgerWrite 0 { s with ledger := { l with recs := recs, order := l.order.filter (· != k) ++ [k] } }
  if l.recs.length < 3584 ∧ recs.length = 3584 then raise attnLedgerNearFull .admin s1 else s1

/-- Take the record at the front of the queue away. -/
def unqueue (s : State) : State := { s with integ := { s.integ with queue := s.integ.queue.tail } }

/-- A record that a full ledger does not take (R446). -/
def dropRec (r : LRec) (s : State) : State :=
  let s1 := bump cntLedgerDrop 0 (unqueue s)
  let s2 := if r.verdict = verTransient then { s1 with integ := { s1.integ with dropped := s1.integ.dropped ++ [(r.unit, r.time)] } } else s1
  if r.verdict = verPermanent then suspectDrain r.unit (freeBelow s2 4096) (drawFree s2) else s2

/-- Write the record at the front of the queue (R445, R446); a failed verify leaves an invalid record and the record still to
be written. -/
def writeRec (verified : Bool) (s : State) : State :=
  match s.integ.queue with
  | [] => s
  | r :: _ =>
    match slotFor s r with
    | none => dropRec r s
    | some k =>
      if verified then
        let s1 := putRec k r (unqueue s)
        if r.verdict = verPermanent then suspectDrain r.unit k s1 else s1
      else bump cntLedgerWriteFail 0 (putRec k { r with crcOk := false } s)

end Sys2Proof.Machine
end

