-- ==== Sys2Proof/Machine/Probes.lean ====
section
/-! DEFINITION. What Owl's probes observe of a packet: the ports it crosses, matching, counting and PACKET records (R509 to R514,
R528). -/

namespace Sys2Proof.Machine

/-! ### Matching, counting and records (R513, R514, Table 14.5) -/

/-- A packet matches a probe (R513). -/
def Probe.matches (p : Probe) (k : NocPkt) : Bool :=
  (BitVec.ofNat 64 (nocH1 k * 2 ^ 32 + nocH0 k) ^^^ p.pmatch) &&& p.mask == 0

/-- The domain whose fence stands at a router (R252). -/
def routerDom (r : Nat) : Option Nat :=
  match routerTile r with
  | some t => some (quadOf t)
  | none => (routerPeloc r).map (0x10 + ·)

/-- A router is fenced. -/
def routerFenced (s : State) (r : Nat) : Bool := ((routerDom r).bind (fenceOf s)).isSome

/-- A PACKET record. -/
def packetRecord (n : Nat) (k : NocPkt) (c : Crossing) (now : Nat) : List Dword :=
  [dw (0x1 + 2 ^ 4 * n + 2 ^ 8 * b2n c.toEndpoint + 2 ^ 9 * b2n c.lane + 2 ^ 10 * b2n (k.pois.any (fun g => decide (g < 8))) +
      2 ^ 11 * (nocFlits k % 2 ^ 5) + 2 ^ 16 * (k.reason % 2 ^ 4)),
   dw now, dw (nocH0 k), dw (nocH1 k), dw k.addr, dw (k.addr / 2 ^ 32 % 2 ^ 16 + 2 ^ 16 * (k.status % 2 ^ 16)), dw k.mask.toNat, dw (k.mask.toNat / 2 ^ 32)]

/-- Probe `n` counts `m` more (R514, R518, R535). -/
def countProbe (n m : Nat) (s : State) : State :=
  let p := tget s.owl.probes n
  let old := min p.count 0xFFFFFFFF
  let q := { p with count := min (p.count + m) (2 ^ 64 - 1) }
  fireThresholds { s with owl := { s.owl with probes := tset s.owl.probes n q } } (0x0E10 + n) 0 old (min q.count 0xFFFFFFFF)

/-- Probe `n` sees a packet at an observation point. -/
def probeSees (k : NocPkt) (c : Crossing) (n : Nat) (s : State) : State :=
  let p := tget s.owl.probes n
  if p.mode = 0 ∨ p.router ≠ c.router ∨ p.rport ≠ c.rport then s
  else if p.matches k then
    let s1 := countProbe n (if p.mode = 1 then nocFlits k else 1) s
    if p.mode = 3 then owlRecord (packetRecord n k c s.timebase) s1 else s1
  else s

/-- A packet passes an observation point: the probes of a fenced router see nothing (R528). -/
def observeAt (k : NocPkt) (s : State) (c : Crossing) : State :=
  if routerFenced s c.router then s else (List.range 16).foldl (fun u n => probeSees k c n u) s

/-- A packet has crossed these links; Owl's own are not observed (R510). -/
def observeOn (k : NocPkt) (path : List Crossing) (s : State) : State :=
  if k.src = owlRouter ∧ k.sport = 0 then s
  else if (List.range 16).all (fun n => (tget s.owl.probes n).mode == 0) then s
  else path.foldl (observeAt k) s

/-- A packet that the mesh does not hold passes from its source to its end. -/
def observePkt (k : NocPkt) (s : State) : State := observeOn k (crossings k s.mesh) s

end Sys2Proof.Machine
end

