-- ==== Sys2Proof/Machine/Carry.lean ====
section
/-! DEFINITION. What a destination does with a damaged packet (R244, R245), and the packets of the units whose traffic the model carries
within one event: codec engines, packers, the stream context manager, the command processor, the host interface, Peloc ports' pushes and
link multicasts, and Kestrel (R240, R246, R253, R254; assumption 145). -/

namespace Sys2Proof.Machine

/-! ### Damage (R244, R245) -/

/-- A router's unit identifier. -/
def routerUnit (r : Nat) : Nat := unitId 0x0A r

/-- The record of a parity error at a router (Table 12.4): the word's place within the damaged part is open (assumption 3). -/
def parityRec (k : NocPkt) (r word : Nat) (injected : Bool) (s : State) : State :=
  judge (mkRec s kindNoc verTransient (routerUnit r) 0 0 none (k.src + 2 ^ 8 * (word + freeBelow s 4)) k.typ) injected (drawFree s)

/-- A packet is discarded at a router (R245). -/
def dropPkt (r : Nat) (s : State) : State := bump cntNocHdrDrop (routerUnit r) s

/-- Payload sectors that fail parity at a router: each is counted and recorded. -/
def countParity (k : NocPkt) (r : Nat) (injected : Bool) (ss : List Nat) (s : State) : State :=
  ss.foldl (fun u i => parityRec k r (4 + 4 * (i % 8)) injected (bump cntNocParity (routerUnit r) u)) s

/-! ### Packets that are carried at once -/

/-- A packet goes from its endpoint to its destination within an event: probes see it, an injected fault strikes it.  Answers it as it is
taken there, or nothing where its header was damaged (R244, R245, Table 12.7). -/
def carry (k : NocPkt) (s : State) : Option NocPkt × State :=
  let d := injectNoc (plainPkt k) s
  let s1 := observePkt (plainPkt k) d.2
  if d.1.header then (none, dropPkt k.dest (parityRec k k.dest 0 true s1))
  else (some { plainPkt k with pois := (k.pois ++ d.1.sectors).eraseDups }, countParity k k.dest true d.1.sectors s1)

/-- A place from which a unit's requests go out: its router and local port. -/
abbrev Via := Nat × Nat

/-- The host interface. -/
def viaHost : Via := (hostRouter, 0)
/-- The command processor. -/
def viaProc : Via := (procRouter, 0)
/-- The stream context manager. -/
def viaCtx : Via := ctxPlace
/-- Kestrel. -/
def viaKestrel : Via := (kestrelRouter, 0)
/-- A codec engine. -/
def viaEngine (j : Nat) : Via := (engineRouter j, 3)
/-- A tile. -/
def viaTile (t : Nat) : Via := (tileRouter t, 0)
/-- A Peloc port. -/
def viaPeloc (p : Nat) : Via := (pelocRouter p, 2)

/-- A request to the host interface or a Peloc port is not timed (R246). -/
def timed (k : NocPkt) : Bool := k.dest != hostRouter && !(k.dport == 2 && (routerPeloc k.dest).isSome)

/-- A request has no response in time (R246). -/
def requestLost (via : Via) (k : NocPkt) (s : State) : State := if timed k then bump cntNocTimeout (routerUnit via.1) s else s

/-- A domain's fence refuses a request: the request and the NACK travel, and the requester's router counts it (R253, R254). -/
def fenceRefuses (via : Via) (k : NocPkt) (hint : Nat) (s : State) : State :=
  match carry k s with
  | (none, t) => requestLost via k t
  | (some k1, t) => (carry (answerPkt k1 0x0A stDomainFenced hint [] []) (bump cntNocFenceNack (routerUnit via.1) t)).2

/-- A request of a place, with a tag of its own. -/
def tagged (k : NocPkt) (s : State) : NocPkt := { k with tag := (freeTag s k.src k.sport).getD 0 }

end Sys2Proof.Machine
end

