-- ==== Sys2Proof/Machine/Access.lean ====
section
/-! DEFINITION. Reading and writing memory for partitions and as SYS traffic: device memory with injected errors that wait in it
(R419 to R421, R429), and host and peer memory behind spilled and mapped pages (R214, R215). -/

namespace Sys2Proof.Machine

/-! ### Tiles in pairs (R437) -/

/-- The program that runs on a tile. -/
def progOf (s : State) (t : Nat) : Prog :=
  match (tget s.tiles t).prog with
  | some k => tget s.progs k
  | none => {}

/-- The shadow of a tile that leads a DUAL pair. -/
def shadowOf (s : State) (t : Nat) : Option Nat :=
  let p := progOf s t
  if p.running ∧ p.mode = .dual then some (t + 1) else none

/-- A tile is the shadow of a running DUAL pair. -/
def isShadow (s : State) (t : Nat) : Bool := t % 2 == 1 && (shadowOf s (t - 1)).isSome

/-- A tile and its shadow. -/
def pairOf (s : State) (t : Nat) : List Nat :=
  match shadowOf s t with
  | some u => [t, u]
  | none => [t]

/-- Change a tile. -/
def onTile (t : Nat) (f : Tile → Tile) (s : State) : State := { s with tiles := tmod s.tiles t f }

/-- Change a tile and its shadow. -/
def onPair (t : Nat) (f : Tile → Tile) (s : State) : State := (pairOf s t).foldl (fun u k => onTile k f u) s

/-! ### Bad words of memory (R208, R419, R420, Table 12.7) -/

/-- What a read finds in a bad word of a kind: 0 to 3 are the injected kinds of Table 12.7; 10, 11 and 13 are errors that nobody
injected, corrected, uncorrectable with the pattern test passed, and failed. -/
def latentFinding (kind : Nat) : EccFinding := if kind % 2 = 0 then .corrected else .uncorrectable (kind != 13)

/-- The kind of a word in which a code finds something that nobody injected. -/
def latentKind (f : EccFinding) : Option Nat :=
  match f with
  | .clean => none
  | .corrected => some 10
  | .uncorrectable ok => some (if ok then 11 else 13)

/-- Bytes of a code word at a device address (R421). -/
def wordSize (a : Nat) : Nat := if (levelOf a) = .hbm then 32 else 16

/-- The bad words that touch [a, a + n). -/
def latentIn (s : State) (a n : Nat) : List (Nat × Nat) :=
  s.integ.latent.filter (fun l => decide (l.1 < a + n) && decide (a < l.1 + wordSize l.1))

/-- Words go bad, each known by its first byte. -/
def spoilWords (ws : List (Nat × EccFinding)) (s : State) : State :=
  let bad := ws.filterMap (fun w => (latentKind w.2).map (fun k => (w.1 / wordSize w.1 * wordSize w.1, k)))
  { s with integ := { s.integ with latent := s.integ.latent ++ bad } }

/-- A read finds bad words: the code's effects on each, which leave the word good (R419, R420, R451). -/
def surface (ls : List (Nat × Nat)) (s : State) : State :=
  ls.foldl (fun t l =>
    eccAt l.1 (latentFinding l.2) (decide (l.2 < 8))
      { t with integ := { t.integ with latent := t.integ.latent.filter (· != l) } }) s

/-- A write over bad words: a word written whole detects nothing, one written in part is read first (R421). -/
def coverLatent (a n : Nat) (s : State) : State :=
  let ls := latentIn s a n
  let whole := fun l : Nat × Nat => decide (a ≤ l.1) && decide (l.1 + wordSize l.1 ≤ a + n)
  let s1 := { s with integ := { s.integ with latent := s.integ.latent.filter (fun l => !(ls.contains l && whole l)) } }
  surface (ls.filter (fun l => !whole l)) s1

/-- The kinds of memory error that may be armed on the unit at a device address. -/
def memKinds (a : Nat) : List Nat := if (levelOf a) = .hbm then [2, 3] else [0, 1]

/-- A write meets the armed memory errors of the units that it reaches: each strikes a word written there, in order (Table 12.7). -/
def plantFaults (a n : Nat) (s : State) : State :=
  if s.integ.inject.isEmpty then s
  else
    (runsOf (wordSize a) (n / wordSize a + 2) a n).foldl (fun t r =>
      (memKinds r.1).foldl (fun u k =>
        if armed u (memUnit r.1) k then
          let v := takeInject (memUnit r.1) k u
          { v with integ := { v.integ with latent := v.integ.latent ++ [(r.1 / wordSize r.1 * wordSize r.1, k)] } }
        else u) t) s

/-- Zeros with valid check bits over [a, a + n), which reach the words as any write does (R200, R204, R395). -/
def zeroRange (a n : Nat) (s : State) : State := plantFaults a n (memZero a n (coverLatent a n s))

/-- The granules of [a, a + n) that touch a marked sector, as offsets in units of 16 bytes. -/
def badGranules (s : State) (a n : Nat) : List Nat :=
  (List.range ((n + 15) / 16)).filter (fun j => !(markedIn s (a + 16 * j) (min 16 (n - 16 * j))).isEmpty)

/-- What is written into a leader's store is also written into its shadow's (R437). -/
def mirrorStore (a n : Nat) (s : State) : State :=
  match levelOf a with
  | .tile t =>
    match shadowOf s t with
    | some _ => memPutBad (a + pageSize) (memBytes s a n) (badGranules s a n) s
    | none => s
  | _ => s

/-- A device address lies in the store of a shadow, which takes no packet in its own right (R437). -/
def inShadow (s : State) (a : Nat) : Bool := match levelOf a with | .tile t => isShadow s t | _ => false

/-! ### Spilled accesses (R214, R215) -/

/-- ATTN_SPILL for a partition. -/
def raiseSpill (part : Nat) (s : State) : State := raise attnSpill (.parts [part]) s

/-- Count one spilled access: one per 256 bytes or part of 256 bytes (Table 06.8). -/
def countSpill (part : Nat) (wr : Bool) (p : Piece) (s : State) : State :=
  if p.spilled then
    let units := if p.len = 0 then 0 else (p.dev + p.len - 1) / 256 + 1 - p.dev / 256
    let cid := match levelOf p.dev with
      | .host => if wr then cntSpillHostWr else cntSpillHostRd
      | _ => if wr then cntSpillPeerWr else cntSpillPeerRd
    raiseSpill part (bumpBy cid part units s)
  else s

/-- Count the failure of a spilled access (R215). -/
def countSpillError (part : Nat) (p : Piece) (s : State) : State :=
  if p.spilled then raiseSpill part (bump cntSpillError part s) else s

/-- The transport to a host or peer address cannot carry a request at all: no host spill region or an unusable function
(R212, R574), or a Peloc port that is not up (R302). -/
def noTransport (s : State) (a : Nat) : Bool :=
  match levelOf a with
  | .host =>
    match s.hostSpill with
    | some r => decide (r.count * pageSize ≤ a - hostBase) || !canMaster s r.fn
    | none => true
  | .peer p => !(decide ((tget s.pel p).st = .active) || decide ((tget s.pel p).st = .sleep))
  | _ => false

/-- The bytes that outside memory holds: nothing fixes them (assumption 4). -/
def outsideBytes (s : State) (a : Nat) (n : Nat) : List Byte :=
  (List.range n).map (fun i => Config.freeByte s.freeCtr (a + i))

/-- A free truth value (assumption 3). -/
def freeBool (s : State) : Bool := freeBelow s 2 == 1

/-- A failed host-spill read is counted as a timeout, an error completion or a poisoned one: which of them is free (R574,
assumption 4). -/
def countHostFault (a : Nat) (s : State) : State :=
  match levelOf a, s.hostSpill with
  | .host, some r =>
    bump (match freeBelow s 3 with | 0 => cntPcieCplTimeout | 1 => cntPcieCplErr | _ => cntPciePoisonRx) (unitId 0x0C r.fn) (drawFree s)
  | _, _ => s

/-- Insert the run [a, b) in an ordered list of disjoint runs, joining those that touch it. -/
def joinRun (a b : Nat) : List (Nat × Nat) → List (Nat × Nat)
  | [] => [(a, b)]
  | (c, d) :: r =>
    if b < c then (a, b) :: (c, d) :: r
    else if d < a then (c, d) :: joinRun a b r
    else joinRun (min a c) (max b d) r

/-- A write to outside memory that succeeds covers part of a poisoned page; once all of it has been written the page is
clean (R215). -/
def PageMark.write (m : PageMark) (off n : Nat) : PageMark :=
  if m.bad then
    let r := joinRun off (off + n) m.again
    if r = [(0, pageSize)] then {} else { m with again := r }
  else m

/-- Read one piece for a partition (`none`: SYS traffic): its bytes, the granules that arrive poisoned as offsets in units of
16 bytes, and the state after (R196, R214, R215, R421).  Whether outside memory answers is free (assumption 4). -/
def readPiece (part : Option Nat) (p : Piece) (s : State) : List Byte × List Nat × State :=
  if (levelOf p.dev).onChip then
    let t := surface (latentIn s p.dev p.len) s
    (memBytes t p.dev p.len, badGranules t p.dev p.len, t)
  else
    let all := List.range ((p.len + 15) / 16)
    let s0 := match part with | some q => countSpill q false p s | none => s
    let fails := noTransport s p.dev || freeBool s
    let bytes := outsideBytes (drawFree s) p.dev p.len
    let s1 := drawFree (drawFree s0)
    if fails then
      let s1 := if noTransport s p.dev then s1 else countHostFault p.dev s1
      (List.replicate p.len 0, all, match part with | some q => countSpillError q p s1 | none => s1)
    else (bytes, if (tget s.pagePoison (p.dev / pageSize)).bad then all else [], s1)

/-! ### Requests of a unit (R240, R246, R253, R254) -/

/-- Cut runs of device addresses so that none crosses a target boundary. -/
def cutRuns (ps : List Piece) : List (Nat × Nat) :=
  ps.flatMap (fun p => runsOf (boundaryOf p.dev) (p.len / boundaryOf p.dev + 2) p.dev p.len)

/-- The runs of pieces between target boundaries, each spilled as its piece is (R240). -/
def cutPieces (ps : List Piece) : List Piece :=
  ps.flatMap (fun p => (cutRuns [p]).map (fun r => { dev := r.1, len := r.2, spilled := p.spilled }))

/-- What a unit's accesses to memory come to: a status of 0, or that of the refusal with the request that a fence refused; the bytes read,
the granules of them that arrived poisoned, and whether a read had no response in time; and the state after. -/
structure Got where
  st : Nat := 0
  fence : Option Fenced := none
  bytes : List Byte := []
  bad : List Nat := []
  late : Bool := false
  s : State := {}
  deriving Inhabited

/-- Granules of 16 bytes in a run. -/
def granulesOf (n : Nat) : Nat := (n + 15) / 16

/-- One RD: its bytes, the granules that arrive poisoned, whether there was no response in time, and the state after; an RD without a
response delivers poisoned bytes (R246). -/
def readRun (via : Via) (part : Option Nat) (p : Piece) (s : State) : Got :=
  let k := tagged (rdPkt via.1 via.2 (part.getD 0) part.isNone (p.dev / 16 * 16) (16 * granulesOf (p.dev % 16 + p.len))) s
  let lost := fun t => { bytes := List.replicate p.len 0, bad := List.range (granulesOf p.len), late := timed k, s := requestLost via k t : Got }
  match carry k s with
  | (none, t) => lost t
  | (some k1, t) =>
    let r := readPiece part p t
    let sent := toSectors r.2.1
    match carry (answerPkt k1 0x08 0 0 r.1 sent) r.2.2 with
    | (none, u) => lost u
    | (some k2, u) =>
      let struck := (toGranules (k2.pois.filter (fun x => !sent.contains x))).filter (fun g => decide (g < granulesOf p.len))
      { bytes := r.1, bad := (r.2.1 ++ struck).eraseDups, s := u }

/-- RDs in order; poisoned granules are offsets in the whole. -/
def readRuns (via : Via) (part : Option Nat) : Nat → List Piece → State → Got
  | _, [], s => { s := s }
  | o, p :: r, s =>
    let x := readRun via part p s
    let y := readRuns via part (o + p.len) r x.s
    { bytes := x.bytes ++ y.bytes, bad := x.bad.map (· + o / 16) ++ y.bad, late := x.late || y.late, s := y.s }

/-- A live window holds a device page. -/
def pageMapped (s : State) (pg : Nat) : Bool :=
  s.windows.any (fun e => (e.2.valid || e.2.zeroing) && ((e.2.sppage, e.2.spilled) :: e.2.ext).any (fun r => decide (r.1 ≤ pg) && decide (pg < r.1 + r.2)))

/-- A page of outside memory is poisoned for as long as a window holds it (R215). -/
def forgetPages (s : State) : State := { s with pagePoison := tfilter (fun pg _ => pageMapped s pg) s.pagePoison }

/-- A write to outside memory has been refused: a window's page is poisoned (R215). -/
def markPage (a : Nat) (s : State) : State :=
  if pageMapped s (a / pageSize) then { s with pagePoison := tset s.pagePoison (a / pageSize) { bad := true } } else s

/-- Write one piece for a partition; `bad` lists the poisoned granules of `data` (R214, R215, R421). -/
def writePiece (part : Option Nat) (p : Piece) (data : List Byte) (bad : List Nat) (s : State) : State :=
  if (levelOf p.dev).onChip then
    let t := coverLatent p.dev p.len s
    mirrorStore p.dev p.len (plantFaults p.dev p.len (if bad.isEmpty then memPut p.dev data t else memPutBad p.dev data bad t))
  else
    let s0 := match part with | some q => countSpill q true p s | none => s
    let pg := p.dev / pageSize
    let off := p.dev % pageSize
    let fails := noTransport s p.dev || (decide (levelOf p.dev ≠ .host) && freeBool s)
    let s1 := drawFree s0
    if fails then
      match part with | some q => countSpillError q p (markPage p.dev s1) | none => markPage p.dev s1
    else
      let s2 := { s1 with pagePoison := tmod s1.pagePoison pg (fun m => m.write off p.len) }
      match levelOf p.dev, s.hostSpill with
      | .host, some r => hostWrite true r.fn (r.base + (p.dev - hostBase)) data s2
      | _, _ => s2

/-- One WR: whether there was no response in time, and the state after (R246). -/
def writeRun (via : Via) (part : Option Nat) (p : Piece) (data : List Byte) (bad : List Nat) (s : State) : Bool × State :=
  let k := tagged (wrPkt via.1 via.2 (part.getD 0) part.isNone (p.dev / 16 * 16) data (toSectors bad)) s
  match carry k s with
  | (none, t) => (timed k, requestLost via k (if timed k then t else markPage p.dev t))
  | (some k1, t) =>
    let struck := (toGranules (k1.pois.filter (fun x => !(toSectors bad).contains x))).filter (fun g => decide (g < granulesOf p.len))
    match carry (answerPkt k1 0x09 0 0 [] []) (writePiece part p data (bad ++ struck) t) with
    | (none, u) => (timed k, requestLost via k u)
    | (some _, u) => (false, u)

/-- WRs of bytes over runs in order. -/
def writeRuns (via : Via) (part : Option Nat) : List Piece → List Byte → List Nat → State → Bool × State
  | [], _, _, s => (false, s)
  | p :: r, data, bad, s =>
    let k := granulesOf p.len
    let x := writeRun via part p (data.take p.len) (bad.filter (· < k)) s
    let y := writeRuns via part r (data.drop p.len) ((bad.filter (k ≤ ·)).map (· - p.len / 16)) x.2
    (x.1 || y.1, y.2)

/-- The first piece behind a fence, and the fence's HINT. -/
def fencedPiece (s : State) (ps : List Piece) : Option (Piece × Nat) := ps.findSome? (fun p => (fenceAt s p.dev).map (fun h => (p, h)))

/-- A fence turns a request away: it and its NACK travel (R253, R254). -/
def turnedAway (via : Via) (part : Option Nat) (f : Fenced) (s : State) : State :=
  let k := if f.wr then wrPkt via.1 via.2 (part.getD 0) part.isNone f.dev (List.replicate f.len 0) []
    else rdPkt via.1 via.2 (part.getD 0) part.isNone f.dev f.len
  fenceRefuses via (tagged k s) f.hint s

/-- The HINT of the fence that refused an access. -/
def Got.hint (g : Got) : Nat := (g.fence.map (·.hint)).getD 0xFFFF

/-- Why an access failed. -/
def Got.stop (g : Got) : Stop := { st := g.st, fence := g.fence }

/-- A requester that met a fence may ask again: at most 16 times, and not where no return is scheduled (R254). -/
def Stop.again (x : Stop) (tries : Nat) : Option Fenced := x.fence.filter (fun f => decide (tries < 16) && f.hint != 0xFFFF)

/-- The reply to a command whose own access could not be carried out: a fence's HINT is its result, and a request without a response in
time ends it (R246, R254). -/
def Got.reply (g : Got) : Reply :=
  if g.late then { status := stNocTimeout }
  else { status := g.st, result := match g.fence with | some f => [dw f.hint] | none => [] }

/-- Read pieces, unless a fence stands before one of them or one lies in a shadow's store. -/
def readPieces (via : Via) (part : Option Nat) (ps : List Piece) (s : State) : Got :=
  if ps.any (fun p => inShadow s p.dev) then { st := stTileBusy, s := s }
  else match fencedPiece s ps with
  | some (p, h) =>
    let f : Fenced := { dev := p.dev, len := p.len, hint := h }
    { st := stDomainFenced, fence := some f, s := turnedAway via part f s }
  | none => readRuns via part 0 (cutPieces ps) s

/-- Write bytes over pieces, unless a fence stands before one of them or one lies in a shadow's store; a write without a response in time
ends with ST_NOC_TIMEOUT. -/
def writePieces (via : Via) (part : Option Nat) (ps : List Piece) (data : List Byte) (bad : List Nat) (s : State) : Got :=
  if ps.any (fun p => inShadow s p.dev) then { st := stTileBusy, s := s }
  else match fencedPiece s ps with
  | some (p, h) =>
    let f : Fenced := { dev := p.dev, len := p.len, wr := true, hint := h }
    { st := stDomainFenced, fence := some f, s := turnedAway via part f s }
  | none =>
    let r := writeRuns via part (cutPieces ps) data bad s
    { st := if r.1 then stNocTimeout else 0, late := r.1, s := r.2 }

/-- Read [a, a + n) on behalf of a partition; `st` names the check that fails. -/
def partRead (via : Via) (part a n : Nat) (s : State) : Got :=
  match xlate s part false a n with
  | .error e => { st := e, s := s }
  | .ok ps => readPieces via (some part) ps s

/-- Write bytes at partition address `a`: every byte passes or none is written (R196). -/
def partWrite (via : Via) (part a : Nat) (data : List Byte) (bad : List Nat) (s : State) : Got :=
  match xlate s part true a data.length with
  | .error e => { st := e, s := s }
  | .ok ps => writePieces via (some part) ps data bad s

/-- A range of device addresses as pieces. -/
def devPieces (a n : Nat) : List Piece := (runsOf pageSize (n / pageSize + 2) a n).map (fun r => { dev := r.1, len := r.2 })

/-- Read device memory or what lies behind it as SYS traffic. -/
def sysRead (via : Via) (a n : Nat) (s : State) : Got := readPieces via none (devPieces a n) s

/-- Write as SYS traffic with good check bits. -/
def sysWrite (via : Via) (a : Nat) (data : List Byte) (s : State) : Got := writePieces via none (devPieces a data.length) data [] s

/-- A partition's window has spilled the page of a device address (R210). -/
def spilledFor (s : State) (part a : Nat) : Bool :=
  (windowsOf s part).any (fun e => e.2.valid && decide (e.2.sppage ≤ a / pageSize) && decide (a / pageSize < e.2.sppage + e.2.spilled))

/-- The piece of a partition's memory at a device address. -/
def pieceFor (s : State) (part a n : Nat) : Piece := { dev := a, len := n, spilled := spilledFor s part a }

/-- The failure of an access to outside memory that a partition's packet asked for (R214, R215). -/
def accessFailed (k : NocPkt) (s : State) : State :=
  if k.sys then s else countSpillError k.part (pieceFor s k.part k.addr (16 * k.len)) s

/-- A read of outside memory that a packet asked for has failed: its data arrive poisoned (R215). -/
def readFailed (k : NocPkt) (s : State) : State :=
  sendPkt (answerPkt k 0x08 0 0 (List.replicate (16 * k.len) 0) (toSectors (List.range k.len))) (accessFailed k s)

/-- A read of host memory that a packet asked for has ended: its bytes, of which those of a poisoned page and those in the granules `bad`
arrive poisoned; a failure counts (R215, Table 16.10). -/
def readServed (k : NocPkt) (bytes : List Byte) (bad : List Nat) (failed : Bool) (s : State) : State :=
  sendPkt (answerPkt k 0x08 0 0 bytes (toSectors (if (tget s.pagePoison (k.addr / pageSize)).bad then List.range k.len else bad)))
    (if failed then accessFailed k s else s)

end Sys2Proof.Machine
end

