-- ==== Sys2Proof/Machine/Flags.lean ====
section
/-! DEFINITION. The checks that every command passes (Table 09.12): the opcodes with their attributes (Table 10.3), reserved
parameter bits, privilege, partition scope and device state. -/

namespace Sys2Proof.Machine

/-! ### Opcodes and attributes (R348, R358) -/

/-- Scope of an opcode (Table 10.1); QP_CREATE's follows its BOUND bit. -/
inductive OpScope where
  | dev | part | either
  deriving DecidableEq, Repr

/-- Class of an opcode under check 8 (Table 10.1). -/
inductive OpClass where
  | diag | job | other
  deriving DecidableEq, Repr

/-- An opcode's attributes: privilege, scope, PLEN range, class, HW, PEND, stageable, and the parameter bits that its entry
names, by dword from DW4 (R350; a dword that the list does not reach is named whole, or checked by the entry itself). -/
structure OpAttr where
  op : Nat := 0
  admin : Bool := false
  scope : OpScope := .dev
  lo : Nat := 0
  hi : Nat := 0
  cls : OpClass := .other
  hw : Bool := false
  pend : Bool := false
  staged : Bool := false
  mask : List Nat := []

/-- Every bit of a dword. -/
def allBits : Nat := 0xFFFFFFFF

/-- Table 10.3, group 0x00xx. -/
def opsBringup : List OpAttr := [
  { op := 0x0000, cls := .diag },
  { op := 0x0001, cls := .diag, hw := true },
  { op := 0x0002, cls := .diag, hw := true },
  { op := 0x0003, cls := .diag, hw := true },
  { op := 0x0010, lo := 2, hi := 2, cls := .diag, mask := [0xFFFF] },
  { op := 0x0011, lo := 3, hi := 3, cls := .diag, mask := [0x11F] },
  { op := 0x0012, lo := 4, hi := 4, cls := .diag, mask := [0xFFFFFF, 0xFFFF] },
  { op := 0x0013, admin := true, lo := 2, hi := 2, cls := .diag, mask := [0xFFFF, 0xFFFF] }]

/-- Table 10.3, group 0x01xx. -/
def opsPartition : List OpAttr := [
  { op := 0x0100, admin := true, scope := .part, lo := 2, hi := 2, mask := [0xFFFF, 0x1FFFF] },
  { op := 0x0101, admin := true, scope := .part, cls := .diag, pend := true },
  { op := 0x0102, scope := .part, cls := .diag, pend := true },
  { op := 0x0103, admin := true, scope := .part, lo := 1, hi := 1, staged := true, mask := [0x103] },
  { op := 0x0104, admin := true, scope := .part, lo := 4, hi := 4, staged := true },
  { op := 0x0105, scope := .part, lo := 2, hi := 2, cls := .diag },
  { op := 0x0108, scope := .either, lo := 6, hi := 6, cls := .diag, mask := [0x13F, allBits, allBits, allBits, allBits, 0xF0F] },
  { op := 0x0109, lo := 1, hi := 1, cls := .diag, mask := [0x3F] },
  { op := 0x010A, admin := true, lo := 1, hi := 1, cls := .diag, mask := [0x103] }]

/-- Table 10.3, group 0x02xx. -/
def opsLock : List OpAttr := [
  { op := 0x0200, lo := 1, hi := 1, mask := [0xFF] },
  { op := 0x0201, lo := 1, hi := 1, cls := .diag, mask := [0xFF] },
  { op := 0x0202, lo := 1, hi := 1, mask := [0xFF] },
  { op := 0x0203, lo := 1, hi := 1, mask := [0xFF] },
  { op := 0x0204, lo := 1, hi := 1, cls := .diag, mask := [0xFF] },
  { op := 0x0205, lo := 1, hi := 1, cls := .diag, mask := [0xFF] }]

/-- Table 10.3, group 0x03xx. -/
def opsBuffer : List OpAttr := [
  { op := 0x0300, admin := true, scope := .part, lo := 8, hi := 8, staged := true, mask := [0x1F, allBits, allBits, allBits, 0xFFFFF, allBits, allBits, 0xFFFFF] },
  { op := 0x0301, admin := true, scope := .part, lo := 1, hi := 1, cls := .diag, mask := [0xF] },
  { op := 0x0302, scope := .part, lo := 1, hi := 1, mask := [0xF] },
  { op := 0x0303, scope := .part, lo := 2, hi := 2, cls := .diag, mask := [0xF] },
  { op := 0x0304, scope := .part, lo := 1, hi := 1, cls := .diag, mask := [0xF] }]

/-- Table 10.3, group 0x04xx. -/
def opsMemory : List OpAttr := [
  { op := 0x0400, admin := true, scope := .part, lo := 5, hi := 5, pend := true, mask := [0x7FFF, 0x3FFFF, 0x3FFFF, 0x3FFFF] },
  { op := 0x0401, admin := true, scope := .part, lo := 1, hi := 1, cls := .diag, mask := [0xF] },
  { op := 0x0402, scope := .part, lo := 3, hi := 3, cls := .diag, mask := [0xF] },
  { op := 0x0403, admin := true, lo := 4, hi := 4, staged := true, mask := [0x1, allBits, allBits, 0xFFFFF] },
  { op := 0x0404, admin := true, lo := 3, hi := 3, staged := true, mask := [0xF, 0x7FFFF, 0xFFFFF] },
  { op := 0x0405, admin := true, lo := 2, hi := 2, pend := true },
  { op := 0x0406, admin := true, lo := 5, hi := 5, cls := .diag, mask := [allBits, allBits, 0x1FFF] },
  { op := 0x0407, admin := true, lo := 5, hi := 5, mask := [allBits, allBits, 0x1FFF] }]

/-- Table 10.3, group 0x05xx. -/
def opsCodec : List OpAttr := [
  { op := 0x0500, scope := .part, lo := 12, hi := 12, cls := .job, pend := true },
  { op := 0x0501, scope := .part, lo := 73, hi := 73, mask := [0x1FF] },
  { op := 0x0502, scope := .part, lo := 1, hi := 1, cls := .diag, mask := [0xFF] },
  { op := 0x0503, scope := .part, lo := 8, hi := 8, staged := true },
  { op := 0x0504, scope := .part, lo := 1, hi := 1, cls := .diag },
  { op := 0x0505, scope := .part, lo := 3, hi := 3, cls := .diag },
  { op := 0x0506, scope := .part, lo := 1, hi := 1 }]

/-- Table 10.3, group 0x06xx. -/
def opsProgram : List OpAttr := [
  { op := 0x0600, scope := .part, lo := 3, hi := 3, pend := true },
  { op := 0x0601, scope := .part, lo := 1, hi := 1, cls := .job, pend := true, mask := [0xFFFF] },
  { op := 0x0602, scope := .part, lo := 1, hi := 1, cls := .diag, mask := [0xFFFF] },
  { op := 0x0603, scope := .part, lo := 1, hi := 1, cls := .diag, mask := [0xFFFF] },
  { op := 0x0604, lo := 1, hi := 1, cls := .diag },
  { op := 0x0605, lo := 1, hi := 1, cls := .diag },
  { op := 0x0606, scope := .part, lo := 2, hi := 2, cls := .diag }]

/-- Table 10.3, group 0x07xx. -/
def opsLink : List OpAttr := [
  { op := 0x0700, admin := true, lo := 4, hi := 4, staged := true, mask := [0xF, 0x7, 0xFFF] },
  { op := 0x0701, admin := true, lo := 2, hi := 2, pend := true, mask := [0xF, 0x3FFF] },
  { op := 0x0702, admin := true, lo := 1, hi := 1, cls := .diag, mask := [0xF] },
  { op := 0x0703, lo := 3, hi := 3, cls := .diag, mask := [0xF] },
  { op := 0x0704, admin := true, lo := 1, hi := 1, pend := true, mask := [0xF] },
  { op := 0x0705, admin := true, scope := .part, lo := 3, hi := 3, staged := true, mask := [0xFF, 0xF81, 0xFFFF] },
  { op := 0x0706, lo := 1, hi := 1, cls := .diag, mask := [0xFF] },
  { op := 0x0707, admin := true, scope := .part, lo := 9, hi := 9, staged := true,
    mask := [0x3F, 0x3FFF03, 0xFFFF, allBits, 0x1FFFF, allBits, allBits, allBits, 0xFFFF] },
  { op := 0x0708, scope := .part, lo := 6, hi := 6, cls := .job, pend := true, mask := [0xFF] },
  { op := 0x0709, scope := .part, lo := 4, hi := 4, cls := .job, pend := true, mask := [0x3F, allBits, allBits, 0x1FFF] },
  { op := 0x070A, scope := .part, lo := 3, hi := 3, cls := .diag, mask := [0x3F] }]

/-- Table 10.3, group 0x08xx. -/
def opsKestrel : List OpAttr := [
  { op := 0x0800, lo := 1, hi := 1, cls := .diag, mask := [0x7] },
  { op := 0x0801, admin := true, lo := 1, hi := 1, mask := [0x77] },
  { op := 0x0802, admin := true, lo := 2, hi := 255, staged := true, mask := [0xFFFF07] },
  { op := 0x0803, admin := true, lo := 3, hi := 3, staged := true, mask := [0x7, 0xFFFF] },
  { op := 0x0804, admin := true, lo := 4, hi := 4, cls := .diag, pend := true, mask := [0x7, allBits, allBits, 0xFFFFFF] },
  { op := 0x0805, admin := true, lo := 5, hi := 5, pend := true, mask := [0x7, allBits, allBits, 0xFFFFFF, 0x3] },
  { op := 0x0806, admin := true, lo := 2, hi := 2, cls := .diag, mask := [0x37, 0xFFFF] },
  { op := 0x0807, cls := .diag }]

/-- Table 10.3, group 0x09xx. -/
def opsIntegrity : List OpAttr := [
  { op := 0x0900, admin := true, scope := .part, lo := 1, hi := 1, staged := true, mask := [0x73] },
  { op := 0x0901, admin := true, lo := 4, hi := 4, cls := .diag, mask := [0xFFF, 0x7F] },
  { op := 0x0902, admin := true, lo := 3, hi := 3, cls := .diag, mask := [0xFFF] },
  { op := 0x0903, admin := true, lo := 1, hi := 1, cls := .diag, pend := true, mask := [0x3F1F] },
  { op := 0x0904, admin := true, lo := 1, hi := 1, cls := .diag },
  { op := 0x0905, admin := true, lo := 1, hi := 1, cls := .diag, pend := true, mask := [0xFF] },
  { op := 0x0906, admin := true, cls := .diag },
  { op := 0x0907, admin := true, lo := 2, hi := 2, mask := [0xFFFFF, 0xFF] },
  { op := 0x0908, admin := true, lo := 2, hi := 2, staged := true, mask := [0x1] }]

/-- Table 10.3, group 0x0Axx. -/
def opsOwl : List OpAttr := [
  { op := 0x0A00, admin := true, lo := 5, hi := 5, cls := .diag, staged := true, mask := [0x377F0F] },
  { op := 0x0A01, admin := true, lo := 1, hi := 1, cls := .diag, mask := [0xF] },
  { op := 0x0A02, admin := true, lo := 4, hi := 4, cls := .diag, staged := true, mask := [allBits, allBits, allBits, 0x1] },
  { op := 0x0A03, admin := true, lo := 1, hi := 1, cls := .diag, mask := [0x3] },
  { op := 0x0A04, admin := true, cls := .diag }]

/-- Table 10.3, group 0x0Bxx. -/
def opsDomain : List OpAttr := [
  { op := 0x0B00, admin := true, lo := 2, hi := 2, cls := .diag, pend := true, mask := [0x1F, 0xFFFF] },
  { op := 0x0B01, admin := true, lo := 1, hi := 1, pend := true, mask := [0x1F] },
  { op := 0x0B02, cls := .diag }]

/-- Table 10.3, group 0x0Cxx. -/
def opsFirmware : List OpAttr := [
  { op := 0x0C00, admin := true, lo := 3, hi := 3, pend := true },
  { op := 0x0C01, admin := true, pend := true },
  { op := 0x0C02, cls := .diag },
  { op := 0x0C03, cls := .diag },
  { op := 0x0C04, lo := 24, hi := 24, cls := .diag },
  { op := 0x0C05, cls := .diag }]

/-- Table 10.3 (R358). -/
def opTable : List OpAttr :=
  opsBringup ++ opsPartition ++ opsLock ++ opsBuffer ++ opsMemory ++ opsCodec ++ opsProgram ++ opsLink ++ opsKestrel ++ opsIntegrity ++ opsOwl ++ opsDomain ++ opsFirmware

/-- The attributes of an assigned opcode. -/
def attrOf (op : Nat) : Option OpAttr := opTable.find? (fun a => a.op == op)

/-- The attributes of an opcode that has passed check 2. -/
def attr (op : Nat) : OpAttr := (attrOf op).getD {}

/-! ### Checks 1 to 5, at the front end (R330) -/

/-- Stage S4 is reached. -/
def inS4 (s : State) : Bool := s.bring.stage == 4

/-- R349 applies: a PATCH_LOAD or PATCH_REMOVE is under way. -/
def patchBusy (s : State) : Bool := s.fw.loadTk.isSome || s.fw.removeTk.isSome

/-- Check 1: reserved bits of DW0 to DW3. -/
def headerClear (p : Packet) : Bool :=
  bits (p.dwn 0) 23 17 == 0 && bits (p.dwn 1) 31 22 == 0 && bits (p.dwn 2) 31 16 == 0 && (p.dwn 3).toNat == 0

/-- Commands of a port that count against its limit (R331); a command whose reply has been discarded owes none. -/
def counting (s : State) (p : Nat) : Nat := (s.cmds.filter (fun x => x.port == p && x.counted && x.owed)).length

/-- The limit of Table 09.1; before S4 it is 1 on every port (R331). -/
def limitOf (s : State) (p : Nat) : Nat := if inS4 s && decide (p < 2) then 256 else 1

/-- Whether a command counts against the limit (R331). -/
def counts (s : State) (a : OpAttr) : Bool := !(inS4 s && a.hw)

/-- Check 5 for the length: PLEN and XPARAM meet R317 and the opcode's range (R350). -/
def lengthOk (a : OpAttr) (c : Nat) (p : Packet) : Bool :=
  decide (a.lo ≤ p.plen) && decide (p.plen ≤ a.hi) &&
  (if p.xparam then
    decide (1 ≤ p.plen) &&
    (if isQp c then (p.dwn 4).toNat % 16 == 0
     else bits (p.dwn 4) 11 0 % 16 == 0 && decide (bits (p.dwn 4) 11 0 + 4 * p.plen ≤ 4096))
   else decide (p.plen ≤ 12))

/-- The status of the first of checks 1 to 5 that fails, or 0; a hardware-answered command meets no later check, so the bits that R317
reserves are looked at here (R13; assumption 18). -/
def frontStatus (s : State) (c : Nat) (p : Packet) : Nat :=
  if !headerClear p then stParamReserved
  else match attrOf p.opcode with
    | none => stBadOpcode
    | some a =>
      if !a.hw && (!inS4 s || patchBusy s) then stBringupBusy
      else if counts s a && decide (limitOf s (portOf c) ≤ counting s (portOf c)) then stRetry
      else if !lengthOk a c p then stParamLength
      else if a.hw && !(p.dws.drop 4).all (· == 0) then stParamReserved
      else if (decide (a.scope = .dev) || (decide (a.scope = .either) && !p.xparam && !bit (p.dwn 4) 8)) && p.part != 0 then
        stParamRange
      else 0

/-! ### Checks 6 to 9 -/

/-- A command has partition scope (Table 10.3). -/
def partScope (x : Cmd) : Bool :=
  match (attr x.pkt.opcode).scope with
  | .dev => false
  | .part => true
  | .either => bit (x.par 4) 8

/-- PART_CREATE makes its partition. -/
def creates (x : Cmd) : Bool := x.pkt.opcode == 0x0100

/-- Check 7: the partition scope of R314, as a status. -/
def scopeStatus (s : State) (x : Cmd) : Nat :=
  let adm := isAdmin s x.port
  let there := partExists s x.part || creates x
  if !partScope x then (if x.part != 0 then stParamRange else 0)
  else if adm && !there then stParamRange
  else
    let carrierOk :=
      if isQp x.carrier then
        match boundPart s x.carrier with
        | some q => x.part == q
        | none => adm || x.pkt.opcode == 0x0108
      else true
    if !carrierOk then stPrivPartition
    else if !adm && !boundToPort s x.part x.port then stPrivPartition
    else if !there then stPrivPartition
    else 0

/-- Check 8: drain and retirement. -/
def stateStatus (s : State) (x : Cmd) : Nat :=
  match s.integ.dstate, (attr x.pkt.opcode).cls with
  | _, .diag => 0
  | .retired, _ => stRetired
  | .draining, .job => stDraining
  | _, _ => 0

/-- The status of the first of checks 6 to 8 that fails, or 0. -/
def permitStatus (s : State) (x : Cmd) : Nat :=
  if (attr x.pkt.opcode).admin && !isAdmin s x.port then stPrivAdmin
  else if scopeStatus s x ≠ 0 then scopeStatus s x
  else stateStatus s x

/-- A command that has passed checks 6 to 8 keeps what they saw (R344, R345), unless its partition has gone (assumption 18). -/
def goneStatus (s : State) (x : Cmd) : Nat :=
  if partScope x && !partExists s x.part && !creates x then scopeStatus s x else 0

/-- Checks 6 to 8, as this command meets them. -/
def passStatus (s : State) (x : Cmd) : Nat := if x.gated then goneStatus s x else permitStatus s x

/-- The status of the first of checks 6 to 9 that fails, or 0. -/
def gateStatus (s : State) (x : Cmd) : Nat :=
  if passStatus s x ≠ 0 then passStatus s x
  else if x.blockFault then stHostFault
  else 0

/-! ### Check 10: what every entry shares -/

/-- The parameter dwords from DW4. -/
def Cmd.params (x : Cmd) : List Dword := if x.pkt.xparam then x.block.take x.pkt.plen else (x.pkt.dws.drop 4).take x.pkt.plen

/-- No dword has a bit outside its mask; dwords beyond the masks are not looked at. -/
def masked : List Nat → List Dword → Bool
  | m :: ms, d :: ds => (d.toNat ||| m) == m && masked ms ds
  | _, _ => true

/-- Every reserved parameter bit is 0 (R13, R317, R350). -/
def paramsClear (x : Cmd) : Bool :=
  masked (attr x.pkt.opcode).mask x.params &&
  (if x.pkt.xparam then
    (x.pkt.dws.drop 6).all (· == 0) && (isQp x.carrier || (bits (x.pkt.dwn 4) 31 12 == 0 && (x.pkt.dwn 5).toNat == 0))
   else (x.pkt.dws.drop (4 + x.pkt.plen)).all (· == 0))

/-- What an entry's checks say: a status (0 when they pass), a result, and the counters that the refusal counts. -/
structure Verdict where
  status : Nat := 0
  result : List Dword := []
  counts : List (Nat × Nat) := []

/-- A refusal. -/
def no (st : Nat) : Verdict := { status := st }

/-- The first condition of a list that holds gives the refusal. -/
def firstOf : List (Bool × Nat) → Verdict
  | [] => {}
  | (b, st) :: r => if b then { status := st } else firstOf r

/-- The second check is made only when the first passes. -/
def Verdict.andThen (v w : Verdict) : Verdict := if v.status = 0 then w else v

end Sys2Proof.Machine
end

