-- ==== Sys2Proof/Machine/Protocol.lean ====
section
/-! DEFINITION. How a command comes in and is answered: its acceptance at a port's front end, host-memory reads and mailbox
transfers, staging, and the reply or ticket it ends with (chapters 09 and 10). -/

namespace Sys2Proof.Machine

/-! ### Mailbox and host transfers (R317, R325, R352) -/

/-- Bytes of a mailbox by offset: CMD, RPLY and DATA as Table 09.12a lays them out. -/
def mbxByte (s : State) (p off : Nat) : Byte :=
  let m := tget s.mbx p
  if 0x040 ≤ off ∧ off < 0x060 then (dwBytes m.rply).getD (off - 0x040) 0
  else if off = 0x064 then BitVec.ofNat 8 (b2n m.busy + 2 * b2n m.mphase + 4 * b2n m.retry)
  else if off < 0x040 ∨ (0x400 ≤ off ∧ off < 0x1400) then tget m.cells off
  else 0

/-- `n` bytes of a mailbox from an offset. -/
def mbxBytes (s : State) (p off n : Nat) : List Byte := (List.range n).map (fun i => mbxByte s p (off + i))

/-- Write bytes into a mailbox's DATA window. -/
def mbxPut (p off : Nat) (data : List Byte) (s : State) : State :=
  { s with mbx := tmod s.mbx p (fun m => { m with cells := putBytes m.cells (0x400 + off) data }) }

/-- A read for host spill. -/
def ReadKind.spill (k : ReadKind) : Bool := match k with | .noc _ => true | _ => false

/-- Send the read requests of an access to host memory (R574). -/
def hostRead (fn addr len : Nat) (k : ReadKind) (s : State) : State :=
  let f := tget s.fns fn
  let rs := hostRuns f.mrrs addr len
  { s with
    hostReads := s.hostReads ++ rs.zipIdx.map (fun r =>
      { tag := s.nextId + r.2, acc := s.nextId, fn := fn, addr := r.1.1, len := r.1.2, kind := k, ro := k.spill && bit f.devCtl 4 })
    nextId := s.nextId + rs.length }

/-- The check of an OUT or IN field in DWk, DWk+1 for a transfer of `n` bytes (R352, R353; assumption 10). -/
def xferStatus (x : Cmd) (k n : Nat) : Nat :=
  if isQp x.carrier then (if (x.par k).toNat % 16 = 0 then 0 else stParamRange)
  else if x.fld k 31 12 ≠ 0 ∨ (x.par (k + 1)).toNat ≠ 0 then stParamReserved
  else if x.fld k 11 0 % 16 = 0 ∧ x.fld k 11 0 + n ≤ 4096 then 0
  else stParamRange

/-- The output can be written: a mailbox always takes it, a function only while it can issue requests (R352, R574). -/
def outReady (s : State) (x : Cmd) : Bool := !isQp x.carrier || canMaster s x.port

/-- Write a command's output at the address in its OUT field (R352). -/
def outWrite (x : Cmd) (k : Nat) (data : List Byte) (s : State) : State :=
  if isQp x.carrier then hostWrite false x.port (x.par64 k) data s else mbxPut x.port (x.fld k 11 0) data s

/-! ### Acceptance (R330, R331) -/

/-- A reply of the front end to a packet that is not in progress. -/
def frontReply (c : Nat) (p : Packet) (st : Nat) (s : State) : State :=
  let s1 := if st = stRetry then bump cntCmdRetry (unitId 0x0C (portOf c)) s else s
  if isQp c then replyQp c p.tag { status := st } s1 else replyMbx (portOf c) (dwBytes p.dws) p.tag { status := st } s1

/-- The record of a command that has passed checks 1 to 5. -/
def newCmd (s : State) (c : Nat) (p : Packet) : Cmd :=
  { id := s.nextId, carrier := c, pkt := p, counted := counts s (attr p.opcode), time := s.timebase }

/-- The parameter block of a mailbox command, in the DATA window (R317). -/
def mbxBlock (s : State) (c : Nat) (p : Packet) : List Dword :=
  if p.xparam && !isQp c then bytesDw (mbxBytes s (portOf c) (0x400 + bits (p.dwn 4) 11 0) (4 * p.plen)) else []

/-- The front end takes a packet: a failed check of 1 to 5 is answered; otherwise the command is in progress.  A mailbox's
parameter block is taken with its packet (R317; assumption 18). -/
def takeIn (c : Nat) (p : Packet) (s : State) : State :=
  let st := frontStatus s c p
  if st ≠ 0 then frontReply c p st s
  else
    let s1 := takeId s
    { s1 with cmds := s1.cmds ++ [{ newCmd s c p with block := mbxBlock s c p }] }

/-- The command of carrier `c` that is next for the front end (HW) or the command processor: the carrier's first that has
not been handled (R333). -/
def nextOf (s : State) (c : Nat) (hw : Bool) : Option Cmd :=
  s.cmds.find? (fun x => x.carrier == c && !x.parked && (attr x.pkt.opcode).hw == hw)

/-- The first of the places 0 to m − 1 that wants a turn, in round-robin order from `next`. -/
def firstFrom (m next : Nat) (want : Nat → Bool) : Option Nat := ((List.range m).map (fun i => (next + i) % m)).find? want

/-- The command processor can take the next command of carrier `c`: nothing of it is awaited. -/
def takeable (s : State) (c : Nat) : Bool :=
  match nextOf s c false with
  | some x => x.waits == 0
  | none => false

/-- It is the turn of carrier `c`: of its port among the ports, and of the carrier within its port (R312). -/
def itsTurn (s : State) (c : Nat) : Bool :=
  firstFrom 4 s.rota.port (fun p => s.cmds.any (fun x => x.port == p && takeable s x.carrier)) == some (portOf c) &&
  firstFrom 64 (tget s.rota.take (portOf c)) (fun q => takeable s (64 * portOf c + q)) == some (c % 64)

/-- Carrier `c` has had its turn. -/
def turned (c : Nat) (s : State) : State :=
  { s with rota := { s.rota with port := (portOf c + 1) % 4, take := tset s.rota.take (portOf c) ((c % 64 + 1) % 64) } }

/-- That command, if it is packet `p` of opcode `op`, nothing of it is still awaited, and it is answered by hardware or its carrier's
turn has come (R312). -/
def ready (s : State) (op c : Nat) (p : Packet) : Option Cmd :=
  match nextOf s c (attr op).hw with
  | some x => if x.pkt = p ∧ x.waits = 0 ∧ p.opcode = op ∧ ((attr op).hw || itsTurn s c) = true then some x else none
  | none => none

/-! ### Handling -/

/-- A refusal, with the counters that it counts. -/
def refuse (x : Cmd) (v : Verdict) (s : State) : State :=
  finish x { status := v.status, result := v.result } (v.counts.foldl (fun t k => bump k.1 k.2 t) s)

/-- The issuing owner has a sequence open, so a stageable command is staged (R357, R399). -/
def staging (s : State) (x : Cmd) : Bool := (attr x.pkt.opcode).staged && (tget s.seqs x.carrier).lock.isSome

/-- Stage a command whose check 10 has passed (R357). -/
def stageCmd (x : Cmd) (s : State) : State :=
  let q := tget s.seqs x.carrier
  if 64 ≤ q.staged.length then finish x { status := stQueueFull } s
  else
    finish x { status := stOk, result := [dw (q.staged.length + 1 + 2 ^ 31)] }
      { s with seqs := tset s.seqs x.carrier { q with staged := q.staged ++ [x] } }

/-- The reply of a command that starts pending work: a result slot and its ticket, then the work (R321, R332). -/
def pend (x : Cmd) (work : Nat → State → State) (s : State) : State :=
  if !slotFree s x.port then finish x { status := stResultFull } s
  else
    let t := takeSlot x (!partScope x) s
    work t.1 (finish x { status := stPending, result := [dw t.1] } t.2)

/-- A PEND command of a partition that is being reset or destroyed does not act (R408). -/
def pendDoomed (s : State) (x : Cmd) : Bool :=
  (attr x.pkt.opcode).pend && partScope x && x.pkt.opcode != 0x0101 && x.pkt.opcode != 0x0102 &&
  (decide ((tget s.parts x.part).state = .resetting) || decide ((tget s.parts x.part).state = .destroying))

/-- Check 10: the reserved parameter bits, then the entry's own checks. -/
def check10 (s : State) (x : Cmd) (chk : State → Cmd → Verdict) : Verdict :=
  if !paramsClear x then no stParamReserved else chk s x

/-- Change the record of a command in progress. -/
def onCmd (x : Cmd) (f : Cmd → Cmd) (s : State) : State :=
  { s with cmds := s.cmds.map (fun y => if y.id == x.id then f y else y) }

/-- A command that has passed its checks waits: checks 6 to 8 are not made again (R344). -/
def stall (x : Cmd) (s : State) : State := onCmd x (fun y => { y with gated := true }) s

/-- A command on a queue pair has a parameter block that has not been asked for. -/
def needsBlock (x : Cmd) : Bool := x.pkt.xparam && isQp x.carrier && !x.gated

/-- Check 9 begins: the block is asked for, or cannot be (R317, R574). -/
def askBlock (x : Cmd) (s : State) : State :=
  if canMaster s x.port then
    hostRead x.port ((x.pkt.dwn 4).toNat + 2 ^ 32 * (x.pkt.dwn 5).toNat) (4 * x.pkt.plen) (.block x.id)
      (onCmd x (fun y => { y with gated := true, waits := 1 }) s)
  else finish x { status := stHostFault } s

/-- Check 10, for a command that has passed the others: staging, and then `act` (R357, R408). -/
def judgeCmd (x : Cmd) (chk : State → Cmd → Verdict) (act : Cmd → State → State) (s : State) : State :=
  if pendDoomed s x then pend x (fun tk t => post tk stPartitionReset [] t) s
  else
    let v := check10 s x chk
    if v.status ≠ 0 then refuse x v s
    else if staging s x then stageCmd x s
    else act x s

/-- The command processor's turn with the next command of a carrier: checks 6 to 8, the parameter block, which the turn waits for,
check 9, and check 10 (R312, R330). -/
def serve (op c : Nat) (p : Packet) (chk : State → Cmd → Verdict) (act : Cmd → State → State) (s : State) : State :=
  match ready s op c p with
  | none => s
  | some x =>
    let t := turned c s
    if gateStatus t x ≠ 0 then finish x { status := gateStatus t x } t
    else if needsBlock x then askBlock x t
    else judgeCmd x chk act t

/-- A firmware reply: the effect, then the reply with ST_OK unless the effect says otherwise. -/
def actFw (app : Cmd → State → Reply × State) (x : Cmd) (s : State) : State :=
  let r := app x s
  finish x r.1 r.2

/-- A firmware reply that reads and changes nothing. -/
def actRead (rep : State → Cmd → List Dword) (x : Cmd) (s : State) : State := finish x { result := rep s x } s

/-- A firmware reply with ST_OK and no result. -/
def actDo (app : Cmd → State → State) (x : Cmd) (s : State) : State := finish x {} (app x s)

/-- A reply with output by address: the OUT field in DWk, then the transfer, then the reply (R352). -/
def actOut (k : Nat) (out : State → Cmd → List Byte) (rep : State → Cmd → List Dword) (x : Cmd) (s : State) : State :=
  let data := out s x
  if xferStatus x k data.length ≠ 0 then finish x { status := xferStatus x k data.length } s
  else if !outReady s x then finish x { status := stHostFault } s
  else finish x { result := rep s x } (outWrite x k data s)

/-- A hardware answer: whatever the parameter dwords hold, the reply with ST_OK (R312, R330). -/
def answer (op c : Nat) (p : Packet) (rep : State → Cmd → List Dword) (s : State) : State :=
  match ready s op c p with
  | none => s
  | some x => finishQuiet x { result := rep s x } s

/-- A command whose outcome comes later stays in progress, handled (R370). -/
def park (x : Cmd) (s : State) : State := onCmd x (fun y => { y with parked := true }) s

end Sys2Proof.Machine
end

