-- ==== Sys2Proof/Machine/Counters.lean ====
section
/-! DEFINITION. Which counters exist (Tables 12.2, 13.7, 14.7 and 16.8), their selectors and clearing (R354, R355, R423), and the views
that carry thresholds. -/

namespace Sys2Proof.Machine

/-- What the INST of a counter names (R423): nothing, a partition, or a unit of the classes given with their counts. -/
inductive CntScope where
  | device
  | part
  | units (cls : List (Nat × Nat))
  | evenTiles
  deriving DecidableEq, Repr

/-- Members of each unit class (Table 01.3). -/
def unitCount (cls : Nat) : Nat :=
  if 1 ≤ cls ∧ cls ≤ 5 then 64 else if cls = 6 then 32 else if cls = 7 ∨ cls = 8 then 8 else if cls = 0x0A then 100
  else if cls = 0x0B then 16 else if cls = 0x0C then 4 else if cls = 9 ∨ (0x0D ≤ cls ∧ cls ≤ 0x10) then 1 else 0

/-- A list of whole unit classes. -/
def wholes (cs : List Nat) : CntScope := .units (cs.map (fun c => (c, unitCount c)))

/-- The memories that SECDED counters count (Table 12.2). -/
def sramClasses : List Nat := [0x04, 0x06, 0x01, 0x09, 0x0D, 0x0E, 0x10]

/-- Scope of the counters of the tiles and codec (Table 12.2). -/
def scopeCompute (cid : Nat) : Option CntScope :=
  if cid = cntAccSaturate then some (wholes [1]) else if cid = cntConvertSaturate then some (wholes [3, 8])
  else if cid = cntConvertNan then some (wholes [3, 8]) else if cid = cntSelftestStall then some (wholes [1])
  else if cid = cntReplay then some (wholes [1]) else if cid = cntPlausChecked then some (wholes [5])
  else if cid = cntPlausFail then some (wholes [5]) else if cid = cntDualMismatch then some .evenTiles
  else if cid = cntKakRun then some (wholes [1]) else if cid = cntKakFail then some (wholes [1])
  else if cid = cntCheckRefetch then some (wholes [2, 8]) else if cid = cntDecodeError then some (wholes [2, 8])
  else if cntCtxWait ≤ cid ∧ cid ≤ cntCtxEvict then some .device
  else if cid = cntCodecRaw then some (wholes [3, 8])
  else if cntCodecNogain ≤ cid ∧ cid ≤ cntCodecSizing then some (wholes [8])
  else none

/-- Scope of the counters of memory, network and links (Table 12.2). -/
def scopeMemory (cid : Nat) : Option CntScope :=
  if cntWindowFault ≤ cid ∧ cid ≤ cntSpillError then some .part
  else if cid = cntBar2Fault ∨ cid = cntBar2Poison then some (.units [(0x0C, 2)])
  else if cid = cntSramCorr ∨ cid = cntSramUncorr then some (wholes sramClasses)
  else if cid = cntHbmCorr ∨ cid = cntHbmUncorr then some (wholes [7])
  else if cid = cntScrubPass then some (wholes [7, 6, 4])
  else if cntNocParity ≤ cid ∧ cid ≤ cntNocFenceNack then some (wholes [0x0A])
  else if cid = cntMcastWait then some (wholes [1]) else if cid = cntMcastPartial then some .part
  else if cntPelocFecCorr ≤ cid ∧ cid ≤ cntPelocDown then some (wholes [0x0B])
  else none

/-- Scope of the counters of ports, locks, buffers and integrity (Table 12.2). -/
def scopeControl (cid : Nat) : Option CntScope :=
  if cid = cntQpFault then some (.units [(0x0C, 2)]) else if cid = cntCmdRetry then some (wholes [0x0C])
  else if cntLockBroken ≤ cid ∧ cid ≤ cntSeqCommitFail then some .device
  else if cntBufBadHandle ≤ cid ∧ cid ≤ cntBufReclaimed then some .part
  else if cid = cntPoisonConsumed ∨ cid = cntPoisonPropagated then some .part
  else if cid = cntCheckFailed then some (wholes [2, 8])
  else if cntLedgerWrite ≤ cid ∧ cid ≤ cntVerdictData then some .device
  else none

/-- Scope of the counters of Tables 13.7, 14.7 and 16.8 (R472, R518). -/
def scopeOther (cid : Nat) : Option CntScope :=
  if 0x0D00 ≤ cid ∧ cid < 0x0D80 then (if cid % 16 ≤ 10 then some .device else none)
  else if (cntOwlRecords ≤ cid ∧ cid ≤ cntOwlWriteErr) ∨ (0x0E10 ≤ cid ∧ cid < 0x0E20) then some .device
  else if (cntInputGlitch ≤ cid ∧ cid ≤ cntTach1Stuck) ∨ (cntP2XferErr ≤ cid ∧ cid ≤ cntDebugFail) then some .device
  else if cntPcieCplTimeout ≤ cid ∧ cid ≤ cntPcieUrSent then some (.units [(0x0C, 2)])
  else none

/-- The scope of a counter identifier; none for one that names no counter (R423). -/
def cntScope (cid : Nat) : Option CntScope :=
  (scopeCompute cid).orElse fun _ => (scopeMemory cid).orElse fun _ => (scopeControl cid).orElse fun _ => scopeOther cid

/-- An INST names a member of one of the classes; COMMAND_PORT 1 only where P1 exists (R423). -/
def inUnits (s : State) (cls : List (Nat × Nat)) (inst : Nat) : Bool :=
  cls.any (fun c => c.1 == inst / 256 && decide (inst % 256 < c.2)) && (inst != unitId 0x0C 1 || portExists s 1)

/-- The counter instance exists (R354, R423). -/
def cntExists (s : State) (cid inst : Nat) : Bool :=
  match cntScope cid with
  | none => false
  | some .device => inst == 0
  | some .part => decide (inst < 64)
  | some (.units cls) => inUnits s cls inst
  | some .evenTiles => inst / 256 == 1 && decide (inst % 256 < 64) && inst % 2 == 0

/-- The issuer of a command may act for a partition (R314). -/
def mayActFor (s : State) (x : Cmd) (part : Nat) : Bool :=
  match boundPart s x.carrier with
  | some q => part == q && (isAdmin s x.port || boundToPort s part x.port)
  | none => isAdmin s x.port || boundToPort s part x.port

/-- The access rule of R355 for one selector, as a status. -/
def cntAccess (s : State) (x : Cmd) (cid inst : Nat) : Nat :=
  match cntScope cid with
  | some .part => if mayActFor s x inst then 0 else stPrivPartition
  | _ => if isAdmin s x.port then 0 else stPrivAdmin

/-- The check of one counter selector: it exists, and the issuer may use it (Table 10.4, R355; assumption 11). -/
def cntStatus (s : State) (x : Cmd) (cid inst : Nat) : Nat :=
  if !cntExists s cid inst then stParamRange else cntAccess s x cid inst

/-- The first status of a list of selectors that is not 0. -/
def cntStatuses (s : State) (x : Cmd) (cid : Nat) : List Nat → Nat
  | [] => 0
  | i :: r => if cntStatus s x cid i ≠ 0 then cntStatus s x cid i else cntStatuses s x cid r

/-- The instances INST to INST + N − 1. -/
def instances (inst n : Nat) : List Nat := (List.range n).map (· + inst)

/-- A clear names a counter's key (Table 10.4): CID and INST, either of them 0xFFFF for all. -/
def clearHits (cid inst key : Nat) : Bool :=
  (cid == 0xFFFF || key / 65536 == cid) && (inst == 0xFFFF || key % 65536 == inst)

/-- Some counter has the instance (Table 10.4, with CID 0xFFFF). -/
def someCounterHas (s : State) (inst : Nat) : Bool := (List.range 0x1000).any (fun cid => cntExists s cid inst)

/-- Set counters to 0; a probe's counter clears its COUNT (R518). -/
def clearCounters (cid inst : Nat) (s : State) : State :=
  { s with
    cnt := tfilter (fun k _ => !clearHits cid inst k) s.cnt
    owl := { s.owl with
      probes := tmap (fun n (p : Probe) => if clearHits cid inst (cntKey (0x0E10 + n) 0) then { p with count := 0 } else p) s.owl.probes } }

/-- Replace the view that carries a carrier's replies (R337). -/
def setView (c : Nat) (v : View) (s : State) : State :=
  match boundPart s c with
  | some _ => { s with qps := tmod s.qps c (fun q => { q with view := v }) }
  | none => { s with ports := tmod s.ports (portOf c) (fun p => { p with view := v }) }

/-- ATTN_COUNTER in the view that carries a carrier's replies (R360). -/
def raiseView (c : Nat) (s : State) : State :=
  match boundPart s c with
  | some _ => raiseOwn s (portOf c) (some c)
  | none => raiseOwn s (portOf c) none

end Sys2Proof.Machine
end

