-- ==== Sys2Proof/Machine/CmdBuffers.lean ====
section
/-! DEFINITION. Buffer pools: the commands of group 0x03xx, and the allocation that codec jobs share (R363, R364, R389 to R391,
R402 to R405). -/

namespace Sys2Proof.Machine

/-- The pool that a command names. -/
def Cmd.poolNo (x : Cmd) : Nat := x.fld 4 3 0

/-- Buffers of a pool. -/
def Pool.count (p : Pool) : Nat := p.pcount + p.scount

/-- The partition address of buffer `i` (R390). -/
def Pool.addr (p : Pool) (i : Nat) : Nat :=
  if i < p.pcount then p.pbase + i * p.bufsize else p.sbase + (i - p.pcount) * p.bufsize

/-- A handle (R354). -/
def mkHandle (i gen : Nat) : Nat := i + 2 ^ 20 * gen

/-- The lowest FREE buffer among `n` indices from `i`. -/
def firstFree (bufs : Tab Buf) (i : Nat) : Nat → Option Nat
  | 0 => none
  | n + 1 => if (tget bufs i).allocated then firstFree bufs (i + 1) n else some i

/-- A pool with buffer `i` allocated to an owner, its generation advanced (R403). -/
def Pool.take (p : Pool) (i : Nat) (o : BufOwner) : Pool :=
  { p with bufs := tmod p.bufs i (fun b => { allocated := true, gen := (b.gen + 1) % 4096, owner := o }) }

/-- Allocate a buffer of pool `k`: the lowest FREE one of the primary extent, else of the spill extent, which counts and
raises ATTN_SPILL (R211, R214, R403).  Answers its index. -/
def allocBuf (k : Nat) (o : BufOwner) (s : State) : Option (Nat × State) :=
  let p := tget s.pools k
  match firstFree p.bufs 0 p.pcount with
  | some i => some (i, { s with pools := tset s.pools k (p.take i o) })
  | none =>
    match firstFree p.bufs p.pcount p.scount with
    | some i =>
      let q := p.owner.getD 0
      some (i, raiseSpill q (bump cntPoolSpill q { s with pools := tset s.pools k (p.take i o) }))
    | none => none

/-- A codec job uses a pool: OUTFULL is CHAIN and the operation writes (Tables 04.3 and 04.4). -/
def Job.poolUsed (j : Job) : Option Nat :=
  let d0 := j.desc.getD 0 0
  if bit d0 10 || bits d0 3 0 == 3 then none else some (bits (j.desc.getD 7 0) 19 16)

/-- The regions of the windows that the window-space range [a, a + n) lies in are all `r` (R391). -/
def rangeRegion (s : State) (part a n r : Nat) : Bool :=
  (runsOf pageSize (n / pageSize + 2) a n).all (fun x =>
    match windowAt s part (x.1 / pageSize) with
    | some w => w.region == r
    | none => false)

/-- A range lies in a partition's writable windows, tile stores not among them (R391). -/
def inWritable (s : State) (part a n : Nat) : Bool := decide (a + n ≤ 0x8000000000) && windowOk s part true a n

/-- Two byte ranges overlap. -/
def overlaps (a n b m : Nat) : Bool := decide (a < b + m) && decide (b < a + n) && n != 0 && m != 0

/-- The extents of a pool. -/
def Pool.extents (p : Pool) : List (Nat × Nat) := [(p.pbase, p.pcount * p.bufsize), (p.sbase, p.scount * p.bufsize)]

/-! ### POOL_CREATE -/

/-- The pool that POOL_CREATE's parameters describe. -/
def poolOf (x : Cmd) : Pool :=
  { owner := some x.part, spillable := bit (x.par 4) 4, bufsize := (x.par 5).toNat, pbase := x.par64 6, pcount := x.fld 8 19 0
    sbase := x.par64 9, scount := x.fld 11 19 0 }

/-- The field rules of POOL_CREATE hold (Table 10.7, R391). -/
def poolFieldsOk (p : Pool) : Bool :=
  p.bufsize % 16 == 0 && decide (16 ≤ p.bufsize) && decide (p.bufsize ≤ 0x1000000) && decide (1 ≤ p.pcount) &&
  decide (p.count ≤ 1048575) && p.pbase % 16 == 0 && p.sbase % 16 == 0 &&
  (if p.spillable then decide (1 ≤ p.scount) else p.scount == 0 && p.sbase == 0)

/-- POOL_CREATE's check, in the order of Table 10.7. -/
def poolCreateCheck (s : State) (x : Cmd) : Verdict :=
  let p := poolOf x
  let others := s.pools.filter (fun e => decide (e.2.owner = some x.part))
  firstOf [
    (!poolFieldsOk p, stParamRange),
    ((tget s.pools x.poolNo).owner.isSome, stStateBusy),
    (p.extents.any (fun e => e.2 != 0 && !inWritable s x.part e.1 e.2), stWindowFault),
    (p.spillable && !(rangeRegion s x.part p.pbase (p.pcount * p.bufsize) 1 &&
      rangeRegion s x.part p.sbase (p.scount * p.bufsize) 0), stParamRange),
    (overlaps p.pbase (p.pcount * p.bufsize) p.sbase (p.scount * p.bufsize) ||
      others.any (fun e => e.2.extents.any (fun a => p.extents.any (fun b => overlaps a.1 a.2 b.1 b.2))), stParamRange)]

/-- POOL_CREATE's effect: every buffer FREE with GEN 0 (R402). -/
def poolCreateApply (x : Cmd) (s : State) : State := { s with pools := tset s.pools x.poolNo (poolOf x) }

/-- POOL_CREATE (R402). -/
def poolCreateEffect (c : Nat) (p : Packet) (s : State) : State := serve 0x0300 c p poolCreateCheck (actDo poolCreateApply) s

/-- POOL_CREATE. -/
def execPoolCreate (c : Nat) (p : Packet) (s : State) : Host.Outcome State Fault Refusal := .next (poolCreateEffect c p s)

/-! ### POOL_DESTROY -/

/-- POOL_DESTROY's check (Table 10.7). -/
def poolDestroyCheck (s : State) (x : Cmd) : Verdict :=
  let p := tget s.pools x.poolNo
  firstOf [
    (p.owner.isNone, stParamRange),
    (p.owner != some x.part, stPrivPartition),
    (p.bufs.any (fun e => e.2.allocated) || s.jobs.any (fun j => j.poolUsed == some x.poolNo && j.part == x.part), stStateBusy)]

/-- POOL_DESTROY's effect. -/
def poolDestroyApply (x : Cmd) (s : State) : State := { s with pools := tset s.pools x.poolNo {} }

/-- POOL_DESTROY (R363). -/
def poolDestroyEffect (c : Nat) (p : Packet) (s : State) : State := serve 0x0301 c p poolDestroyCheck (actDo poolDestroyApply) s

/-- POOL_DESTROY. -/
def execPoolDestroy (c : Nat) (p : Packet) (s : State) : Host.Outcome State Fault Refusal := .next (poolDestroyEffect c p s)

/-! ### BUF_ALLOC -/

/-- BUF_ALLOC's check (Table 10.7). -/
def bufAllocCheck (s : State) (x : Cmd) : Verdict :=
  let p := tget s.pools x.poolNo
  firstOf [
    (p.owner.isNone, stParamRange),
    (p.owner != some x.part, stPrivPartition),
    ((allocBuf x.poolNo (.ident x.carrier) s).isNone, stPoolEmpty)]

/-- BUF_ALLOC's effect and reply: the handle and the buffer's partition address (R403). -/
def bufAllocApply (x : Cmd) (s : State) : Reply × State :=
  match allocBuf x.poolNo (.ident x.carrier) s with
  | some (i, t) =>
    let p := tget t.pools x.poolNo
    ({ result := [dw (mkHandle i (tget p.bufs i).gen), dw (p.addr i), dw (p.addr i / 2 ^ 32)] }, t)
  | none => ({ status := stPoolEmpty }, s)

/-- BUF_ALLOC (R403). -/
def bufAllocEffect (c : Nat) (p : Packet) (s : State) : State := serve 0x0302 c p bufAllocCheck (actFw bufAllocApply) s

/-- BUF_ALLOC. -/
def execBufAlloc (c : Nat) (p : Packet) (s : State) : Host.Outcome State Fault Refusal := .next (bufAllocEffect c p s)

/-! ### BUF_FREE -/

/-- A free is by an owner (R404). -/
def byOwner (s : State) (x : Cmd) (p : Pool) (b : Buf) : Bool :=
  decide (p.owner = some x.part) &&
  (((boundPart s x.carrier).isNone && isAdmin s x.port) ||
    (match b.owner with
     | .ident o => o == x.carrier
     | .job => mayActFor s x x.part))

/-- A refused free, counted in the pool partition's counter (Table 11.6). -/
def badFree (p : Pool) (st cid : Nat) : Verdict := { status := st, counts := [(cid, p.owner.getD 0)] }

/-- BUF_FREE's check, in the order of Table 10.7 (R405). -/
def bufFreeCheck (s : State) (x : Cmd) : Verdict :=
  let p := tget s.pools x.poolNo
  let i := x.fld 5 19 0
  let b := tget p.bufs i
  if p.owner.isNone then no stParamRange
  else if p.count ≤ i then badFree p stParamRange cntBufBadHandle
  else if b.gen ≠ x.fld 5 31 20 then badFree p stBufStale cntBufStale
  else if !b.allocated then badFree p stBufAlreadyFree cntBufDoubleFree
  else if !byOwner s x p b then badFree p stBufNotOwner cntBufNotOwner
  else {}

/-- BUF_FREE's effect: the buffer is FREE, its generation unchanged (R364, R405). -/
def bufFreeApply (x : Cmd) (s : State) : State :=
  { s with pools := tmod s.pools x.poolNo (fun p =>
      { p with bufs := tmod p.bufs (x.fld 5 19 0) (fun b => { gen := b.gen }) }) }

/-- BUF_FREE (R405). -/
def bufFreeEffect (c : Nat) (p : Packet) (s : State) : State := serve 0x0303 c p bufFreeCheck (actDo bufFreeApply) s

/-- BUF_FREE. -/
def execBufFree (c : Nat) (p : Packet) (s : State) : Host.Outcome State Fault Refusal := .next (bufFreeEffect c p s)

/-! ### POOL_READ -/

/-- POOL_READ's check (Table 10.7). -/
def poolReadCheck (s : State) (x : Cmd) : Verdict :=
  let p := tget s.pools x.poolNo
  firstOf [(p.owner.isSome && p.owner != some x.part, stPrivPartition)]

/-- Allocated buffers of a pool with indices from `lo` below `hi`. -/
def Pool.allocated (p : Pool) (lo hi : Nat) : Nat :=
  (p.bufs.filter (fun e => e.2.allocated && decide (lo ≤ e.1) && decide (e.1 < hi))).length

/-- POOL_READ's result (Table 10.7). -/
def poolReadResult (s : State) (x : Cmd) : List Dword :=
  let p := tget s.pools x.poolNo
  match p.owner with
  | none => []
  | some o =>
    [dw (1 + 2 * b2n p.spillable + 4 * o), dw p.bufsize, dw (p.pcount - p.allocated 0 p.pcount),
     dw (p.scount - p.allocated p.pcount p.count), dw (p.allocated 0 p.count)]

/-- POOL_READ (R363). -/
def poolReadEffect (c : Nat) (p : Packet) (s : State) : State := serve 0x0304 c p poolReadCheck (actRead poolReadResult) s

/-- POOL_READ. -/
def execPoolRead (c : Nat) (p : Packet) (s : State) : Host.Outcome State Fault Refusal := .next (poolReadEffect c p s)

end Sys2Proof.Machine
end

