-- ==== Sys2Proof/Machine/Pages.lean ====
section
/-! DEFINITION. Free runs of 2 MiB pages, and the allocation of a window's pages (R202). -/

namespace Sys2Proof.Machine

/-- Insert a run (first, count) by its first page. -/
def insertRun (x : Nat × Nat) : List (Nat × Nat) → List (Nat × Nat)
  | [] => [x]
  | y :: r => if x.1 ≤ y.1 then x :: y :: r else y :: insertRun x r

/-- Runs in order of their first page. -/
def sortRuns (l : List (Nat × Nat)) : List (Nat × Nat) := l.foldl (fun a x => insertRun x a) []

/-- The free runs of [lo, hi) between used runs given in order of their first page. -/
def gaps (lo hi : Nat) : List (Nat × Nat) → List (Nat × Nat)
  | [] => if lo < hi then [(lo, hi - lo)] else []
  | (p, n) :: r =>
    let rest := gaps (max lo (p + n)) hi r
    if lo < min p hi then (lo, min p hi - lo) :: rest else rest

/-- Insert a run so that longer ones come first, ties to the lower page. -/
def insertLong (x : Nat × Nat) : List (Nat × Nat) → List (Nat × Nat)
  | [] => [x]
  | y :: r => if y.2 < x.2 ∨ (y.2 = x.2 ∧ x.1 < y.1) then x :: y :: r else y :: insertLong x r

/-- The four longest runs, longest first (R202). -/
def fourLongest (l : List (Nat × Nat)) : List (Nat × Nat) := (l.foldl (fun a x => insertLong x a) []).take 4

/-- Take `need` pages from runs in order, the lowest pages of each. -/
def takePages : List (Nat × Nat) → Nat → List (Nat × Nat)
  | [], _ => []
  | (p, n) :: r, need =>
    if need = 0 then [] else if need ≤ n then [(p, need)] else (p, n) :: takePages r (need - n)

/-- Windows that hold pages: valid, or still being zeroed. -/
def Window.live (w : Window) : Bool := w.valid || w.zeroing

/-- Device pages of a window in HBM, the Loam, host or peer memory: its extents and its spill extent. -/
def Window.pages (w : Window) : List (Nat × Nat) := if w.live then (w.sppage, w.spilled) :: w.ext else []

/-- The pages that a byte range touches, as one run. -/
def pageRun (a n : Nat) : Nat × Nat := (a / pageSize, if n = 0 then 0 else (a + n - 1) / pageSize + 1 - a / pageSize)

/-- Byte ranges of HBM that traces and injections of Kestrel's loops use (R499). -/
def loopRanges (s : State) : List (Nat × Nat) :=
  s.loops.filterMap (fun e => match e.2.trace with | some t => some (t.base, t.bytes) | none => none)

/-- Every used run of device pages: windows, the context table (R112), the trace buffer (R516) and loop traces (R499). -/
def usedRuns (s : State) : List (Nat × Nat) :=
  ((s.windows.flatMap (fun e => e.2.pages)) ++
    (match s.cm.base with | some b => [pageRun b 0x400000] | none => []) ++
    (match s.owl.base with | some b => [pageRun b s.owl.size] | none => []) ++
    (loopRanges s).map (fun r => pageRun r.1 r.2)).filter (fun r => r.2 != 0)

/-- The free runs of device pages [lo, hi). -/
def freeRuns (s : State) (lo hi : Nat) : List (Nat × Nat) :=
  gaps lo hi (sortRuns ((usedRuns s).filter (fun r => decide (r.1 < hi) && decide (lo < r.1 + r.2))))

/-- The pages of a region that R202 allocates from: HBM or the Loam. -/
def regionPages (region : Nat) : Nat × Nat :=
  if region = 0 then (0, hbmSize / pageSize) else (loamBase / pageSize, (loamBase + loamSize) / pageSize)

/-- The pages of a spill target (R212, R213). -/
def targetPages (s : State) (target : Nat) : Nat × Nat :=
  if target = 0x10 then
    match s.hostSpill with
    | some r => (hostBase / pageSize, hostBase / pageSize + r.count)
    | none => (0, 0)
  else
    let r := tget s.peerSpill target
    let b := (peerBase + target * hostBase) / pageSize + r.first
    (b, b + r.count)

/-- What an allocation finds: extents, spilled pages and their first page. -/
structure Alloc where
  ext : List (Nat × Nat) := []
  spilled : Nat := 0
  sppage : Nat := 0
  deriving DecidableEq, Repr, Inhabited

/-- Allocate a window's pages (R202): the allocation, or the status of its failure. -/
def allocPages (s : State) (region npages minres target : Nat) (spillable : Bool) : Except Nat Alloc :=
  let rp := regionPages region
  let ext := takePages (fourLongest (freeRuns s rp.1 rp.2)) npages
  let got := (ext.map Prod.snd).sum
  let short := if region = 0 then stHbmExhausted else stLoamExhausted
  if got = npages then .ok { ext := ext }
  else if !spillable then .error short
  else if got < minres then .error stHbmExhausted
  else
    let tp := targetPages s target
    match (freeRuns s tp.1 tp.2).find? (fun r => decide (npages - got ≤ r.2)) with
    | some r => .ok { ext := ext, spilled := npages - got, sppage := r.1 }
    | none => .error stSpillTargetUnset

end Sys2Proof.Machine
end

