-- ==== Sys2Proof/Machine/Cortum.lean ====
section
/-! DEFINITION. The Cortum block format: headers, code tables, the symbol stream, transforms, decoding and encoding of one block
(chapter 02). -/

namespace Sys2Proof.Machine

/-! ### Decode error codes (Table 02.10) -/

/-- HEADER. -/
def errHeader : Nat := 1
/-- TABLE_ABSENT. -/
def errTable : Nat := 2
/-- SEQUENCE_GAP. -/
def errSeq : Nat := 3
/-- ILLEGAL_CODE. -/
def errCode : Nat := 4
/-- DISTANCE_BEYOND_HISTORY. -/
def errDist : Nat := 5
/-- LENGTH_OVERRUN. -/
def errLen : Nat := 6
/-- TRUNCATED. -/
def errTrunc : Nat := 7
/-- CHECK. -/
def errCheck : Nat := 8
/-- POISON. -/
def errPoison : Nat := 9

/-! ### Headers (R47 to R49) -/

/-- A block's encoding: format, block scaling, the transforms, the row-delta stride (Tables 02.2 and 04.2). -/
structure Enc where
  fmt : Nat := 0
  bscale : Bool := false
  mxs : Bool := false
  zmask : Bool := false
  rdelta : Bool := false
  emsplit : Bool := false
  bplane : Bool := false
  rstride : Nat := 0
  deriving DecidableEq, Repr, Inhabited

/-- A block header (Table 02.2). -/
structure Hdr where
  enc : Enc := {}
  raw : Bool := false
  linked : Bool := false
  flushed : Bool := false
  last : Bool := false
  poison : Bool := false
  orig : Nat := 0
  pay : Nat := 0
  tmode : Nat := 0
  tslot : Nat := 0
  tgen : Nat := 0
  seq : Nat := 0
  padb : Nat := 0
  hcrc : Nat := 0
  dcrc : Nat := 0
  resv : Bool := false
  deriving DecidableEq, Repr, Inhabited

/-- Read a header from its 16 bytes. -/
def parseHdr (bs : List Byte) : Hdr :=
  let d := bytesDw (bs.take 16)
  let d0 := d.getD 0 0
  let d1 := d.getD 1 0
  let d2 := d.getD 2 0
  { enc := { fmt := bits d0 3 0, bscale := bit d0 4, mxs := bit d0 11, zmask := bit d0 12, rdelta := bit d0 13
             emsplit := bit d0 14, bplane := bit d0 15, rstride := bits d1 21 10 }
    raw := bit d0 5, linked := bit d0 6, flushed := bit d0 7, last := bit d0 8, poison := bit d0 9
    orig := bits d0 23 16, pay := bits d0 31 24, tmode := bits d1 1 0, tslot := bits d1 9 2, tgen := bits d1 29 22
    seq := bits d2 15 0, padb := bits d2 19 16, hcrc := bits d2 31 24, dcrc := (d.getD 3 0).toNat
    resv := bit d0 10 || bits d1 31 30 != 0 || bits d2 23 20 != 0 }

/-- A header's first 11 bytes, without HCRC and DCRC. -/
def Hdr.bare (h : Hdr) : List Byte :=
  let e := h.enc
  leBytes 4 (e.fmt + 2 ^ 4 * b2n e.bscale + 2 ^ 5 * b2n h.raw + 2 ^ 6 * b2n h.linked + 2 ^ 7 * b2n h.flushed + 2 ^ 8 * b2n h.last +
    2 ^ 9 * b2n h.poison + 2 ^ 11 * b2n e.mxs + 2 ^ 12 * b2n e.zmask + 2 ^ 13 * b2n e.rdelta + 2 ^ 14 * b2n e.emsplit +
    2 ^ 15 * b2n e.bplane + 2 ^ 16 * h.orig + 2 ^ 24 * h.pay) ++
  leBytes 4 (h.tmode + 2 ^ 2 * h.tslot + 2 ^ 10 * e.rstride + 2 ^ 22 * h.tgen) ++
  leBytes 3 (h.seq + 2 ^ 16 * h.padb)

/-- A header's 16 bytes, HCRC computed last (R49, R67). -/
def Hdr.bytes (h : Hdr) : List Byte := h.bare ++ leBytes 1 (crc8 h.bare) ++ leBytes 4 h.dcrc

/-- Bytes of the original. -/
def Hdr.origLen (h : Hdr) : Nat := 16 * (h.orig + 1)
/-- Bytes of the payload. -/
def Hdr.payLen (h : Hdr) : Nat := 16 * (h.pay + 1)

/-- A block's bytes with POISON set and HCRC computed again (R49, R73). -/
def poisonBlock (bs : List Byte) : List Byte :=
  let b1 := BitVec.ofNat 8 ((bs.getD 1 0).toNat ||| 2)
  let h := (bs.take 1 ++ [b1] ++ (bs.drop 2)).take 11
  h ++ [BitVec.ofNat 8 (crc8 h)] ++ bs.drop 12

/-! ### Encodings (R52, R53, Tables 02.4, 02.5 and 03.3) -/

/-- Formats that block scaling serves. -/
def scalable (fmt : Nat) : Bool := (decide (3 ≤ fmt) && decide (fmt ≤ 7)) || fmt == 9 || fmt == 0xB

/-- Bytes of a group (Table 02.5). -/
def groupSize (fmt : Nat) : Nat := if fmt = 3 ∨ fmt = 4 ∨ fmt = 9 then 33 else if fmt = 5 ∨ fmt = 6 then 25 else 17

/-- Element width in bytes; 0 for packed formats. -/
def elemWidth (fmt : Nat) : Nat :=
  if fmt = 0 then 4 else if fmt = 1 ∨ fmt = 2 ∨ fmt = 8 ∨ fmt = 0xE then 2
  else if fmt = 3 ∨ fmt = 4 ∨ fmt = 9 ∨ fmt = 0xA ∨ fmt = 0xD then 1 else 0

/-- Delta unit in bytes. -/
def deltaUnit (fmt : Nat) : Nat := if elemWidth fmt = 0 then 1 else elemWidth fmt

/-- Formats that a ZMASK takes (Table 02.4). -/
def zmaskOk (fmt : Nat) : Bool := decide (fmt ≤ 4) || (decide (8 ≤ fmt) && decide (fmt ≤ 0xA)) || fmt == 0xD || fmt == 0xE

/-- The transform conditions of Table 02.4 and the formats of BSCALE. -/
def Enc.ok (e : Enc) : Bool :=
  decide (e.fmt < 0xF) && (!e.bscale || scalable e.fmt) && (!e.mxs || e.bscale) &&
  (!(e.bscale && (e.zmask || e.rdelta || e.emsplit || e.bplane)) || e.mxs) &&
  (!e.zmask || (zmaskOk e.fmt && !e.rdelta)) && (!e.emsplit || decide (e.fmt ≤ 4)) &&
  (!e.bplane || (e.fmt == 0 || e.fmt == 1 || e.fmt == 2 || e.fmt == 8 || e.fmt == 0xE)) &&
  (if e.rdelta then e.rstride != 0 else e.rstride == 0)

/-- The length conditions of R53 for an original of `n` bytes. -/
def Enc.lenOk (e : Enc) (n : Nat) : Bool :=
  !e.bscale || (decide (groupSize e.fmt ≤ n) && decide (n % groupSize e.fmt < 16))

/-- Groups in an original of `n` bytes. -/
def Enc.groups (e : Enc) (n : Nat) : Nat := n / groupSize e.fmt

/-- Bytes of the scale region. -/
def Enc.scaleLen (e : Enc) (n : Nat) : Nat := if e.mxs then e.groups n else 0

/-- Bytes of the group padding. -/
def Enc.padLen (e : Enc) (n : Nat) : Nat := if e.bscale then n % groupSize e.fmt else 0

/-- Elements in the element region. -/
def Enc.elems (e : Enc) (n : Nat) : Nat := (n - e.scaleLen n - e.padLen n) / elemWidth e.fmt

/-- Bytes of the presence bitmap. -/
def Enc.mapLen (e : Enc) (n : Nat) : Nat := if e.zmask then (e.elems n + 7) / 8 else 0

/-- Check 5 of Table 02.9. -/
def Hdr.fieldsOk (h : Hdr) : Bool :=
  !h.resv && h.enc.ok && h.enc.lenOk h.origLen && decide (h.tmode ≤ 1) &&
  (!(h.tmode == 1) || (h.tslot == 0 && h.tgen == 0)) && (!h.enc.bscale || h.padb == 0) &&
  (if h.raw then
    !h.enc.mxs && !h.enc.zmask && !h.enc.rdelta && !h.enc.emsplit && !h.enc.bplane && h.tmode == 0 && h.tslot == 0 && h.tgen == 0 &&
    h.enc.rstride == 0 && h.pay == h.orig
   else decide (h.pay ≤ h.orig))

/-! ### Transforms (R51 to R57) -/

/-- Split a list into runs of `n` elements (`n` at least 1); the last may be short. -/
def chunks {α : Type} (n : Nat) : Nat → List α → List (List α)
  | 0, _ => []
  | _, [] => []
  | fuel + 1, l => l.take n :: chunks n fuel (l.drop n)

/-- Exponent bits of a format with a sign and exponent (R55). -/
def expBits (fmt : Nat) : Nat := if fmt ≤ 1 then 8 else if fmt = 2 ∨ fmt = 4 then 5 else 4

/-- EMSPLIT of one element. -/
def emSplit (w e x : Nat) : Nat :=
  let m := w - e - 1
  (x / 2 ^ m % 2 ^ e) * 2 ^ (m + 1) + (x / 2 ^ (w - 1) % 2) * 2 ^ m + x % 2 ^ m

/-- Its inverse. -/
def emJoin (w e y : Nat) : Nat :=
  let m := w - e - 1
  (y / 2 ^ m % 2) * 2 ^ (w - 1) + (y / 2 ^ (m + 1) % 2 ^ e) * 2 ^ m + y % 2 ^ m

/-- Apply a function to each little-endian element of `k` bytes. -/
def mapElems (k : Nat) (f : Nat → Nat) (bs : List Byte) : List Byte :=
  (chunks k bs.length bs).flatMap (fun c => if c.length = k then leBytes k (f (leNat c)) else c)

/-- RDELTA by an encoder: unit i minus unit i − s (R56). -/
def deltaEnc (u s : Nat) (bs : List Byte) : List Byte :=
  let xs := (chunks u bs.length bs).map leNat
  (xs.zip (List.replicate s 0 ++ xs)).flatMap (fun p => leBytes u ((p.1 + 2 ^ (8 * u) - p.2) % 2 ^ (8 * u)))

/-- RDELTA undone: each unit plus the rebuilt unit s places before (R56). `done` is newest first. -/
def deltaDec (u s : Nat) : List Nat → List Nat → List Nat
  | [], done => done.reverse
  | c :: r, done => deltaDec u s r (((c + (if s = 0 then 0 else done.getD (s - 1) 0)) % 2 ^ (8 * u)) :: done)

/-- BPLANE: the bytes of `w`-byte elements as `w` planes (R57). -/
def planes (w : Nat) (bs : List Byte) : List Byte :=
  (List.range w).flatMap (fun p => (chunks w bs.length bs).map (fun c => c.getD p 0))

/-- BPLANE undone. -/
def unplanes (w : Nat) (bs : List Byte) : List Byte :=
  let m := bs.length / w
  (List.range m).flatMap (fun i => (List.range w).map (fun p => bs.getD (p * m + i) 0))

/-- MXS: scale bytes, element bytes, padding (R53). -/
def mxSplit (g : Nat) (bs : List Byte) : List Byte :=
  let k := bs.length / g
  let gs := chunks g bs.length (bs.take (k * g))
  gs.flatMap (·.take 1) ++ gs.flatMap (·.drop 1) ++ bs.drop (k * g)

/-- MXS undone. -/
def mxJoin (g : Nat) (bs : List Byte) : List Byte :=
  let k := bs.length / g
  let body := (bs.drop k).take (k * (g - 1))
  ((bs.take k).zip (chunks (g - 1) bs.length body)).flatMap (fun p => p.1 :: p.2) ++ bs.drop (k * g)

/-- The presence of element `j` in a bitmap. -/
def present (map : List Byte) (j : Nat) : Bool := (map.getD (j / 8) 0).toNat.testBit (j % 8)

/-- Number of elements that a bitmap marks, bits beyond the last element included. -/
def ones (map : List Byte) : Nat := ((List.range (8 * map.length)).filter (present map)).length

/-- The byte that fills an absent element: all its bits are 0, or the LOG8 zero 0x80 (R54). -/
def absentByte (fmt : Nat) : Byte := if fmt = 0xD then 0x80 else 0

/-- Whether an element is present under ZMASK (R54). -/
def elemPresent (fmt : Nat) (c : List Byte) : Bool := c.any (· != absentByte fmt)

/-- ZMASK of an element region of format `fmt`: the bitmap, then the present elements (R54). -/
def zmaskEnc (fmt : Nat) (bs : List Byte) : List Byte :=
  let es := chunks (elemWidth fmt) bs.length bs
  let nz := es.map (elemPresent fmt)
  ((chunks 8 nz.length nz).map (fun c => BitVec.ofNat 8 ((c.zipIdx.map (fun p => if p.1 then 2 ^ p.2 else 0)).sum))) ++
    (es.filter (elemPresent fmt)).flatten

/-- ZMASK undone: `n` elements from the bitmap and the present elements. -/
def zmaskDec (fmt : Nat) (map : List Byte) : Nat → Nat → List Byte → List Byte
  | 0, _, _ => []
  | n + 1, j, es =>
    if present map j then es.take (elemWidth fmt) ++ zmaskDec fmt map n (j + 1) (es.drop (elemWidth fmt))
    else List.replicate (elemWidth fmt) (absentByte fmt) ++ zmaskDec fmt map n (j + 1) es

/-- The transforms of an encoding applied to an original: its coded bytes (R51). -/
def transform (e : Enc) (o : List Byte) : List Byte :=
  let n := o.length
  let a := if e.mxs then mxSplit (groupSize e.fmt) o else o
  let s := a.take (e.scaleLen n)
  let body := (a.drop (e.scaleLen n)).take (n - e.scaleLen n - (if e.mxs then e.padLen n else 0))
  let pad := a.drop (e.scaleLen n + body.length)
  let w := elemWidth e.fmt
  let z := if e.zmask then zmaskEnc e.fmt body else body
  let map := z.take (e.mapLen n)
  let x0 := z.drop (e.mapLen n)
  let x1 := if e.emsplit then mapElems w (emSplit (8 * w) (expBits e.fmt)) x0 else x0
  let x2 := if e.rdelta then deltaEnc (deltaUnit e.fmt) e.rstride x1 else x1
  let x3 := if e.bplane then planes w x2 else x2
  s ++ map ++ x3 ++ pad

/-- The original of `n` bytes that coded bytes stand for (R51 in reverse). -/
def untransform (e : Enc) (n : Nat) (c : List Byte) : List Byte :=
  let s := c.take (e.scaleLen n)
  let map := (c.drop (e.scaleLen n)).take (e.mapLen n)
  let padN := if e.mxs then e.padLen n else 0
  let x3 := (c.drop (e.scaleLen n + e.mapLen n)).take (c.length - e.scaleLen n - e.mapLen n - padN)
  let pad := c.drop (e.scaleLen n + e.mapLen n + x3.length)
  let w := elemWidth e.fmt
  let x2 := if e.bplane then unplanes w x3 else x3
  let x1 := if e.rdelta then
      (deltaDec (deltaUnit e.fmt) e.rstride ((chunks (deltaUnit e.fmt) x2.length x2).map leNat) []).flatMap (leBytes (deltaUnit e.fmt))
    else x2
  let x0 := if e.emsplit then mapElems w (emJoin (8 * w) (expBits e.fmt)) x1 else x1
  let body := if e.zmask then zmaskDec e.fmt map (e.elems n) 0 x0 else x0
  let a := s ++ body ++ pad
  if e.mxs then mxJoin (groupSize e.fmt) a else a

/-! ### Code tables (R64 to R66) -/

/-- The first codes of lengths 1 to 15, from the counts of each length (R64). -/
def firstCodes (lens : List Nat) : Nat → Nat → Nat → List Nat
  | 0, _, _ => []
  | fuel + 1, len, code =>
    let prev := if len = 1 then 0 else (lens.filter (· == len - 1)).length
    let c := (code + prev) * 2
    c :: firstCodes lens fuel (len + 1) c

/-- The present symbols with their lengths and codes (R64). -/
def codesOf (lens : List Nat) : List (Nat × Nat × Nat) :=
  let f := firstCodes lens 15 1 0
  (lens.zipIdx.foldl (fun (a : List (Nat × Nat × Nat) × List Nat) p =>
    if p.1 = 0 then a
    else
      let c := a.2.getD (p.1 - 1) 0
      ((p.2, p.1, c) :: a.1, a.2.set (p.1 - 1) (c + 1))) ([], f)).1.reverse

/-- A table of 288 lengths is valid (R64). -/
def tableOk (lens : List Nat) : Bool :=
  lens.length == 288 && lens.all (· ≤ 15) && lens.any (· != 0) && lens.getD 287 0 == 0 &&
  decide ((lens.map (fun l => if l = 0 then 0 else 2 ^ (15 - l))).sum ≤ 2 ^ 15)

/-- The lengths that a slot image spells, if R66 lets it load. -/
def slotImage (bs : List Byte) : Option (List Nat) :=
  let lens := bs.map (fun b => b.toNat % 16)
  if bs.length = 288 ∧ bs.all (fun b => decide (b.toNat < 16)) = true ∧ tableOk lens = true then some lens else none

/-! ### Reading a payload (R59, R61, R62, R65, R76) -/

/-- A byte with its poison mark. -/
abbrev PByte := Byte × Bool

/-- The unread rest of a payload: bytes, and bits already read of the first. -/
structure Rd where
  rest : List PByte := []
  off : Nat := 0
  deriving DecidableEq, Repr, Inhabited

/-- Read one bit: TRUNCATED at the end, POISON at the first bit of a poisoned byte (R76). -/
def Rd.bit (r : Rd) : Except Nat (Nat × Rd) :=
  match r.rest with
  | [] => .error errTrunc
  | (b, p) :: t =>
    if p && r.off == 0 then .error errPoison
    else .ok (b.toNat / 2 ^ (7 - r.off) % 2, if r.off = 7 then { rest := t } else { r with off := r.off + 1 })

/-- Read `n` bits, most significant first (R59). -/
def Rd.bitsN : Nat → Nat → Rd → Except Nat (Nat × Rd)
  | 0, a, r => .ok (a, r)
  | n + 1, a, r =>
    match r.bit with
    | .error e => .error e
    | .ok (b, r1) => Rd.bitsN n (2 * a + b) r1

/-- Read a symbol of a table, bit by bit: ILLEGAL_CODE as soon as no code begins with the bits read (R64). -/
def Rd.symbol (codes : List (Nat × Nat × Nat)) : Nat → Nat → Nat → Rd → Except Nat (Nat × Rd)
  | 0, _, _, _ => .error errCode
  | fuel + 1, len, code, r =>
    match r.bit with
    | .error e => .error e
    | .ok (b, r1) =>
      let c := 2 * code + b
      match codes.find? (fun k => k.2.1 == len + 1 && k.2.2 == c) with
      | some k => .ok (k.1, r1)
      | none =>
        if codes.any (fun k => decide (len + 1 < k.2.1) && k.2.2 / 2 ^ (k.2.1 - (len + 1)) == c) then Rd.symbol codes fuel (len + 1) c r1
        else .error errCode

/-- The entries of a sparse table (R65): `prev` is the last symbol plus 1. -/
def Rd.sparse : Nat → Nat → List Nat → Rd → Except Nat (List Nat × Rd)
  | 0, _, lens, r => .ok (lens, r)
  | n + 1, prev, lens, r =>
    match Rd.bitsN 9 0 r with
    | .error e => .error e
    | .ok (sym, r1) =>
      if sym < prev ∨ 287 < sym then .error errHeader
      else
        match Rd.bitsN 4 0 r1 with
        | .error e => .error e
        | .ok (len, r2) => if len = 0 then .error errHeader else Rd.sparse n (sym + 1) (lens.set sym len) r2

/-- The tokens of a dense table (R65), lengths gathered newest first. -/
def Rd.dense : Nat → List Nat → Rd → Except Nat (List Nat × Rd)
  | 0, _, _ => .error errHeader
  | fuel + 1, done, r =>
    if done.length = 288 then .ok (done.reverse, r)
    else
      match Rd.bitsN 4 0 r with
      | .error e => .error e
      | .ok (l, r1) =>
        if l ≠ 0 then Rd.dense fuel (l :: done) r1
        else
          match Rd.bitsN 5 0 r1 with
          | .error e => .error e
          | .ok (z, r2) =>
            if 288 < done.length + z + 1 then .error errHeader else Rd.dense fuel (List.replicate (z + 1) 0 ++ done) r2

/-- A dynamic table (R65). -/
def Rd.table (r : Rd) : Except Nat (List Nat × Rd) :=
  match r.bit with
  | .error e => .error e
  | .ok (f, r1) =>
    let t := if f = 0 then
        match Rd.bitsN 5 0 r1 with
        | .error e => .error e
        | .ok (n, r2) => Rd.sparse (n + 1) 0 (List.replicate 288 0) r2
      else Rd.dense 289 [] r1
    match t with
    | .error e => .error e
    | .ok (lens, r2) => if tableOk lens then .ok (lens, r2) else .error errHeader

/-- Base and extra bits of zero-run class `i` (Table 02.7); a match's base is one more (Table 02.8). -/
def runClass (i : Nat) : Nat × Nat := if i < 4 then (2 + i, 0) else (4 + 2 ^ (i - 3), i - 3)

/-- Append `n` copies from distance `d` (R62); `back` is newest first.  A poisoned byte fails the copy (Table 12.8). -/
def copyBack (d : Nat) : Nat → List PByte → Except Nat (List PByte)
  | 0, back => .ok back
  | n + 1, back =>
    let x := back.getD (d - 1) (0, false)
    if x.2 then .error errPoison else copyBack d n (x :: back)

/-- What the symbol loop works on: coded bytes newest first with the history behind them, how many are coded, the current
target (R58), and whether that target ends the ZMASK bitmap. -/
structure Loop where
  back : List PByte := []
  size : Nat := 0
  goal : Nat := 0
  inMap : Bool := false
  rd : Rd := {}

/-- The bitmap has been reached: a bit beyond the last element is HEADER; otherwise the target is C (R58). -/
def Loop.mapDone (e : Enc) (n : Nat) (l : Loop) : Except Nat Loop :=
  let map := ((l.back.take (e.mapLen n)).map Prod.fst).reverse
  if (List.range (8 * map.length)).any (fun j => decide (e.elems n ≤ j) && present map j) then .error errHeader
  else .ok { l with goal := l.size + ones map * elemWidth e.fmt + e.padLen n, inMap := false }

/-- One symbol (R70). -/
def Loop.step (codes : List (Nat × Nat × Nat)) (reach : Nat) (l : Loop) : Except Nat Loop :=
  match Rd.symbol codes 15 0 0 l.rd with
  | .error e => .error e
  | .ok (s, r) =>
    if s ≤ 255 then .ok { l with back := (BitVec.ofNat 8 s, false) :: l.back, size := l.size + 1, rd := r }
    else if s ≤ 270 then
      let k := runClass (s - 256)
      match Rd.bitsN k.2 0 r with
      | .error e => .error e
      | .ok (x, r1) =>
        let n := k.1 + x
        if l.goal < l.size + n then .error errLen
        else .ok { l with back := List.replicate n (0, false) ++ l.back, size := l.size + n, rd := r1 }
    else if s = 271 then
      .ok { l with back := List.replicate (l.goal - l.size) (0, false) ++ l.back, size := l.goal, rd := r }
    else if s ≤ 286 then
      let k := runClass (s - 272)
      match Rd.bitsN k.2 0 r with
      | .error e => .error e
      | .ok (x, r1) =>
        let n := k.1 + 1 + x
        match Rd.bitsN 4 0 r1 with
        | .error e => .error e
        | .ok (c, r2) =>
          if c = 15 then .error errCode
          else
            match Rd.bitsN c 0 r2 with
            | .error e => .error e
            | .ok (y, r3) =>
              let d := 2 ^ c + y
              if l.size + reach < d ∨ 16384 < d then .error errDist
              else if l.goal < l.size + n then .error errLen
              else
                match copyBack d n l.back with
                | .error e => .error e
                | .ok b => .ok { l with back := b, size := l.size + n, rd := r3 }
    else .error errCode

/-- The symbol loop (R70): until C coded bytes. -/
def Loop.run (codes : List (Nat × Nat × Nat)) (e : Enc) (n reach : Nat) : Nat → Loop → Except Nat Loop
  | 0, _ => .error errTrunc
  | fuel + 1, l =>
    if l.size < l.goal then
      match l.step codes reach with
      | .error x => .error x
      | .ok m => Loop.run codes e n reach fuel m
    else if l.inMap then
      match l.mapDone e n with
      | .error x => .error x
      | .ok m => Loop.run codes e n reach fuel m
    else .ok l

/-- The symbols of a payload: the coded bytes and the unread rest.  `hist` is the history, newest first. -/
def decodeSymbols (lens : List Nat) (e : Enc) (n : Nat) (hist : List PByte) (r : Rd) : Except Nat (List Byte × Rd) :=
  let h := hist.take 16384
  let first := if e.zmask then e.scaleLen n + e.mapLen n else n
  match Loop.run (codesOf lens) e n h.length 9000 { back := h, goal := first, inMap := e.zmask, rd := r } with
  | .error x => .error x
  | .ok l => .ok (((l.back.take l.size).map Prod.fst).reverse, l.rd)

/-- The end of a payload (check 10): POISON anywhere in what was not read; else, in bit order, a 1 bit or a whole unread
granule (HEADER), or the end of the readable bytes (TRUNCATED).  DEDUCED: an unread granule of which some bytes can be read remains from
its first bit on, so HEADER is met before the end of those bytes (assumption 147).  `left` counts the payload's bytes from the reader on, `used` those
before it. -/
def payloadEnd (r : Rd) (used left : Nat) : Except Nat Unit :=
  let unread := if r.off = 0 then r.rest else r.rest.drop 1
  if unread.any (·.2) then .error errPoison
  else
    let inGranule := (used + (if r.off = 0 then 0 else 1)) % 16
    let room := if inGranule = 0 then 0 else 16 - inGranule
    let part := if r.off = 0 then 0 else (match r.rest with | (b, _) :: _ => b.toNat % 2 ^ (8 - r.off) | [] => 0)
    let tail := unread.take room
    if part ≠ 0 ∨ tail.any (fun b => b.1 != 0) = true then .error errHeader
    else
      let leftUnread := if r.off = 0 then left else left - 1
      if leftUnread ≤ room then (if unread.length < leftUnread then .error errTrunc else .ok ())
      else if unread.length ≤ room then .error errTrunc
      else .error errHeader

/-! ### Decoding a block (R45, R46, R68, Table 02.9) -/

/-- What a decoder holds besides the block: its mode, the context's state (R46), the history newest first, and the tables. -/
structure DecIn where
  ordered : Bool := false
  link : Bool := false
  ended : Bool := false
  expect : Nat := 0
  poisoned : Bool := false
  hist : List PByte := []
  slots : List (Nat × Nat × List Nat) := []

/-- A decode that failed: the error, and the header if it passed check 5. -/
structure DecErr where
  code : Nat := 0
  hdr : Option Hdr := none
  deriving DecidableEq, Repr

/-- A decoded block: its header, original and coded bytes. -/
structure Decoded where
  hdr : Hdr := {}
  orig : List Byte := []
  coded : List Byte := []
  deriving DecidableEq, Repr, Inhabited

/-- The table of a slot at a generation. -/
def DecIn.table (d : DecIn) (slot gen : Nat) : Option (List Nat) :=
  (d.slots.find? (fun e => e.1 == slot && e.2.1 == gen)).map (fun e => e.2.2)

/-- Checks 1 to 5: the header, or the error. -/
def checkHeader (bs : List PByte) : Except DecErr Hdr :=
  let hb := bs.take 16
  if hb.any (·.2) then .error { code := errPoison }
  else if hb.length < 16 then .error { code := errTrunc }
  else
    let raw := hb.map Prod.fst
    let h := parseHdr raw
    if crc8 (raw.take 11) ≠ h.hcrc then .error { code := errHeader }
    else if h.poison then .error { code := errPoison }
    else if !h.fieldsOk then .error { code := errHeader }
    else .ok h

/-- Checks 6 to 8: 0, or the error.  On a poisoned stream check 8 decides for every LINKED block that the context permits, whatever its
SEQ and Ended, as R79 says (assumption 148). -/
def checkStream (d : DecIn) (h : Hdr) : Nat :=
  if !h.raw && h.tmode == 0 && (d.table h.tslot h.tgen).isNone then errTable
  else if h.linked && (!d.ordered || !d.link) then errSeq
  else if h.linked && d.poisoned then errPoison
  else if h.linked && (d.ended || h.seq != d.expect) then errSeq
  else 0

/-- Checks 9 and 10: the coded bytes of a payload. -/
def checkPayload (d : DecIn) (h : Hdr) (pay : List PByte) : Except Nat (List Byte) :=
  if h.raw then
    match pay.find? (·.2) with
    | some _ => .error errPoison
    | none => if pay.length < h.origLen then .error errTrunc else .ok (pay.map Prod.fst)
  else
    let hist := if h.linked then d.hist else []
    let start : Except Nat (List Nat × Rd) :=
      if h.tmode = 1 then Rd.table { rest := pay } else .ok ((d.table h.tslot h.tgen).getD [], { rest := pay })
    match start with
    | .error e => .error e
    | .ok (lens, r) =>
      match decodeSymbols lens h.enc h.origLen hist r with
      | .error e => .error e
      | .ok (coded, r1) =>
        let used := pay.length - r1.rest.length
        match payloadEnd r1 used (h.payLen - used) with
        | .error e => .error e
        | .ok () => .ok coded

/-- Checks 1 to 8 of the header at the start of the readable bytes: the header of the block whose payload is to be read. -/
def checkFront (d : DecIn) (bs : List PByte) : Option Hdr :=
  match checkHeader bs with
  | .error _ => none
  | .ok h => if checkStream d h = 0 then some h else none

/-- Decode the block at the start of the readable bytes (Table 02.9). -/
def decodeBlock (d : DecIn) (bs : List PByte) : Except DecErr Decoded :=
  match checkHeader bs with
  | .error e => .error e
  | .ok h =>
    let st := checkStream d h
    if st ≠ 0 then .error { code := st, hdr := some h }
    else
      match checkPayload d h ((bs.drop 16).take h.payLen) with
      | .error e => .error { code := e, hdr := some h }
      | .ok coded =>
        let o := untransform h.enc h.origLen coded
        if crc32c o ≠ h.dcrc then .error { code := errCheck, hdr := some h } else .ok { hdr := h, orig := o, coded := coded }

/-- The bytes of an original that a consumer writes to memory as data: without the padding of R44 or the group padding of
R53. -/
def Decoded.data (d : Decoded) : List Byte :=
  let n := d.orig.length
  if d.hdr.enc.bscale then d.orig.take (n - d.hdr.enc.padLen n) else d.orig.take (n - d.hdr.padb)

/-! ### Encoding a block (R67, R124 to R126) -/

/-- What an encoder is asked for beside the bytes. -/
structure EncIn where
  enc : Enc := {}
  tsel : Nat := 0
  tslot : Nat := 0
  tgen : Nat := 0
  lens : List Nat := []
  linked : Bool := false
  last : Bool := false
  flushed : Bool := false
  poison : Bool := false
  seq : Nat := 0
  padb : Nat := 0
  hist : List Byte := []

/-- One token of a symbol stream: a symbol, the value of its extra bits, and a match's distance class and bits (R61, R62). -/
structure Token where
  sym : Nat := 0
  extra : Nat := 0
  cls : Nat := 0
  dist : Nat := 0

/-- The number of extra bits that follow a symbol (Tables 02.7 and 02.8). -/
def extraBits (s : Nat) : Nat :=
  if s ≤ 255 ∨ s = 271 ∨ 286 < s then 0 else if s ≤ 270 then (runClass (s - 256)).2 else (runClass (s - 272)).2

/-- `n` bits of a number, most significant first (R59). -/
def bitsOf (n v : Nat) : List Bool := (List.range n).map (fun i => v.testBit (n - 1 - i))

/-- A token's bits under a table's codes (R59, R61, R62). -/
def Token.bits (codes : List (Nat × Nat × Nat)) (t : Token) : List Bool :=
  (match codes.find? (fun k => k.1 == t.sym) with | some k => bitsOf k.2.1 k.2.2 | none => []) ++ bitsOf (extraBits t.sym) t.extra ++
  (if 272 ≤ t.sym then bitsOf 4 t.cls ++ bitsOf t.cls t.dist else [])

/-- A run of `z` absent symbols in a dense table, at most 32 to a token (R65). -/
def absentBits (z : Nat) : List Bool :=
  (List.replicate (z / 32) (bitsOf 9 31)).flatten ++ (if z % 32 = 0 then [] else bitsOf 9 (z % 32 - 1))

/-- The tokens of a dense table, after `z` absent symbols (R65). -/
def denseBits : Nat → List Nat → List Bool
  | z, [] => absentBits z
  | z, l :: r => if l = 0 then denseBits (z + 1) r else absentBits z ++ bitsOf 4 l ++ denseBits 0 r

/-- The entries of a sparse table (R65). -/
def sparseBits (lens : List Nat) : List Bool :=
  (lens.zipIdx.filter (fun e => e.1 != 0)).flatMap (fun e => bitsOf 9 e.2 ++ bitsOf 4 e.1)

/-- A dynamic table in the shorter of its two forms, FORM 0 on a tie (R65, R124). -/
def tableBits (lens : List Nat) : List Bool :=
  let n := (lens.filter (· != 0)).length
  let dense := true :: denseBits 0 lens
  let sparse := false :: (bitsOf 5 (n - 1) ++ sparseBits lens)
  if n ≤ 32 ∧ sparse.length ≤ dense.length then sparse else dense

/-- Bits packed into bytes, the first in bit 7, and into whole granules (R59). -/
def packGranules (bs : List Bool) : List Byte :=
  let by_ := (chunks 8 bs.length bs).map (fun c => BitVec.ofNat 8 ((c ++ List.replicate (8 - c.length) false).foldl (fun n b => 2 * n + b2n b) 0))
  by_ ++ List.replicate ((16 - by_.length % 16) % 16) 0

/-- How often a symbol stream uses each of the 288 symbols. -/
def tokenCounts (ts : List Token) : List Nat := ts.foldl (fun c t => c.set t.sym (c.getD t.sym 0 + 1)) (List.replicate 288 0)

/-- The bits that a table spends on symbol codes (R124). -/
def codeCost (counts lens : List Nat) : Nat := ((counts.zip lens).map (fun p => p.1 * p.2)).sum

/-- A table codes every symbol that a stream uses. -/
def covers (counts lens : List Nat) : Bool := (counts.zip lens).all (fun p => p.1 == 0 || p.2 != 0)

/-- Two lists in order of weight, merged; the first list goes first on a tie. -/
def mergeWeights : Nat → List (Nat × List Nat) → List (Nat × List Nat) → List (Nat × List Nat)
  | 0, a, b => a ++ b
  | _ + 1, [], b => b
  | _ + 1, a, [] => a
  | f + 1, x :: a, y :: b => if x.1 ≤ y.1 then x :: mergeWeights f a (y :: b) else y :: mergeWeights f (x :: a) b

/-- Neighbours joined in pairs; a last one without a partner goes. -/
def joinPairs : List (Nat × List Nat) → List (Nat × List Nat)
  | x :: y :: r => (x.1 + y.1, x.2 ++ y.2) :: joinPairs r
  | _ => []

/-- The packages of the package-merge method after `k` rounds over the leaves. -/
def packages (leaves : List (Nat × List Nat)) : Nat → List (Nat × List Nat)
  | 0 => leaves
  | k + 1 =>
    let p := joinPairs (packages leaves k)
    mergeWeights (leaves.length + p.length) leaves p

/-- A table of lengths of at most 15 bits with the fewest symbol-code bits for the counts (R124): the package-merge method. -/
def leastTable (counts : List Nat) : List Nat :=
  let used := (counts.zipIdx.filter (fun e => e.1 != 0)).map (fun e => (e.1, [e.2]))
  let leaves := used.foldl (fun l e => mergeWeights (l.length + 1) l [e]) []
  if leaves.length = 1 then (counts.map (fun c => if c = 0 then 0 else 1))
  else
    let syms := ((packages leaves 14).take (2 * leaves.length - 2)).flatMap Prod.snd
    syms.foldl (fun l x => l.set x (l.getD x 0 + 1)) (List.replicate 288 0)

/-- The dynamic table of a symbol stream: one with the fewest symbol-code bits; which of those is open (R124, assumption 7). -/
def dynamicTable (counts : List Nat) : List Nat :=
  let best := leastTable counts
  let c := Config.tableChoice counts
  if tableOk c ∧ covers counts c = true ∧ codeCost counts c = codeCost counts best then c else best

/-- The payload of a symbol stream: the dynamic table first, if it is one (R59). -/
def payloadBytes (i : EncIn) (dyn : Bool) (ts : List Token) : List Byte :=
  let lens := if dyn then dynamicTable (tokenCounts ts) else i.lens
  packGranules ((if dyn then tableBits lens else []) ++ ts.flatMap (Token.bits (codesOf lens)))

/-- A payload stands for the coded bytes of an original of `n` bytes: it decodes to them and ends as R59 says. -/
def payloadOk (i : EncIn) (n : Nat) (dyn : Bool) (coded pay : List Byte) : Bool :=
  let h : Hdr := { enc := i.enc, linked := i.linked, orig := n / 16 - 1, pay := pay.length / 16 - 1, tmode := if dyn then 1 else 0
                   tslot := if dyn then 0 else i.tslot, tgen := if dyn then 0 else i.tgen }
  let d : DecIn := { hist := i.hist.map (·, false), slots := [(i.tslot, i.tgen, i.lens)] }
  (match checkPayload d h (pay.map (·, false)) with
   | .ok c => c == coded
   | .error _ => false)

/-! ### A symbol stream for a table that lacks literals (R126) -/

/-- The length classes that a table codes, longest first: symbol, base and extra bits; `first` is class 0's symbol, `plus` what a base
exceeds the zero run's by (Tables 02.7 and 02.8). -/
def codedClasses (lens : List Nat) (first plus : Nat) : List (Nat × Nat × Nat) :=
  (((List.range 15).map (fun i => (first + i, (runClass i).1 + plus, (runClass i).2))).filter (fun c => lens.getD c.1 0 != 0)).reverse

/-- The longest length of a class that is at most `n` and for which `ok` holds. -/
def classLength (ok : Nat → Bool) (n : Nat) (c : Nat × Nat × Nat) : Option Nat :=
  ((List.range (2 ^ c.2.2)).reverse.map (c.2.1 + ·)).find? (fun k => decide (k ≤ n) && ok k)

/-- The first of some classes that gives a length: the class and the length. -/
def firstClass (ok : Nat → Bool) (n : Nat) (cs : List (Nat × Nat × Nat)) : Option ((Nat × Nat × Nat) × Nat) :=
  cs.findSome? (fun c => (classLength ok n c).map (fun k => (c, k)))

/-- The bytes that two lists begin with in common. -/
def commonLen : List Byte → List Byte → Nat
  | a :: x, b :: y => if a = b then commonLen x y + 1 else 0
  | _, _ => 0

/-- A token for the byte at the head of `rest`, of which `n` may be replaced by one symbol; `back` are the bytes before it, oldest first,
and `ok k` holds where the stream can go on `k` bytes further: the literal, a zero run, or a match (R60 to R63). -/
def tokenAt (lens : List Nat) (back rest : List Byte) (n : Nat) (ok : Nat → Bool) : Option (Token × Nat) :=
  let b := rest.headD 0
  if lens.getD b.toNat 0 != 0 && ok 1 then some ({ sym := b.toNat }, 1)
  else
    let zeros := min n (rest.takeWhile (· == 0)).length
    match firstClass ok zeros (codedClasses lens 256 0) with
    | some (c, k) => some ({ sym := c.1, extra := k - c.2.1 }, k)
    | none =>
      if lens.getD 271 0 != 0 && zeros == n && ok n then some ({ sym := 271 }, n)
      else
        (List.range (min 16384 back.length)).findSome? (fun i =>
          let src := back.drop (back.length - (i + 1))
          let m := min n (commonLen rest (src ++ rest))
          (firstClass ok m (codedClasses lens 272 1)).map (fun r =>
            ({ sym := r.1.1, extra := r.2 - r.1.2.1, cls := Nat.log2 (i + 1), dist := i + 1 - 2 ^ Nat.log2 (i + 1) }, r.2)))

/-- For the last places of the coded bytes, from the end on: the token there, if the rest can be coded.  `done` holds the places behind
the present one, nearest first; `mapEnd` is where the ZMASK bitmap ends, which no token crosses (R67). -/
def tokensFrom (lens : List Nat) (hist coded : List Byte) (mapEnd : Nat) : Nat → List (Option (Token × Nat)) → List (Option (Token × Nat))
  | 0, done => done
  | i + 1, done =>
    let n := (if i < mapEnd then mapEnd else coded.length) - i
    let ok := fun k => decide (0 < k) && (k == done.length + 1 || (done.getD (k - 1) none).isSome)
    tokensFrom lens hist coded mapEnd i (tokenAt lens (hist.reverse ++ coded.take i) (coded.drop i) n ok :: done)

/-- Follow the tokens from the first place. -/
def followTokens : Nat → List (Option (Token × Nat)) → Option (List Token)
  | _, [] => some []
  | 0, _ => none
  | _ + 1, none :: _ => none
  | f + 1, some (t, k) :: r => (followTokens f (r.drop (k - 1))).map (t :: ·)

/-- A symbol stream that codes the bytes with the symbols that a table has, if there is one (R126). -/
def coveringTokens (lens : List Nat) (hist coded : List Byte) (mapEnd : Nat) : Option (List Token) :=
  followTokens (coded.length + 1) (tokensFrom lens hist coded mapEnd coded.length [])

/-- The place where the ZMASK bitmap of an original of `n` bytes ends, 0 without one (R58). -/
def Enc.bitmapEnd (e : Enc) (n : Nat) : Nat := if e.zmask then e.scaleLen n + e.mapLen n else 0

/-- The RAW = 0 payload of a block under a table choice, if the table can code it (R67, R124, R126): the encoder's symbol stream, which
is open (assumption 7), as far as it stands for the coded bytes; else a literal for each; else any stream of the symbols that the
table has. -/
def payloadOf (i : EncIn) (n : Nat) (dyn : Bool) (coded : List Byte) : Option (List Byte) :=
  let ts := (Config.encodeTokens coded (if i.linked then i.hist else []) (i.enc.bitmapEnd n) (if dyn then [] else i.lens)).map
    (fun t => { sym := t.1, extra := t.2.1, cls := t.2.2.1, dist := t.2.2.2 : Token })
  let p := payloadBytes i dyn ts
  if payloadOk i n dyn coded p then some p
  else
    let q := payloadBytes i dyn (coded.map (fun b => { sym := b.toNat }))
    if payloadOk i n dyn coded q then some q
    else
      let r := (coveringTokens i.lens (if i.linked then i.hist else []) coded (i.enc.bitmapEnd n)).map (payloadBytes i dyn)
      r.filter (payloadOk i n dyn coded)

/-- The payload under a table choice (Table 04.6): static, dynamic, or the one of fewer granules, ties to the static slot. -/
def payloadChoice (i : EncIn) (n : Nat) (coded : List Byte) : Option (Bool × List Byte) :=
  let s := (payloadOf i n false coded).map (fun p => (false, p))
  let d := (payloadOf i n true coded).map (fun p => (true, p))
  if i.tsel = 0 then s
  else if i.tsel = 1 then d
  else match s, d with
    | some a, some b => if a.2.length ≤ b.2.length then some a else some b
    | some a, none => some a
    | none, r => r

/-- The payload of a block that shrinks: one of no more granules than its original (R126). -/
def choosePayload (i : EncIn) (n : Nat) (coded : List Byte) : Option (Bool × List Byte) :=
  (payloadChoice i n coded).filter (fun p => decide (p.2.length ≤ n))

/-- The block of an original of whole granules: its bytes, header and coded bytes; `raw` where it does not shrink (R48, R126). -/
structure Encoded where
  hdr : Hdr := {}
  bytes : List Byte := []
  coded : List Byte := []
  deriving DecidableEq, Repr, Inhabited

/-- Form a block (R67). -/
def encodeBlock (i : EncIn) (o : List Byte) : Encoded :=
  let n := o.length
  let coded := transform i.enc o
  let h0 : Hdr := { linked := i.linked, last := i.last, flushed := i.flushed, poison := i.poison, orig := n / 16 - 1, seq := i.seq
                    padb := i.padb, dcrc := crc32c o }
  match choosePayload i n coded with
  | some (dyn, p) =>
    let h := { h0 with enc := i.enc, pay := p.length / 16 - 1, tmode := if dyn then 1 else 0, tslot := if dyn then 0 else i.tslot
                       tgen := if dyn then 0 else i.tgen }
    { hdr := h, bytes := h.bytes ++ p, coded := coded }
  | none =>
    let h := { h0 with enc := { fmt := i.enc.fmt, bscale := i.enc.bscale }, raw := true, pay := n / 16 - 1 }
    { hdr := h, bytes := h.bytes ++ o, coded := o }

end Sys2Proof.Machine
end

