-- ==== Sys2Proof/Machine/Streams.lean ====
section
/-! DEFINITION. Stream contexts, the context cache, history and pending areas, static slots, and the decoding and forming of a
stream's blocks (R106 to R113, R117 to R119, R125, R134; chapter 04). -/

namespace Sys2Proof.Machine

/-! ### The stored context (Table 04.2) -/

/-- Low and high parts of a 48-bit address as two dwords. -/
def addrDws (a : Nat) : List Dword := [dw a, dw (a / 2 ^ 32 % 2 ^ 16)]

/-- The 64 bytes of a context, as dwords. -/
def Ctx.dws (x : Ctx) : List Dword :=
  [dw (b2n x.valid + 2 * b2n x.encode + 4 * b2n x.ended + 8 * b2n x.poisoned + 16 * b2n x.held + 32 * b2n x.link +
      64 * b2n x.pendok + 128 * b2n x.flushq + 2 ^ 8 * x.owner + 2 ^ 16 * x.stream),
   dw (x.fmt + 2 ^ 4 * b2n x.bscale + 2 ^ 5 * x.xf + 2 ^ 10 * x.tsel + 2 ^ 12 * x.tslot + 2 ^ 20 * x.tgen),
   dw (x.rstride + 2 ^ 12 * x.blklen), dw (x.seq + 2 ^ 16 * x.lasterr + 2 ^ 20 * b2n x.segstart)] ++
  addrDws x.cursor ++ addrDws x.sbuf ++
  [dw (x.hfill + 2 ^ 16 * x.hhead), dw x.pend, dw x.pcrc, dw x.blocks, dw x.bytes, dw (x.bytes / 2 ^ 32), dw x.errors, 0]

/-- The context that 64 stored bytes spell. -/
def Ctx.ofDws (d : List Dword) : Ctx :=
  let w := fun i => d.getD i 0
  { valid := bit (w 0) 0, encode := bit (w 0) 1, ended := bit (w 0) 2, poisoned := bit (w 0) 3, held := bit (w 0) 4
    link := bit (w 0) 5, pendok := bit (w 0) 6, flushq := bit (w 0) 7, owner := bits (w 0) 13 8, stream := bits (w 0) 31 16
    fmt := bits (w 1) 3 0, bscale := bit (w 1) 4, xf := bits (w 1) 9 5, tsel := bits (w 1) 11 10, tslot := bits (w 1) 19 12
    tgen := bits (w 1) 27 20, rstride := bits (w 2) 11 0, blklen := bits (w 2) 19 12, seq := bits (w 3) 15 0
    lasterr := bits (w 3) 19 16, segstart := bit (w 3) 20, cursor := (w 4).toNat + 2 ^ 32 * bits (w 5) 15 0
    sbuf := (w 6).toNat + 2 ^ 32 * bits (w 7) 15 0, hfill := bits (w 8) 14 0, hhead := bits (w 8) 29 16, pend := bits (w 9) 11 0
    pcrc := (w 10).toNat, blocks := (w 11).toNat, bytes := (w 12).toNat + 2 ^ 32 * (w 13).toNat, errors := (w 14).toNat }

/-- An encoding from the fields that contexts and descriptors share (Table 04.2). -/
def encOf (fmt : Nat) (bscale : Bool) (xf rstride : Nat) : Enc :=
  { fmt := fmt, bscale := bscale, mxs := xf.testBit 0, zmask := xf.testBit 1, rdelta := xf.testBit 2, emsplit := xf.testBit 3
    bplane := xf.testBit 4, rstride := rstride }

/-- A context's encoding. -/
def Ctx.enc (x : Ctx) : Enc := encOf x.fmt x.bscale x.xf x.rstride

/-- Bytes of original data that a full block of an encoding holds (R125, Table 04.4). -/
def dataPerBlock (e : Enc) (blklen : Nat) : Nat :=
  let b := 16 * (blklen + 1)
  if e.bscale then b / groupSize e.fmt * groupSize e.fmt else b

/-- Packed elements of 6 bits, which need not end with a byte (R87, R88). -/
def Enc.six (e : Enc) : Bool := !e.bscale && (e.fmt == 5 || e.fmt == 6)

/-- What a packer or a TRANSCODE gathers for its blocks: bytes, or, one to a byte, the elements of unscaled FP6.  How many of them a full
block holds (R88, R125). -/
def unitsPerBlock (e : Enc) (blklen : Nat) : Nat := if e.six then 8 * (16 * (blklen + 1)) / 6 else dataPerBlock e blklen

/-- The bytes that units spell; a byte is poisoned where a unit in it is. -/
def unitBytes (e : Enc) (us : List (Byte × Bool)) : List (Byte × Bool) :=
  if e.six then
    (pack 6 (us.map (fun u => u.1.toNat))).zipIdx.map (fun b =>
      (b.1, us.zipIdx.any (fun u => u.1.2 && decide (6 * u.2 < 8 * b.2 + 8) && decide (8 * b.2 < 6 * u.2 + 6))))
  else us

/-- The units that bytes spell: `n` elements of unscaled FP6. -/
def bytesUnits (e : Enc) (n : Nat) (bs : List (Byte × Bool)) : List (Byte × Bool) :=
  if e.six then
    (unpack 6 n (bs.map Prod.fst)).zipIdx.map (fun x =>
      (BitVec.ofNat 8 x.1, (bs.getD (6 * x.2 / 8) (0, false)).2 || (bs.getD ((6 * x.2 + 5) / 8) (0, false)).2))
  else bs

/-! ### The context cache (R111) -/

/-- A stream number lies in a partition's range (R106). -/
def inStreams (s : State) (part n : Nat) : Bool :=
  let p := tget s.parts part
  decide (p.sbase ≤ n) && decide (n < p.sbase + p.scount)

/-- Stream operations are possible (R112). -/
def streamsOpen (s : State) : Bool := s.cm.base.isSome && s.cm.clearing.isNone

/-- A context is in the cache. -/
def resident (s : State) (n : Nat) : Bool := s.cm.resident.contains n

/-- A context as it stands, in the cache or in the context table. -/
def ctxOf (s : State) (n : Nat) : Ctx :=
  if resident s n then tget s.ctxs n
  else match s.cm.base with
    | some b => Ctx.ofDws (bytesDw (memBytes s (b + 64 * n) 64))
    | none => {}

/-- The stream context manager's unit identifier. -/
def ctxUnit : Nat := unitId 0x09 0

/-- Injected errors strike the word of a context that is written first (Table 12.7). -/
def plantCtx (n : Nat) (s : State) : State :=
  let ks := [0, 1].filter (armed s ctxUnit)
  { s with
    integ := { s.integ with inject := ks.foldl (fun l k => useInject ctxUnit k l) s.integ.inject }
    cm := { s.cm with bad := s.cm.bad ++ ks.map (fun k => (n, k)) } }

/-- Put a context in the cache. -/
def setCtx (n : Nat) (x : Ctx) (s : State) : State := plantCtx n { s with ctxs := tset s.ctxs n x }

/-- An error in a cached context: an uncorrectable one poisons the context (R418, R431). -/
def ctxEcc (n st : Nat) (part : Option Nat) (f : EccFinding) (injected : Bool) (s : State) : State :=
  let s1 := if fatalEcc f then { s with ctxs := tmod s.ctxs n (fun x => { x with pfill := true }) } else s
  wordEcc ctxUnit st part f injected s1

/-- A context is read: the injected errors in it are found. -/
def readCtx (n st : Nat) (part : Option Nat) (s : State) : State :=
  (s.cm.bad.filter (fun b => b.1 == n)).foldl (fun u b => ctxEcc n st part (if b.2 = 0 then .corrected else .uncorrectable true) true u)
    { s with cm := { s.cm with bad := s.cm.bad.filter (fun b => b.1 != n) } }

/-- A context is written whole. -/
def rewriteCtx (n : Nat) (x : Ctx) (s : State) : State :=
  setCtx n x { s with cm := { s.cm with bad := s.cm.bad.filter (fun b => b.1 != n) } }

/-- A fill or an eviction of a context is a spill of its owner (R111). -/
def ctxSpill (x : Ctx) (s : State) : State := raise attnSpill (if x.valid then .parts [x.owner] else .admin) s

/-- Write a context back to the context table and drop it from the cache; one whose fill was marked keeps its marks. -/
def writeBack (n : Nat) (s : State) : State :=
  let x := tget s.ctxs n
  let a := s.cm.base.getD 0 + 64 * n
  let s1 := (writePieces viaCtx none (devPieces a 64) (dwBytes x.dws) (if x.pfill then [0, 1, 2, 3] else []) s).s
  { s1 with ctxs := tdel s1.ctxs n, cm := { s1.cm with resident := s1.cm.resident.filter (· != n) } }

/-- Make room in the cache: the unpinned context released longest ago goes. -/
def evictOne (s : State) : State :=
  if s.cm.resident.length < 4096 then s
  else match s.cm.resident.find? (fun n => (tget s.cm.holder n).isNone) with
    | some n =>
      let s1 := readCtx n stOk none s
      ctxSpill (tget s1.ctxs n) (bump cntCtxEvict 0 (writeBack n s1))
    | none => s

/-- Bring a context into the cache (R111); a marked fill poisons it (Table 12.8). -/
def fillCtx (n : Nat) (s : State) : State :=
  if resident s n then s
  else
    let s1 := evictOne s
    let r := sysRead viaCtx (s1.cm.base.getD 0 + 64 * n) 64 s1
    let x := { Ctx.ofDws (bytesDw r.bytes) with pfill := !r.bad.isEmpty }
    let s2 := setCtx n x { r.s with cm := { r.s.cm with resident := r.s.cm.resident ++ [n] } }
    ctxSpill x (bump cntCtxMiss 0 s2)

/-- The status of the first condition of R108 that a unit or command finds, or 0. -/
def Ctx.useStatus (x : Ctx) (part : Nat) (encode : Bool) : Nat :=
  if x.pfill then stPoisonConsumed
  else if !x.valid then stStreamUnconfigured
  else if x.owner ≠ part then stStreamRange
  else if x.encode ≠ encode then stStreamDirection
  else 0

/-! ### Static slots (R118, R119) -/

/-- A slot's table as a partition may use it: its generation and lengths, if the slot does not count as empty. -/
def slotTable (s : State) (part slot : Nat) : Option (Nat × List Nat) :=
  let t := tget s.sslots slot
  match t.owner with
  | .free => none
  | .part p => if p = part then some (t.gen, t.lens) else none
  | .global => some (t.gen, t.lens)

/-- Every slot that a partition's decoders may use. -/
def slotTables (s : State) (part : Nat) : List (Nat × Nat × List Nat) :=
  (s.sslots.map Prod.fst).filterMap (fun k => (slotTable s part k).map (fun t => (k, t.1, t.2)))

/-- What a slot holds for a partition's unit that has taken its block up: loads since then do not reach it (R75). -/
def slotUnder (s : State) (part : Nat) (old : OldSlots) (slot : Nat) : Option (Nat × List Nat) :=
  match old.find? (fun e => e.1 == slot) with
  | some e => e.2
  | none => slotTable s part slot

/-- Every slot that a decoder of a partition may use for the block in hand (R75). -/
def slotsUnder (s : State) (part : Nat) (old : OldSlots) : List (Nat × Nat × List Nat) :=
  (slotTables s part).filter (fun t => !old.any (fun e => e.1 == t.1)) ++ old.filterMap (fun e => e.2.map (fun t => (e.1, t.1, t.2)))

/-- A slot is about to change under a unit's block in hand. -/
def OldSlots.note (s : State) (part slot : Nat) (o : OldSlots) : OldSlots :=
  if o.any (fun e => e.1 == slot) then o else o ++ [(slot, slotTable s part slot)]

/-! ### Bytes of the stream buffer (R109) -/

/-- Bytes with their poison marks. -/
def withMarks (bs : List Byte) (bad : List Nat) : List PByte := bs.zipIdx.map (fun e => (e.1, bad.contains (e.2 / 16)))

/-- Granules of a list of marked bytes that hold a poisoned one. -/
def badOf (ps : List PByte) : List Nat :=
  (List.range ((ps.length + 15) / 16)).filter (fun j => ((ps.drop (16 * j)).take 16).any (·.2))

/-- Read runs of partition addresses in order. -/
def readSpans (via : Via) (part : Nat) : List (Nat × Nat) → State → Except Stop (List PByte × State)
  | [], s => .ok ([], s)
  | (a, n) :: r, s =>
    let g := partRead via part a n s
    if g.st ≠ 0 then .error g.stop
    else match readSpans via part r g.s with
      | .error e => .error e
      | .ok (ps, s1) => .ok (withMarks g.bytes g.bad ++ ps, s1)

/-- Write bytes over runs of partition addresses in order. -/
def writeSpans (via : Via) (part : Nat) : List (Nat × Nat) → List Byte → State → Except Stop State
  | [], _, s => .ok s
  | (a, n) :: r, bs, s =>
    let g := partWrite via part a (bs.take n) [] s
    if g.st ≠ 0 then .error g.stop else writeSpans via part r (bs.drop n) g.s

/-- `n` bytes of the history ring from offset `o`, as runs of addresses. -/
def ringRuns (sbuf o n : Nat) : List (Nat × Nat) := (runsOf 16384 3 (o % 16384) n).map (fun r => (sbuf + r.1 % 16384, r.2))

/-- A stream's history, newest byte first. -/
def readHist (via : Via) (x : Ctx) (s : State) : Except Stop (List PByte × State) :=
  if !x.link || x.hfill == 0 then .ok ([], s)
  else match readSpans via x.owner (ringRuns x.sbuf (x.hhead + 16384 - x.hfill) x.hfill) s with
    | .error e => .error e
    | .ok (ps, s1) => .ok (ps.reverse, s1)

/-- A block's coded bytes enter the history, which an independent block empties first (R46, R72, R125). -/
def addHist (via : Via) (x : Ctx) (linked : Bool) (coded : List Byte) (s : State) : Except Stop (Ctx × State) :=
  if !x.link then .ok (x, s)
  else match writeSpans via x.owner (ringRuns x.sbuf x.hhead coded.length) coded s with
    | .error e => .error e
    | .ok s1 =>
      .ok ({ x with hhead := (x.hhead + coded.length) % 16384
                    hfill := min 16384 ((if linked then x.hfill else 0) + coded.length) }, s1)

/-- A 32-bit count plus one, saturating. -/
def satInc (n : Nat) : Nat := min (n + 1) 0xFFFFFFFF

/-! ### Decoding for a stream (R45, R46, R108) -/

/-- What a decoder of a context holds. -/
def Ctx.decIn (x : Ctx) (hist : List PByte) (slots : List (Nat × Nat × List Nat)) : DecIn :=
  { ordered := true, link := x.link, ended := x.ended, expect := x.seq, poisoned := x.poisoned, hist := hist, slots := slots }

/-- A decoded block is committed to its context (R46, R71, Table 02.1). -/
def commitDecode (via : Via) (n : Nat) (d : Decoded) (s : State) : Except Stop State :=
  match addHist via (tget s.ctxs n) d.hdr.linked d.coded s with
  | .error e => .error e
  | .ok (x, s1) =>
    .ok (setCtx n { x with
      seq := (d.hdr.seq + 1) % 65536
      ended := d.hdr.last
      poisoned := x.poisoned && d.hdr.linked
      blocks := satInc x.blocks
      bytes := (x.bytes + d.orig.length) % 2 ^ 64 } s1)

/-- A failed block counts in the ERRORS and LASTERR of the context in use (R132, Table 04.2). -/
def failContext (n err : Nat) (s : State) : State :=
  setCtx n { tget s.ctxs n with errors := satInc (tget s.ctxs n).errors, lasterr := err } s

/-- A block fails to decode (R46, R132): the unit's counter, and the decode context's ERRORS, LASTERR and Poisoned. -/
def failDecode (unit : Nat) (stream : Option Nat) (err : Nat) (s : State) : State :=
  let s1 := bump cntDecodeError unit s
  match stream with
  | none => s1
  | some n =>
    let s2 := failContext n err s1
    setCtx n { tget s2.ctxs n with poisoned := (tget s2.ctxs n).poisoned || err == errPoison } s2

/-! ### Forming a stream's block (R67, R73, R119, R125, R126) -/

/-- Original bytes of a block still to be formed: the data without padding, and what its header says. -/
structure FormReq where
  data : List PByte := []
  flushed : Bool := false
  last : Bool := false
  deriving DecidableEq, Repr, Inhabited

/-- Zero bytes that pad data to a granule. -/
def padTo16 (n : Nat) : Nat := (16 - n % 16) % 16

/-- The block that data become under an encoding: PADB and group padding (R44, R53), POISON (R73). -/
def FormReq.encIn (r : FormReq) (e : Enc) (tsel tslot tgen : Nat) (lens : List Nat) (linked : Bool) (seq : Nat) (poisoned : Bool)
    (hist : List Byte) : EncIn :=
  { enc := e, tsel := tsel, tslot := tslot, tgen := tgen, lens := lens, linked := linked, last := r.last, flushed := r.flushed
    poison := poisoned, seq := seq, padb := if e.bscale then 0 else padTo16 r.data.length, hist := hist }

/-- The original of whole granules that data make. -/
def FormReq.orig (r : FormReq) : List Byte := r.data.map Prod.fst ++ List.replicate (padTo16 r.data.length) 0

/-- The block that data become on an encode context with a history (newest first), and whether it carries POISON; or
ST_TABLE_ABSENT (R119).  `t` is what the context's static slot held at the start of the block. -/
def formWith (t : Option (Nat × List Nat)) (x : Ctx) (hist : List Byte) (r : FormReq) : Except Stop (Encoded × Bool) :=
  if x.tsel ≠ 1 ∧ (t.map Prod.fst) ≠ some x.tgen then .error { st := stTableAbsent }
  else
    let linked := x.link && !x.segstart
    let poison := r.data.any (·.2) || (linked && x.poisoned)
    let i := r.encIn x.enc x.tsel x.tslot x.tgen ((t.map Prod.snd).getD []) linked x.seq poison hist
    .ok (encodeBlock i r.orig, poison)

/-- The next block of a resident encode context, with the history of its stream buffer. -/
def formBlock (via : Via) (x : Ctx) (r : FormReq) (s : State) : Except Stop (Encoded × Bool × State) :=
  match readHist via x s with
  | .error e => .error e
  | .ok (h, s1) =>
    match formWith (slotTable s1 x.owner x.tslot) x (h.map Prod.fst) r with
    | .error e => .error e
    | .ok (b, poison) => .ok (b, poison, s1)

/-- An encode context after a block, its history aside (R73, R125). -/
def Ctx.afterBlock (x : Ctx) (b : Encoded) (poison : Bool) : Ctx :=
  { x with
    seq := (x.seq + 1) % 65536
    segstart := b.hdr.last || !x.link
    poisoned := if b.hdr.linked then x.poisoned || poison else poison
    blocks := satInc x.blocks
    bytes := (x.bytes + b.hdr.origLen) % 2 ^ 64 }

/-- A formed block is committed to its context (R73, R125). -/
def commitEncode (via : Via) (n : Nat) (b : Encoded) (poison : Bool) (s : State) : Except Stop State :=
  match addHist via (tget s.ctxs n) b.hdr.linked b.coded s with
  | .error e => .error e
  | .ok (x, s1) => .ok (setCtx n (x.afterBlock b poison) s1)

/-! ### The pending area (R134) -/

/-- The initial value of a running CRC-32C. -/
def crcInit : Nat := 0xFFFFFFFF

/-- The pending bytes of a context. -/
def readPending (via : Via) (x : Ctx) (s : State) : Except Stop (List PByte × State) :=
  if x.pend = 0 then .ok ([], s) else readSpans via x.owner [(x.sbuf + 16384, x.pend)] s

/-- A context's pending area is empty. -/
def Ctx.unpend (x : Ctx) : Ctx := { x with pend := 0, pcrc := crcInit }

/-- Keep bytes in the pending area, with PEND and PCRC. -/
def setPending (via : Via) (n : Nat) (ps : List PByte) (s : State) : Except Stop State :=
  let x := tget s.ctxs n
  let bs := ps.map Prod.fst
  let x1 := { x with pend := bs.length, pcrc := crc32cFrom crcInit bs }
  let s0 := { s with cm := { s.cm with pendElems := tdel s.cm.pendElems n } }
  if bs = [] then .ok (setCtx n x1 s0)
  else
    let g := partWrite via x.owner (x.sbuf + 16384) bs (badOf ps) s0
    if g.st ≠ 0 then .error g.stop else .ok (setCtx n x1 g.s)

/-- The pending bytes of a stream as units of its encoding; a stream of unscaled FP6 on which packers or a TRANSCODE left elements holds
as many as they left (R88, assumption 149). -/
def pendingUnits (s : State) (n : Nat) (x : Ctx) (ps : List PByte) : List PByte :=
  if ps = [] then []
  else bytesUnits x.enc (match tget s.cm.pendElems n with | 0 => 8 * ps.length / 6 | k => k) ps

/-- Keep units in the pending area. -/
def setPendingUnits (via : Via) (n : Nat) (us : List PByte) (s : State) : Except Stop State :=
  let x := tget s.ctxs n
  match setPending via n (unitBytes x.enc us) s with
  | .error e => .error e
  | .ok s1 => .ok (if x.enc.six then { s1 with cm := { s1.cm with pendElems := tset s1.cm.pendElems n us.length } } else s1)

/-! ### Flush (R74, R134) -/

/-- What a flush ends with: status and result dwords. -/
structure FlushEnd where
  status : Nat := 0
  result : List Dword := []

/-- Pending bytes that a flush of an encoding turns into a block. -/
def flushTake (e : Enc) (pend : Nat) : Nat := if e.bscale then pend / groupSize e.fmt * groupSize e.fmt else pend

/-- An engine forms the pending bytes of a resident encode context into a flushed block at CURSOR (R134).  Which engine does
it is not stated, so a free value says whose requests they are and whose counter counts a raw block (assumption 3). -/
def flushBlock (n : Nat) (s0 : State) : Except Stop (FlushEnd × State) :=
  let x := tget s0.ctxs n
  let k := flushTake x.enc x.pend
  let j := freeBelow s0 8
  let via := viaEngine j
  let s := drawFree s0
  if k = 0 then .ok ({}, s0)
  else match readPending via x s with
    | .error e => .error e
    | .ok (ps, s1) =>
      match formBlock via x { data := ps.take k, flushed := true } s1 with
      | .error e => .error e
      | .ok (b, poison, s2) =>
        let g := partWrite via x.owner x.cursor b.bytes [] s2
        if g.st ≠ 0 then .error g.stop
        else match commitEncode via n b poison g.s with
          | .error e => .error e
          | .ok s4 =>
            let s5 := setCtx n { tget s4.ctxs n with cursor := x.cursor + b.bytes.length } s4
            match setPending via n (ps.drop k) s5 with
            | .error e => .error e
            | .ok s6 =>
              let s7 := if b.hdr.raw then bump cntCodecRaw (unitId 0x08 j) s6 else s6
              .ok ({ status := if poison then stPoisonPropagated else stOk
                     result := [dw x.cursor, dw (x.cursor / 2 ^ 32), dw (b.bytes.length / 16 - 1)] },
                poisonPropagated x.owner (b2n poison) s7)

/-- A flush with its outcome: one that cannot be carried out changes nothing but the counters (R34, R119, R134); a fence's HINT is its
result (R254). -/
def flushCtx (n : Nat) (s : State) : FlushEnd × State :=
  let p := (tget s.ctxs n).owner
  match flushBlock n s with
  | .ok r => r
  | .error e =>
    match e.fence with
    | some f => ({ status := e.st, result := [dw f.hint] }, turnedAway (viaEngine (freeBelow s 8)) (some p) f (drawFree s))
    | none => ({ status := e.st }, countFault p e.st s)

/-! ### Holding a context (R110) -/

/-- The key of a unit that uses contexts: its identifier of R25, plus 0x10000 for an expander's activation port. -/
def portKey (unit : Nat) (act : Bool) : Nat := unit + 0x10000 * b2n act

/-- Units wait for a context. -/
def hasWaiters (s : State) (n : Nat) : Bool := s.cm.waiting.any (fun w => w.2 == n)

/-- A unit holds a context. -/
def holdsCtx (s : State) (u n : Nat) : Bool := tget s.cm.holder n == some u

/-- A unit takes a context, and reads it. -/
def takeCtx (u n : Nat) (s : State) : State :=
  let x := tget s.ctxs n
  readCtx n stPoisonConsumed (some x.owner) (setCtx n { x with held := true }
    { s with cm := { s.cm with holder := tset s.cm.holder n (some u), waiting := s.cm.waiting.filter (· != (u, n)) } })

/-- A unit asks for a context: it takes a free one at once, and waits otherwise, which CNT_CTX_WAIT counts where another unit
is the reason. -/
def askCtx (u n : Nat) (s : State) : State :=
  if holdsCtx s u n || s.cm.waiting.contains (u, n) then s
  else if (tget s.cm.holder n).isNone && !hasWaiters s n && resident s n then takeCtx u n s
  else
    let others := (tget s.cm.holder n).isSome || hasWaiters s n
    let s1 := { s with cm := { s.cm with waiting := s.cm.waiting ++ [(u, n)] } }
    if others then bump cntCtxWait 0 s1 else s1

/-- Flushes run one after another, each posting its result. -/
def runFlushes (n : Nat) : List Nat → State → State
  | [], s => s
  | t :: r, s =>
    let e := flushCtx n s
    runFlushes n r (post t e.1.status e.1.result e.2)

/-- The queued flushes of a context run (R134, R138). -/
def runFlush (n : Nat) (s : State) : State :=
  let x := tget s.ctxs n
  if x.flushq then
    runFlushes n (tget s.cm.flushes n) (setCtx n { x with flushq := false } { s with cm := { s.cm with flushes := tdel s.cm.flushes n } })
  else s

/-- A unit releases a context: the queued flush runs before any waiting unit acquires it. -/
def releaseCtx (u n : Nat) (s : State) : State :=
  if holdsCtx s u n then
    let x := tget s.ctxs n
    runFlush n (setCtx n { x with held := false }
      { s with cm := { s.cm with holder := tdel s.cm.holder n, resident := s.cm.resident.filter (· != n) ++ [n] } })
  else s

/-- A block boundary of a unit that goes on with the stream: it keeps the context unless another unit or a flush waits. -/
def boundaryCtx (u n : Nat) (s : State) : State :=
  if holdsCtx s u n && (hasWaiters s n || (tget s.ctxs n).flushq) then askCtx u n (releaseCtx u n s) else s

/-- A unit no longer waits for any context. -/
def forgetWaits (u : Nat) (s : State) : State := { s with cm := { s.cm with waiting := s.cm.waiting.filter (fun w => w.1 != u) } }

end Sys2Proof.Machine
end

