-- ==== Sys2Proof/Machine/CmdMemory.lean ====
section
/-! DEFINITION. Windows, spill regions, the context table and device memory: the commands of group 0x04xx (R112, R201 to R204, R212,
R213, R218, R365). -/

namespace Sys2Proof.Machine

/-! ### WINDOW_MAP -/

/-- The fields of a WINDOW_MAP (Table 10.8). -/
structure MapArgs where
  win : Nat := 0
  wr : Bool := false
  region : Nat := 0
  spillable : Bool := false
  share : Bool := false
  target : Nat := 0
  vpage : Nat := 0
  npages : Nat := 0
  minres : Nat := 0
  dw8 : Dword := 0
  deriving DecidableEq, Repr

/-- Read them from a command. -/
def mapArgs (x : Cmd) : MapArgs :=
  { win := x.fld 4 3 0, wr := bit (x.par 4) 4, region := x.fld 4 7 5, spillable := bit (x.par 4) 8, share := bit (x.par 4) 9
    target := x.fld 4 14 10, vpage := x.fld 5 17 0, npages := x.fld 6 17 0, minres := x.fld 7 17 0, dw8 := x.par 8 }

/-- The source of a shared map. -/
def MapArgs.src (m : MapArgs) : Nat := winKey (bits m.dw8 5 0) (bits m.dw8 11 8)

/-- The first device page of REGION 2 or 3. -/
def MapArgs.first (m : MapArgs) : Nat := bits m.dw8 26 0

/-- Check 1, first part: DW8's bits of the case, and reserved codes (R365, Table 06.6). -/
def mapReserved (m : MapArgs) : Bool :=
  decide (4 ≤ m.region) || (decide (0x11 ≤ m.target) && m.target != 0x1F) ||
  (if m.share then bits m.dw8 7 6 != 0 || bits m.dw8 31 12 != 0
   else if m.region = 2 ∨ m.region = 3 then bits m.dw8 31 27 != 0
   else m.dw8 != 0)

/-- Check 1, second part: ranges (Table 06.6). -/
def mapRange (m : MapArgs) : Bool :=
  m.npages == 0 || decide (147456 < m.npages) || decide (262144 < m.vpage + m.npages) || decide (m.npages < m.minres) ||
  (if m.share then m.wr || m.region != 0 || m.spillable || m.target != 0 || m.minres != 0
   else (if m.region = 3 then decide (0x0F < m.target) else !m.spillable && m.target != 0x1F))

/-- Check 3: a page of the window overlaps another window of the partition. -/
def mapOverlap (s : State) (part : Nat) (m : MapArgs) : Bool :=
  (windowsOf s part).any (fun e => e.2.live && overlapsRun e.2.vpage e.2.npages m.vpage m.npages)
where
  /-- Two runs of pages overlap. -/
  overlapsRun (a n b k : Nat) : Bool := decide (a < b + k) && decide (b < a + n)

/-- Check 4 fails: SPILLABLE only with REGION 0, and with a target that is set. -/
def mapSpillBad (s : State) (m : MapArgs) : Bool :=
  m.spillable && (m.region != 0 ||
    (if m.target = 0x10 then s.hostSpill.isNone
     else decide (0x0F < m.target) || (tget s.peerSpill m.target).count == 0))

/-- The partition owns a link channel on a port (check 5; R274). -/
def ownsChannel (s : State) (part port : Nat) : Bool :=
  s.chans.any (fun e => e.2.valid && e.2.owner == part && e.1 / 16 == port)

/-- Check 6 fails: the pages named lie outside the host spill region or peer range, or another window uses one. -/
def mapPagesBad (s : State) (m : MapArgs) : Bool :=
  let tp := targetPages s (if m.region = 2 then 0x10 else m.target)
  decide (m.first < tp.1) || decide (tp.2 < m.first + m.npages) ||
  (usedRuns s).any (fun r => decide (r.1 < m.first + m.npages) && decide (m.first < r.1 + r.2))

/-- Whether a shared map's source may be shared: its partition exists and no PART_DESTROY of it has been accepted (R203, R409). -/
def shareSource (s : State) (m : MapArgs) : Bool :=
  let w := tget s.windows m.src
  let q := tget s.parts (m.src / 16)
  w.valid && !w.zeroing && decide (q.state ≠ .absent) && decide (q.state ≠ .destroying) && q.laterTks.isEmpty

/-- WINDOW_MAP's checks in the order of Table 06.6, and those of a shared map (R201, R203). -/
def windowMapCheck (s : State) (x : Cmd) : Verdict :=
  let m := mapArgs x
  let own := tget s.windows (winKey x.part m.win)
  (firstOf [(mapReserved m, stParamReserved), (mapRange m, stParamRange), (own.live, stWindowInUse),
    (mapOverlap s x.part m, stWindowOverlap)]).andThen
  (if m.share then
    firstOf [(!shareSource s m, stParamRange), ((tget s.windows m.src).npages != m.npages, stParamRange),
      ((tget s.windows m.src).wr, stWindowShareWritable)]
   else
    (firstOf [(mapSpillBad s m, stSpillTargetUnset), (m.region == 3 && !ownsChannel s x.part m.target, stChannelNotOwned),
      ((m.region == 2 || m.region == 3) && mapPagesBad s m, stWindowOverlap)]).andThen
    (if m.region ≤ 1 then
      match allocPages s m.region m.npages m.minres m.target m.spillable with
      | .ok _ => {}
      | .error e => no e
     else {}))

/-- The window that a map makes, not valid until the map completes (R202 to R204). -/
def mapWindow (s : State) (m : MapArgs) (ticket : Nat) : Window :=
  if m.share then
    { tget s.windows m.src with
      valid := false, wr := false, shared := true, vpage := m.vpage, zeroing := true, ticket := ticket
      srcPart := m.src / 16, srcWin := m.src % 16 }
  else
    let a : Alloc :=
      if m.region ≤ 1 then
        match allocPages s m.region m.npages m.minres m.target m.spillable with
        | .ok a => a
        | .error _ => {}
      else { ext := [(m.first, m.npages)] }
    { wr := m.wr, spillable := m.spillable, region := m.region
      target := if m.spillable || m.region == 3 then m.target else 0x1F
      vpage := m.vpage, npages := m.npages, spilled := a.spilled, ext := a.ext, sppage := a.sppage, zeroing := true, ticket := ticket }

/-- WINDOW_MAP's work begins: the window stands, its pages being zeroed. -/
def windowMapStart (x : Cmd) (ticket : Nat) (s : State) : State :=
  { s with windows := tset s.windows (winKey x.part (mapArgs x).win) (mapWindow s (mapArgs x) ticket) }

/-- WINDOW_MAP (R201). -/
def windowMapEffect (c : Nat) (p : Packet) (s : State) : State :=
  serve 0x0400 c p windowMapCheck (fun x t => pend x (windowMapStart x) t) s

/-- WINDOW_MAP. -/
def execWindowMap (c : Nat) (p : Packet) (s : State) : Host.Outcome State Fault Refusal := .next (windowMapEffect c p s)

/-! ### WINDOW_UNMAP -/

/-- A partition has a loaded program (R165). -/
def hasProgram (s : State) (part : Nat) : Bool := s.progs.any (fun e => e.2.loaded && e.2.part == part)

/-- A partition has a codec job queued or running. -/
def hasJob (s : State) (part : Nat) : Bool := s.jobs.any (fun j => j.part == part)

/-- The byte range [a, a + n) of window space meets a window. -/
def Window.meets (w : Window) (a n : Nat) : Bool :=
  n != 0 && decide (a < (w.vpage + w.npages) * pageSize) && decide (w.vpage * pageSize < a + n)

/-- A context has its stream buffer in the window. -/
def Ctx.buffers (x : Ctx) (w : Window) : Bool := x.valid && (x.link || x.pendok) && w.meets x.sbuf 20480

/-- A configured stream of the partition has its buffer in the window, whether the cache or the table holds its context. -/
def usesBuffer (s : State) (part : Nat) (w : Window) : Bool :=
  s.ctxs.any (fun e => resident s e.1 && e.2.owner == part && e.2.buffers w) ||
  (s.cm.base.isSome && s.mem.any (fun c => tableHit s part w c.1))
where
  /-- A nonzero byte of memory belongs to the table entry of such a stream. -/
  tableHit (s : State) (part : Nat) (w : Window) (a : Nat) : Bool :=
    let b := s.cm.base.getD 0
    let q := tget s.parts part
    decide (b + 64 * q.sbase ≤ a) && decide (a < b + 64 * (q.sbase + q.scount)) && (ctxOf s ((a - b) / 64)).buffers w

/-- A pool extent of the partition lies in the window. -/
def usesPool (s : State) (part : Nat) (w : Window) : Bool :=
  s.pools.any (fun e => e.2.owner == some part && e.2.extents.any (fun r => w.meets r.1 r.2))

/-- An enabled BAR2 segment of the partition covers a page of the window. -/
def usesSegment (s : State) (part : Nat) (w : Window) : Bool :=
  s.segs.any (fun e => e.2.en && e.2.part == part && w.meets (e.2.vpage * pageSize) (128 * pageSize))

/-- Another window shares the window (R203). -/
def isShared (s : State) (key : Nat) : Bool :=
  s.windows.any (fun e => e.2.live && e.2.shared && e.2.srcPart == key / 16 && e.2.srcWin == key % 16)

/-- WINDOW_UNMAP's check (R218, R226, Table 10.8). -/
def windowUnmapCheck (s : State) (x : Cmd) : Verdict :=
  let k := winKey x.part (x.fld 4 3 0)
  let w := tget s.windows k
  firstOf [
    (!w.valid || w.zeroing, stStateBusy),
    (hasProgram s x.part || hasJob s x.part, stStateBusy),
    (usesBuffer s x.part w || usesPool s x.part w || usesSegment s x.part w, stWindowInUse),
    (isShared s k, stWindowInUse)]

/-- WINDOW_UNMAP's effect: the window's pages are free again. -/
def windowUnmapApply (x : Cmd) (s : State) : State := forgetPages { s with windows := tset s.windows (winKey x.part (x.fld 4 3 0)) {} }

/-- WINDOW_UNMAP (R218). -/
def windowUnmapEffect (c : Nat) (p : Packet) (s : State) : State := serve 0x0401 c p windowUnmapCheck (actDo windowUnmapApply) s

/-- WINDOW_UNMAP. -/
def execWindowUnmap (c : Nat) (p : Packet) (s : State) : Host.Outcome State Fault Refusal := .next (windowUnmapEffect c p s)

/-! ### WINDOW_READ -/

/-- A window entry as 16 dwords (Table 06.4). -/
def Window.dws (w : Window) : List Dword :=
  let e := fun i => w.ext.getD i (0, 0)
  [dw (b2n w.valid + 2 * b2n w.wr + 4 * b2n w.spillable + 8 * b2n w.shared + 2 ^ 4 * w.region + 2 ^ 8 * w.target),
   dw w.vpage, dw w.npages, dw w.spilled,
   dw (e 0).1, dw (e 0).2, dw (e 1).1, dw (e 1).2, dw (e 2).1, dw (e 2).2, dw (e 3).1, dw (e 3).2, dw w.sppage, 0, 0, 0]

/-- WINDOW_READ checks nothing of its own. -/
def windowReadCheck (_ : State) (_ : Cmd) : Verdict := {}

/-- The entry that WINDOW_READ returns. -/
def windowReadOut (s : State) (x : Cmd) : List Byte := dwBytes (tget s.windows (winKey x.part (x.fld 4 3 0))).dws

/-- WINDOW_READ (R195). -/
def windowReadEffect (c : Nat) (p : Packet) (s : State) : State :=
  serve 0x0402 c p windowReadCheck (actOut 5 windowReadOut (fun _ _ => [])) s

/-- WINDOW_READ. -/
def execWindowRead (c : Nat) (p : Packet) (s : State) : Host.Outcome State Fault Refusal := .next (windowReadEffect c p s)

/-! ### HOST_SPILL_SET and PEER_SPILL_SET -/

/-- A window holds a page of the device pages [lo, hi). -/
def pagesHeld (s : State) (lo hi : Nat) : Bool :=
  s.windows.any (fun e => e.2.pages.any (fun r => r.2 != 0 && decide (r.1 < hi) && decide (lo < r.1 + r.2)))

/-- HOST_SPILL_SET's check (R212). -/
def hostSpillSetCheck (s : State) (x : Cmd) : Verdict :=
  firstOf [
    (!portExists s (x.fld 4 0 0) || x.par64 5 % pageSize != 0 || decide (524288 < x.fld 7 19 0), stParamRange),
    (pagesHeld s (hostBase / pageSize) (peerBase / pageSize), stStateBusy)]

/-- HOST_SPILL_SET's effect: the region of the function, or none for 0 pages. -/
def hostSpillSetApply (x : Cmd) (s : State) : State :=
  let n := x.fld 7 19 0
  { s with hostSpill := if n = 0 then none else some { fn := x.fld 4 0 0, base := x.par64 5, first := 0, count := n } }

/-- HOST_SPILL_SET (R212). -/
def hostSpillSetEffect (c : Nat) (p : Packet) (s : State) : State := serve 0x0403 c p hostSpillSetCheck (actDo hostSpillSetApply) s

/-- HOST_SPILL_SET. -/
def execHostSpillSet (c : Nat) (p : Packet) (s : State) : Host.Outcome State Fault Refusal := .next (hostSpillSetEffect c p s)

/-- PEER_SPILL_SET's check (R213). -/
def peerSpillSetCheck (s : State) (x : Cmd) : Verdict :=
  let old := targetPages s (x.fld 4 3 0)
  firstOf [
    (decide (524288 < x.fld 5 18 0 + x.fld 6 19 0), stParamRange),
    (pagesHeld s old.1 old.2, stStateBusy)]

/-- PEER_SPILL_SET's effect: the port's range, or none for 0 pages. -/
def peerSpillSetApply (x : Cmd) (s : State) : State :=
  let n := x.fld 6 19 0
  { s with peerSpill := tset s.peerSpill (x.fld 4 3 0) (if n = 0 then {} else { first := x.fld 5 18 0, count := n }) }

/-- PEER_SPILL_SET (R213). -/
def peerSpillSetEffect (c : Nat) (p : Packet) (s : State) : State := serve 0x0404 c p peerSpillSetCheck (actDo peerSpillSetApply) s

/-- PEER_SPILL_SET. -/
def execPeerSpillSet (c : Nat) (p : Packet) (s : State) : Host.Outcome State Fault Refusal := .next (peerSpillSetEffect c p s)

/-! ### CONTEXT_BASE -/

/-- Two runs of pages meet. -/
def runsMeet (q r : Nat × Nat) : Bool := q.2 != 0 && r.2 != 0 && decide (q.1 < r.1 + r.2) && decide (r.1 < q.1 + q.2)

/-- A trace buffer, or the range of a loop's trace, touches a page of a run (R499, R516). -/
def traceHolds (s : State) (r : Nat × Nat) : Bool :=
  (match s.owl.base with | some b => runsMeet (pageRun b s.owl.size) r | none => false) ||
  (loopRanges s).any (fun x => runsMeet (pageRun x.1 x.2) r)

/-- CONTEXT_BASE's check (R112, R224, R516). -/
def contextBaseCheck (s : State) (x : Cmd) : Verdict :=
  let b := x.par64 4
  let r := pageRun b 0x400000
  firstOf [
    (s.cm.clearing.isSome, stStateBusy),
    (s.cm.configured, stStateBusy),
    (b % 0x400000 != 0 || decide (hbmSize < b + 0x400000) || pagesHeld s r.1 (r.1 + r.2) || traceHolds s r, stParamRange)]

/-- CONTEXT_BASE's work begins: the table's base stands and its contexts are being cleared. -/
def contextBaseStart (x : Cmd) (ticket : Nat) (s : State) : State :=
  { s with cm := { s.cm with base := some (x.par64 4), clearing := some ticket } }

/-- CONTEXT_BASE (R112). -/
def contextBaseEffect (c : Nat) (p : Packet) (s : State) : State :=
  serve 0x0405 c p contextBaseCheck (fun x t => pend x (contextBaseStart x) t) s

/-- CONTEXT_BASE. -/
def execContextBase (c : Nat) (p : Packet) (s : State) : Host.Outcome State Fault Refusal := .next (contextBaseEffect c p s)

/-! ### MEM_READ and MEM_WRITE -/

/-- The address and length of a MEM_ command (Table 10.8, R192; assumption 12). -/
def memRangeOk (x : Cmd) : Bool :=
  let a := x.par64 4
  let n := x.fld 6 12 0
  a % 16 == 0 && n % 16 == 0 && decide (16 ≤ n) && decide (n ≤ 4096) && sameLevel a n

/-- The checks that MEM_READ and MEM_WRITE share: the range, then the fence before it (R353). -/
def memCheck (s : State) (x : Cmd) : Verdict :=
  if !memRangeOk x then no stParamRange
  else match fenceAt s (x.par64 4) with
    | some h => { status := stDomainFenced, result := [dw h], counts := [(cntNocFenceNack, routerUnit procRouter)] }
    | none => {}

/-- MEM_READ's check. -/
def memReadCheck (s : State) (x : Cmd) : Verdict := memCheck s x

/-- The bits of a list of sector numbers, as four dwords. -/
def sectorDws (ks : List Nat) : List Dword :=
  [0, 1, 2, 3].map (fun i => dw (((ks.filter (fun k => k / 32 == i)).map (fun k => 2 ^ (k % 32))).foldl (· ||| ·) 0))

/-- MEM_READ's action: the bytes at OUT, and the sectors that arrived poisoned (R365, Table 12.8); the command processor's own request
may fail (R246, R254, R437). -/
def memReadAct (x : Cmd) (s : State) : State :=
  let n := x.fld 6 12 0
  if xferStatus x 7 n ≠ 0 then finish x { status := xferStatus x 7 n } s
  else
    let g := sysRead viaProc (x.par64 4) n s
    if g.reply.status ≠ 0 then finish x g.reply g.s
    else actOut 7 (fun _ _ => g.bytes) (fun _ _ => sectorDws (g.bad.map (· / 2)).eraseDups) x g.s

/-- MEM_READ (R365). -/
def memReadEffect (c : Nat) (p : Packet) (s : State) : State := serve 0x0406 c p memReadCheck memReadAct s

/-- MEM_READ. -/
def execMemRead (c : Nat) (p : Packet) (s : State) : Host.Outcome State Fault Refusal := .next (memReadEffect c p s)

/-- MEM_WRITE's check: the range, the fence, and the IN field (R352). -/
def memWriteCheck (s : State) (x : Cmd) : Verdict := (memCheck s x).andThen (no (xferStatus x 7 (x.fld 6 12 0)))

/-- MEM_WRITE's end once its IN bytes are there: they are written, and the reply follows (R352). -/
def memWriteFinish (x : Cmd) (data : List Byte) (s : State) : State :=
  let g := sysWrite viaProc (x.par64 4) data s
  finish x g.reply g.s

/-- MEM_WRITE's action: the IN bytes come from the mailbox at once, or by a host-memory read for which the command waits. -/
def memWriteAct (x : Cmd) (s : State) : State :=
  let n := x.fld 6 12 0
  if !isQp x.carrier then memWriteFinish x (mbxBytes s x.port (0x400 + x.fld 7 11 0) n) s
  else if canMaster s x.port then park x (hostRead x.port (x.par64 7) n (.input x.id) s)
  else finish x { status := stHostFault } s

/-- MEM_WRITE (R365). -/
def memWriteEffect (c : Nat) (p : Packet) (s : State) : State := serve 0x0407 c p memWriteCheck memWriteAct s

/-- MEM_WRITE. -/
def execMemWrite (c : Nat) (p : Packet) (s : State) : Host.Outcome State Fault Refusal := .next (memWriteEffect c p s)

end Sys2Proof.Machine
end

