-- ==== Sys2Proof/Machine/NetCore.lean ====
section
/-! DEFINITION. The on-chip network as its endpoints use it: requests as they end and wait, and the splitting of work at target
boundaries (chapter 07). -/

namespace Sys2Proof.Machine

/-! ### Splitting (R240) -/

/-- Pair source runs with destination runs of the same total, cutting both where either ends. -/
def pairRuns : Nat → List (Nat × Nat) → List (Nat × Nat) → List Chunk
  | 0, _, _ => []
  | _, [], _ => []
  | _, _, [] => []
  | f + 1, (a, n) :: r, (b, m) :: q =>
    let k := min n m
    { src := a, dst := b, len := k } ::
      pairRuns f (if k = n then r else (a + k, n - k) :: r) (if k = m then q else (b + k, m - k) :: q)

/-- The runs of a copy from pieces to pieces. -/
def copyChunks (src dst : List Piece) : List Chunk :=
  let a := cutRuns src
  let b := cutRuns dst
  pairRuns (a.length + b.length) a b

/-- A token request to a tile. -/
def tokenPkt (r q part tile counter count : Nat) : NocPkt :=
  { typ := 0x03, dest := tileRouter tile, dport := 0, src := r, sport := q, part := part, tcnt := counter, tval := count - 1 }

/-- The outstanding request of an endpoint with a tag. -/
def reqOf (s : State) (r q tag : Nat) : Option NocReq :=
  s.reqs.find? (fun x => x.pkt.src == r && x.pkt.sport == q && x.pkt.tag == tag)

/-- The waiting requests of an endpoint go out in their order, as far as tags and room allow. -/
def sendWaiting : Nat → Nat → Nat → State → State
  | 0, _, _, s => s
  | f + 1, r, q, s =>
    match s.netq.find? (fun x => x.1.src == r && x.1.sport == q) with
    | some x => if (tagFor s x.1).isSome then sendWaiting f r q (sendReq x.1 x.2 { s with netq := s.netq.erase x }) else s
    | none => s

/-- A request is outstanding no longer; its tag and room go to those that wait. -/
def dropReq (r q tag : Nat) (s : State) : State :=
  sendWaiting (s.netq.length + 1) r q { s with reqs := s.reqs.filter (fun x => !(x.pkt.src == r && x.pkt.sport == q && x.pkt.tag == tag)) }

/-- Requests whose operation has ended are awaited for nobody, and those not yet sent are not sent. -/
def orphanReqs (own : Purpose → Bool) (s : State) : State :=
  { s with
    netq := s.netq.filter (fun x => !own x.2)
    reqs := s.reqs.map (fun x => if own x.why then { x with why := .system } else x) }

/-- Requests, sent and not yet sent, serve another purpose from now on. -/
def repurpose (f : Purpose → Purpose) (s : State) : State :=
  { s with netq := s.netq.map (fun x => (x.1, f x.2)), reqs := s.reqs.map (fun x => { x with why := f x.why }) }

/-- What a partition's ended COPYs still had to land is given up (R225, R407). -/
def orphanTails (part : Nat) (s : State) : State :=
  let tail := fun (k : NocPkt) (w : Purpose) =>
    k.part == part && !k.sys && (match w with | .tailRead _ _ => true | .tailWrite _ => true | _ => false)
  { s with
    netq := s.netq.filter (fun x => !tail x.1 x.2)
    reqs := s.reqs.map (fun x => if tail x.pkt x.why then { x with why := .system } else x) }

end Sys2Proof.Machine
end

