-- ==== Sys2Proof/Machine/KestrelCore.lean ====
section
/-! DEFINITION. The law of a Kestrel loop: Q1.15 arithmetic, the coefficient memory, observer, feedback, integrators, table, set-points,
phase and learning (R466 to R469, R475, R476, R478, R480, R482 to R488, R490). -/

namespace Sys2Proof.Machine

/-- What began at a time, if it has, has lasted for `n` TCLK cycles. -/
def lastedSince (t : Option Nat) (n : Nat) (s : State) : Bool :=
  match t with
  | some t0 => decide (t0 + n ≤ s.timebase)
  | none => false

/-! ### Q1.15 arithmetic (R466) -/

/-- An integer held between two limits. -/
def clampI (lo hi x : Int) : Int := if x < lo then lo else if hi < x then hi else x

/-- The limits of a Q1.15 value. -/
def sat16 (x : Int) : Int := clampI (-32768) 32767 x

/-- The limits of the 40-bit accumulator. -/
def sat40 (x : Int) : Int := clampI (-(2 ^ 39)) (2 ^ 39 - 1) x

/-- An exact quotient rounded to an integer, ties toward +∞, for a positive divisor. -/
def roundUpTies (num den : Int) : Int := (2 * num + den) / (2 * den)

/-- A value with the number of saturations that making it caused. -/
structure Q where
  v : Int := 0
  n : Nat := 0
  deriving DecidableEq, Repr, Inhabited

/-- Step 4 of R466: an exact value num ÷ den, in units of 2^−15, is rounded and saturates. -/
def storeQ (num den : Int) : Q :=
  let r := roundUpTies num den
  { v := sat16 r, n := b2n (sat16 r != r) }

/-- The exact sum of products, in units of 2^−30. -/
def dotSum (ts : List (Int × Int)) : Int := ts.foldl (fun a t => a + t.1 * t.2) 0

/-- One row under R466: products, accumulator, shift, store.  `base`, in units of 2^−30, enters unshifted (R475). -/
def rowQ (base : Int) (sh : Nat) (ts : List (Int × Int)) : Q :=
  let a := dotSum ts
  let r := storeQ (base + sat40 a * 2 ^ sh) 32768
  { r with n := r.n + b2n (sat40 a != a) }

/-! ### The coefficient memory (Table 13.4) -/

/-- A word of a loop's coefficient memory. -/
def KLoop.w (l : KLoop) (o : Nat) : Int := tget l.coef o
/-- A word as an unsigned number. -/
def KLoop.uw (l : KLoop) (o : Nat) : Nat := unsigned 16 (l.w o)
/-- N. -/
def KLoop.nx (l : KLoop) : Nat := min 6 (l.uw 0x000 % 8)
/-- M. -/
def KLoop.ny (l : KLoop) : Nat := l.uw 0x000 / 8 % 4 + 1
/-- P. -/
def KLoop.nu (l : KLoop) : Nat := l.uw 0x000 / 32 % 2 + 1
/-- RCEN. -/
def KLoop.rcen (l : KLoop) : Bool := l.uw 0x000 / 64 % 2 == 1
/-- FFEN. -/
def KLoop.ffen (l : KLoop) : Bool := l.uw 0x000 / 128 % 2 == 1
/-- SATDIR of an input: the lower limit counts. -/
def KLoop.satLo (l : KLoop) (i : Nat) : Bool := l.uw 0x000 / 2 ^ (8 + 2 * i) % 2 == 1
/-- SATDIR of an input: the upper limit counts. -/
def KLoop.satHi (l : KLoop) (i : Nat) : Bool := l.uw 0x000 / 2 ^ (9 + 2 * i) % 2 == 1
/-- TSH. -/
def KLoop.tsh (l : KLoop) : Nat := l.uw 0x000 / 2 ^ 12
/-- DIV. -/
def KLoop.divisor (l : KLoop) : Nat := l.uw 0x015
/-- A field of SHIFTS: 0 to 5 SH_X, 6 and 7 SH_V, 8 and 9 SH_Z, 10 SH_M. -/
def KLoop.shift (l : KLoop) (i : Nat) : Nat := l.uw (0x01C + i / 4) / 2 ^ (4 * (i % 4)) % 16
/-- USAFE of an input. -/
def KLoop.usafe (l : KLoop) (i : Nat) : Int := l.w (0x00A + i)

/-- Measured outputs and inputs that Table 13.2 provides a loop with. -/
def loopSignals (n : Nat) : Nat × Nat := if n < 5 then (3, 2) else if n = 7 then (2, 1) else (1, 1)

/-- The coefficient memory meets R469. -/
def coefOk (n : Nat) (l : KLoop) : Bool :=
  let sg := loopSignals n
  decide (l.uw 0x000 % 8 ≤ 6) && decide (l.ny ≤ sg.1) && decide (l.nu ≤ sg.2) &&
  (List.range l.nu).all (fun i => decide (l.w (0x006 + i) ≤ l.usafe i) && decide (l.usafe i ≤ l.w (0x008 + i)) && decide (1 ≤ l.w (0x004 + i))) &&
  [0, 1].all (fun i => decide (l.w (0x00C + i) ≤ 0) && decide (0 ≤ l.w (0x00E + i))) &&
  decide (l.uw 0x014 ≤ 64) && (!(n == 5 || n == 6) || (decide (10 ≤ l.divisor) && decide (l.divisor ≤ 1000))) &&
  (List.range 11).all (fun i => decide (l.shift i ≤ 7)) && l.uw 0x01E / 4096 == 0 && l.uw 0x01F == 0 && l.uw 0x001 / 4 == 0

/-- Words written from an offset; the reserved words ignore what is written (R468). -/
def putWords (t : Tab Int) (o : Nat) : List Int → Tab Int
  | [] => t
  | v :: r => putWords (if o < 0x0AE then tset t o v else t) (o + 1) r

/-- A write meets the words [lo, hi). -/
def meetsWords (o n lo hi : Nat) : Bool := decide (o < hi) && decide (lo < o + n) && n != 0

/-- A write takes effect at a sample boundary (R481). -/
def KLoop.writeCoef (n : Nat) (l : KLoop) (o : Nat) (vs : List Int) : KLoop :=
  let k := vs.length
  let obs := meetsWords o k 0 1 || meetsWords o k 0x020 0x074
  { l with
    coef := putWords l.coef o vs
    ch := if obs then tmap (fun _ (c : LoopCh) => { c with xh := [0, 0, 0, 0, 0, 0] }) l.ch else l.ch
    m := if n < 5 then [] else l.m }

/-- Every waiting write takes effect. -/
def KLoop.settleCoef (n : Nat) (l : KLoop) : KLoop :=
  { l.pendCoef.foldl (fun k w => k.writeCoef n w.1 w.2) l with pendCoef := [] }

/-! ### One channel's sample (R475 to R478) -/

/-- Elements of a list of integers. -/
def at0 (l : List Int) (i : Nat) : Int := l.getD i 0

/-- Pairs of a coefficient row that starts at word `o` with the first `k` values of a vector. -/
def KLoop.pairs (l : KLoop) (o k : Nat) (x : List Int) : List (Int × Int) := (List.range k).map (fun i => (l.w (o + i), at0 x i))

/-- Row `i` of C·x̂. -/
def KLoop.cx (l : KLoop) (x : List Int) (i : Nat) : Q := rowQ 0 0 (l.pairs (0x062 + 6 * i) l.nx x)

/-- The delay blend of the inner loops' u0 (R476), and the other inputs as they are. -/
def effInput (n : Nat) (l : KLoop) (c : LoopCh) : List Q :=
  let u0 := if n < 5 then
      match c.dcyc with
      | some d => storeQ (d * at0 c.uOld 0 + (800 - d) * at0 c.u 0) 800
      | none => { v := at0 c.u 0 }
    else { v := at0 c.u 0 }
  [u0, { v := if l.nu = 2 then at0 c.u 1 else 0 }]

/-- Step 1: the observer completes the sample before. -/
def observe (n : Nat) (l : KLoop) (c : LoopCh) : List Int × Nat :=
  let ue := effInput n l c
  let cx := (List.range l.ny).map (l.cx c.xh)
  let df := (List.range l.ny).map (fun i => storeQ (at0 c.y i - (cx.getD i {}).v) 1)
  let rows := (List.range 6).map (fun i =>
    if i < l.nx then
      rowQ (dotSum (l.pairs (0x020 + 6 * i) l.nx c.xh)) (l.shift i)
        (l.pairs (0x044 + 2 * i) l.nu (ue.map (·.v)) ++ l.pairs (0x050 + 3 * i) l.ny (df.map (·.v)))
    else {})
  (rows.map (·.v), ((ue ++ cx ++ df ++ rows).map (·.n)).sum)

/-- What a channel's sample takes from outside it: latched outputs, r0 and r1, the feed-forward and repetitive profiles' values, the
injection (point, value), the limit of R484, and the saturations that forming these caused (R466). -/
structure LawIn where
  y : List (Option Int) := []
  r : List Int := [0, 0]
  ff : Int := 0
  rc : Int := 0
  inj : Option (Nat × Int) := none
  cap : Option Int := none
  n : Nat := 0

/-- The injection at a point. -/
def LawIn.injAt (x : LawIn) (k : Nat) : Int := match x.inj with | some (p, v) => if p = k then v else 0 | none => 0

/-- Step 2: the outputs, an invalid one replaced; whether one in use is invalid. -/
def measure (l : KLoop) (xh : List Int) (x : LawIn) : List Q × Bool :=
  let ys := (List.range 3).map (fun i =>
    if i < l.ny then
      match x.y.getD i none with
      | some v => if i = 0 then storeQ (v + x.injAt 3) 1 else { v := v }
      | none => l.cx xh i
    else {})
  (ys, (List.range l.ny).any (fun i => (x.y.getD i none).isNone))

/-- Row `i` of step 4, with integrators `z`. -/
def lawRow (l : KLoop) (xh z : List Int) (x : LawIn) (i : Nat) : Q :=
  rowQ 0 (l.shift (6 + i))
    (l.pairs (0x074 + 6 * i) l.nx xh ++ l.pairs (0x080 + 2 * i) 2 z ++ l.pairs (0x084 + 2 * i) 2 x.r ++
      [(l.w (0x018 + i), x.ff), (l.w (0x01A + i), x.rc)])

/-- The table value of input `i` at an indexing output (R478). -/
def tableVal (l : KLoop) (i : Nat) (y : Int) : Q :=
  let d : Int := 2 ^ l.tsh
  let s := y - l.w 0x0AC
  let p := fun k : Nat => l.w (0x08C + 16 * i + k)
  if s < 0 then { v := p 0 }
  else if 15 * d ≤ s then { v := p 15 }
  else
    let k := (s / d).toNat
    let f := s % d
    storeQ (p k * (d - f) + p (k + 1) * f) d

/-- The law output v of input `i` in a mode, injection included (R475, R478, R500). -/
def lawOut (l : KLoop) (c : LoopCh) (xh : List Int) (y : List Int) (x : LawIn) (i : Nat) : Q :=
  let g := x.injAt (1 + i)
  if l.nu ≤ i then {}
  else match l.mode with
    | .closed => let r := lawRow l xh c.z x i; let q := storeQ (r.v + g) 1; { v := q.v, n := r.n + q.n }
    | .table =>
      let t := tableVal l i (at0 y (l.uw 0x001 % 4))
      let f := rowQ 0 (l.shift (6 + i)) [(l.w (0x018 + i), x.ff)]
      let q := storeQ (t.v + f.v + g) 1
      { v := q.v, n := t.n + f.n + q.n }
    | .openHold => storeQ (at0 c.hold i + g) 1
    | _ => storeQ (l.usafe i + g) 1

/-- The feed-forward and repetitive terms of input 0 in a mode (R475, R478; assumption 92). -/
def lawTerms (l : KLoop) (x : LawIn) : Int × Int :=
  (if l.mode = .table ∨ l.mode = .closed then (rowQ 0 (l.shift 6) [(l.w 0x018, x.ff)]).v else 0,
    if l.mode = .closed then (rowQ 0 (l.shift 6) [(l.w 0x01A, x.rc)]).v else 0)

/-- Step 5: clamp and slew, and the rounding of a voltage; an open loop clamps only what is injected (R478). -/
def limitOut (n : Nat) (l : KLoop) (c : LoopCh) (x : LawIn) (v : Int) (i : Nat) : Int :=
  if l.nu ≤ i then 0
  else
    let free := decide (l.mode ≠ .table) && decide (l.mode ≠ .closed) && decide (x.injAt (1 + i) = 0)
    let goal := if free then v else clampI (l.w (0x006 + i)) (l.w (0x008 + i)) v
    let s := l.w (0x004 + i)
    let u := at0 c.u i + clampI (-s) s (goal - at0 c.u i)
    if n < 5 ∧ i = 0 then min 32752 (16 * ((u + 8) / 16)) else u

/-- The sample is saturated at input `i` (R490). -/
def satAt (l : KLoop) (v : Int) (i : Nat) : Bool :=
  decide (i < l.nu) && ((l.satLo i && decide (v < l.w (0x006 + i))) || (l.satHi i && decide (l.w (0x008 + i) < v)))

/-- Step 6: integrator `i`. -/
def integrate (l : KLoop) (z e du : List Int) (i : Nat) : Q :=
  let r := rowQ (at0 z i * 32768) (l.shift (8 + i)) ((l.w (0x016 + i), at0 e i) :: l.pairs (0x088 + 2 * i) 2 du)
  { r with v := clampI (l.w (0x00C + i)) (l.w (0x00E + i)) r.v }

/-- A channel after its sample: steps 2 to 6; the saturations of its arithmetic; whether an output in use was invalid; whether the
sample is saturated. -/
def chanSample (n : Nat) (l : KLoop) (c : LoopCh) (xh : List Int) (x : LawIn) : LoopCh × Nat × Bool × Bool :=
  let m := measure l xh x
  let y := m.1.map (·.v)
  let e := [0, 1].map (fun i => storeQ (at0 x.r i - at0 y i) 1)
  let vs := [0, 1].map (lawOut l c xh y x)
  let v := vs.map (·.v)
  let u := [0, 1].map (fun i => limitOut n l c x (at0 v i) i)
  let ub := match x.cap with | some k => [min (at0 u 0) k, at0 u 1] | none => u
  let du := [0, 1].map (fun i => if i < l.nu then storeQ (at0 ub i - at0 v i) 1 else {})
  let zs := [0, 1].map (integrate l c.z (e.map (·.v)) (du.map (·.v)))
  let closed := decide (l.mode = .closed)
  let law := closed || decide (l.mode = .table)
  let sat := law && [0, 1].any (fun i => satAt l (at0 v i) i)
  ({ c with xh := xh, y := y, u := u, uOld := c.u, v := v, ff := (lawTerms l x).1, rc := (lawTerms l x).2, rEff := if n < 5 then at0 x.r 1 else at0 x.r 0
            z := if closed then zs.map (·.v) else c.z, dcyc := none, satNow := sat, satRun := if sat then c.satRun + 1 else 0
            badRun := if law && m.2 then c.badRun + 1 else 0 },
    x.n + ((m.1 ++ e ++ vs ++ du ++ (if closed then zs else [])).map (·.n)).sum, m.2, sat)

/-! ### Hand-over (R480) -/

/-- Preload one integrator. -/
def preload (l : KLoop) (c : LoopCh) (xh : List Int) (x : LawIn) (z : List Int) (i : Nat) : List Int × Nat :=
  let ki := l.w (0x080 + 3 * i)
  if l.nu ≤ i ∨ ki = 0 then (z, 0)
  else
    let w := lawRow l xh (z.set i 0) x i
    let num := (at0 c.u i - w.v) * 32768
    let den := ki * 2 ^ l.shift (6 + i)
    let q := if 0 < den then storeQ num den else storeQ (-num) (-den)
    (z.set i (clampI (l.w (0x00C + i)) (l.w (0x00E + i)) q.v), w.n + q.n)

/-- The integrators that a hand-over preloads, whether every residual is within HANDOVER_TOL, and the saturations. -/
def handOver (l : KLoop) (c : LoopCh) (xh : List Int) (x : LawIn) : List Int × Bool × Nat :=
  let a := preload l c xh x c.z 0
  let b := preload l c xh x a.1 1
  let vs := (List.range l.nu).map (lawRow l xh b.1 x)
  (b.1, (List.range l.nu).all (fun i => decide ((at0 c.u i - (vs.getD i {}).v).natAbs ≤ l.uw 0x003)), a.2 + b.2 + (vs.map (·.n)).sum)

/-! ### Set-points (R482) and limits (R484) -/

/-- The output that a loop's channel offers. -/
def offered (s : State) (n c : Nat) : Int := at0 (tget (tget s.loops n).ch c).u 0

/-- The effective host set-point, injection included (R482, R500). -/
def effSetpoint (s : State) (n : Nat) (l : KLoop) (inj : Int) : Q :=
  let h := storeQ (l.sp + inj) 1
  if n < 4 then { h with v := clampI l.lo l.hi (min h.v (min (offered s 5 n) (offered s 6 0))) }
  else if n = 4 then { h with v := clampI l.lo l.hi h.v }
  else h

/-- The highest effective r1 among loops in TABLE or CLOSED (R484). -/
def highestLimit (s : State) (ls : List Nat) : Option Int :=
  (ls.filter (fun n => decide ((tget s.loops n).mode = .table) || decide ((tget s.loops n).mode = .closed))).foldl
    (fun m n => let r := (tget (tget s.loops n).ch 0).rEff; match m with | some k => some (max k r) | none => some r) none

/-! ### Phase, feed-forward and learning (R485 to R488) -/

/-- P of a loop's teacher, if a teacher runs. -/
def taughtPeriod (s : State) (l : KLoop) : Option Nat := l.teacher.map (fun k => (tget s.progs k).period + 1)

/-- The feed-forward profile of loop `n` at phase `j` (R487). -/
def profile (p : Prog) (n j : Nat) : Q :=
  storeQ ((p.power.filter (fun e => (n == 4 || e.1 == n) && decide (e.2.1 ≤ j))).foldl (fun a e => a + e.2.2) 0) 1

/-- The phase and the slip rules at a sample (R486, R503); answers whether a slip is counted. -/
def KLoop.step (l : KLoop) (p : Nat) : KLoop × Bool :=
  let jit := l.uw 0x014
  if !l.seen then
    if l.marked then ({ l with seen := true, marked := false, markNow := true, phase := 0, since := 0, onTime := 1 }, false)
    else ({ l with markNow := false }, false)
  else
    let s := l.since + 1
    if l.marked then
      let good := decide (p ≤ s + jit) && decide (s ≤ p + jit + 1)
      let k := if good then l.onTime + 1 else 0
      ({ l with marked := false, markNow := true, phase := 0, since := 0, onTime := k, held := if good then l.held && decide (k < 2) else true }, !good)
    else
      let miss := s == p + jit + 1
      ({ l with markNow := false, phase := (l.phase + 1) % p, since := s, onTime := if miss then 0 else l.onTime, held := l.held || miss }, miss)

/-- The GF and GR terms' sources at a sample. -/
def terms (s : State) (n : Nat) (l : KLoop) : Q × Int :=
  match l.teacher with
  | some k =>
    let p := tget s.progs k
    let per := p.period + 1
    (if l.ffen then profile p n ((l.phase + p.lead) % per) else {}, if l.rcen && decide (n < 5) then tget l.m l.phase else 0)
  | none => ({}, 0)

/-- One learning step with the error e0 (R488). -/
def KLoop.learn (l : KLoop) (per lead : Nat) (e0 : Int) : KLoop × Nat :=
  let i := (l.phase + per * (lead + 1) - lead) % per
  let q := rowQ 0 (l.shift 10)
    [(l.w 0x012, tget l.m i), (l.w 0x013, tget l.m ((i + per - 1) % per)), (l.w 0x013, tget l.m ((i + 1) % per)), (l.w 0x011, e0)]
  ({ l with m := tset l.m i q.v }, q.n)

end Sys2Proof.Machine
end

