-- ==== Sys2Proof/Machine/CmdKestrel.lean ====
section
/-! DEFINITION. Kestrel's loops and the board: the commands of group 0x08xx (R370, R469, R479 to R482, R498 to R500). -/

namespace Sys2Proof.Machine

/-- The loop that a command names. -/
def Cmd.loop (x : Cmd) : Nat := x.fld 4 2 0

/-- An integer as a 16-bit field. -/
def half (v : Int) : Nat := unsigned 16 v

/-- Two 16-bit fields in a dword, the first low. -/
def halves (a b : Int) : Dword := dw (half a + 2 ^ 16 * half b)

/-- A loop is open (R481). -/
def LoopMode.open (m : LoopMode) : Bool := decide (m = .openHold) || decide (m = .openSafe)

/-- The code of a loop mode (R354). -/
def LoopMode.code : LoopMode → Nat
  | .openHold => 0
  | .openSafe => 1
  | .table => 2
  | .closed => 3
  | .safeFault => 4

/-- The target of LOOP_SET_MODE. -/
def modeOf (n : Nat) : LoopMode := match n with | 0 => .openHold | 1 => .openSafe | 2 => .table | _ => .closed

/-- Change one loop. -/
def onLoop (n : Nat) (f : KLoop → KLoop) (s : State) : State := { s with loops := tmod s.loops n f }

/-! ### LOOP_READ -/

/-- The channel that LOOP_READ reports: for L5 the hottest, ties to the lower quadrant. -/
def readChannel (n : Nat) (l : KLoop) : Nat :=
  if n = 5 then [1, 2, 3].foldl (fun b q => if at0 (tget l.ch b).y 0 < at0 (tget l.ch q).y 0 then q else b) 0 else 0

/-- What LOOP_READ reports (Table 10.12). -/
def loopReadRep (s : State) (x : Cmd) : List Dword :=
  let l := tget s.loops x.loop
  let c := tget l.ch (readChannel x.loop l)
  [dw (l.mode.code + 8 * b2n c.satNow + 2 ^ 16 * min c.satRun 0xFFFF), halves (at0 c.u 0) c.rEff, halves (at0 c.y 0) (at0 c.y 1),
   dw (half (at0 c.y 2)), dw (min l.inMode 0xFFFFFFFF)]

/-- LOOP_READ (R370). -/
def loopReadEffect (c : Nat) (p : Packet) (s : State) : State := serve 0x0800 c p (fun _ _ => {}) (actRead loopReadRep) s

/-- LOOP_READ. -/
def execLoopRead (c : Nat) (p : Packet) (s : State) : Host.Outcome State Fault Refusal := .next (loopReadEffect c p s)

/-! ### LOOP_SET_MODE -/

/-- Table 13.9, for two modes that differ, without the conditions of R469 and R480. -/
def permitted (a b : LoopMode) : Bool :=
  match b with
  | .openHold | .openSafe => true
  | .table => decide (a ≠ .safeFault)
  | .closed => decide (a = .table)
  | .safeFault => false

/-- A loop may go to a mode (R469, R479), its waiting coefficient writes made. -/
def mayEnter (n : Nat) (l : KLoop) (m : LoopMode) : Bool :=
  permitted l.mode m && (m.open || coefOk n (l.settleCoef n))

/-- LOOP_SET_MODE's check: code 4 is no target, codes 5 to 7 are reserved. -/
def loopSetModeCheck (s : State) (x : Cmd) : Verdict :=
  let l := tget s.loops x.loop
  let k := x.fld 4 6 4
  firstOf [(decide (5 ≤ k), stParamReserved), (k == 4, stParamRange), (l.suspended, stStateBusy),
    (decide (modeOf k ≠ l.mode) && !mayEnter x.loop l (modeOf k), stStateBusy)]

/-- LOOP_SET_MODE's act: a target equal to the present mode is answered at once; another waits for the sample boundary. -/
def loopSetModeAct (x : Cmd) (s : State) : State :=
  let m := modeOf (x.fld 4 6 4)
  if (tget s.loops x.loop).mode = m then finish x {} s
  else onLoop x.loop (fun l => { l with pendMode := l.pendMode ++ [(m, x)] }) (park x s)

/-- LOOP_SET_MODE (R479). -/
def loopSetModeEffect (c : Nat) (p : Packet) (s : State) : State := serve 0x0801 c p loopSetModeCheck loopSetModeAct s

/-- LOOP_SET_MODE. -/
def execLoopSetMode (c : Nat) (p : Packet) (s : State) : Host.Outcome State Fault Refusal := .next (loopSetModeEffect c p s)

/-! ### LOOP_WRITE_COEF -/

/-- The values that LOOP_WRITE_COEF writes: two a dword, low half first. -/
def coefValues (x : Cmd) : List Int := (x.params.drop 1).flatMap (fun d => [signed 16 (bits d 15 0), signed 16 (bits d 31 16)])

/-- LOOP_WRITE_COEF's check (R481). -/
def loopWriteCoefCheck (s : State) (x : Cmd) : Verdict :=
  firstOf [(!(tget s.loops x.loop).mode.open, stLoopNotOpen), (decide (256 < x.fld 4 23 8 + (coefValues x).length), stParamRange)]

/-- LOOP_WRITE_COEF's effect: the write waits for the next sample boundary (R481). -/
def loopWriteCoefApply (x : Cmd) (s : State) : State :=
  onLoop x.loop (fun l => { l with pendCoef := l.pendCoef ++ [(x.fld 4 23 8, coefValues x)] }) s

/-- LOOP_WRITE_COEF (R481). -/
def loopWriteCoefEffect (c : Nat) (p : Packet) (s : State) : State := serve 0x0802 c p loopWriteCoefCheck (actDo loopWriteCoefApply) s

/-- LOOP_WRITE_COEF. -/
def execLoopWriteCoef (c : Nat) (p : Packet) (s : State) : Host.Outcome State Fault Refusal := .next (loopWriteCoefEffect c p s)

/-! ### LOOP_SET_POINT -/

/-- Set-point, lower and upper limit of a LOOP_SET_POINT. -/
def setPointArgs (x : Cmd) : Int × Int × Int := (signed 16 (x.fld 5 15 0), signed 16 (x.fld 6 15 0), signed 16 (x.fld 6 31 16))

/-- LOOP_SET_POINT's check. -/
def loopSetPointCheck (_ : State) (x : Cmd) : Verdict :=
  let a := setPointArgs x
  if a.2.2 < a.2.1 ∨ a.1 < a.2.1 ∨ a.2.2 < a.1 then no stParamRange else {}

/-- LOOP_SET_POINT's effect: the loop's next sample uses it (R482). -/
def loopSetPointApply (x : Cmd) (s : State) : State :=
  let a := setPointArgs x
  onLoop x.loop (fun l => { l with sp := a.1, lo := a.2.1, hi := a.2.2 }) s

/-- LOOP_SET_POINT (R482). -/
def loopSetPointEffect (c : Nat) (p : Packet) (s : State) : State := serve 0x0803 c p loopSetPointCheck (actDo loopSetPointApply) s

/-- LOOP_SET_POINT. -/
def execLoopSetPoint (c : Nat) (p : Packet) (s : State) : Host.Outcome State Fault Refusal := .next (loopSetPointEffect c p s)

/-! ### LOOP_TRACE and LOOP_INJECT -/

/-- Two byte ranges meet. -/
def bytesMeet (a n b k : Nat) : Bool := n != 0 && k != 0 && decide (a < b + k) && decide (b < a + n)

/-- Bytes of trace records for some samples of a loop (R471). -/
def traceBytes (n samples : Nat) : Nat := samples * (if n = 5 then 128 else 32)

/-- Where the records begin after an injection sequence (R471). -/
def recordsAt (samples : Nat) : Nat := (2 * samples + 31) / 32 * 32

/-- A range of device memory is one that a trace or injection may use (R499). -/
def traceRoom (s : State) (a n : Nat) : Bool :=
  let r := pageRun a n
  decide (a + n ≤ hbmSize) && !pagesHeld s r.1 (r.1 + r.2) &&
  !(match s.cm.base with | some b => bytesMeet a n b 0x400000 | none => false) &&
  !(match s.owl.base with | some b => bytesMeet a n b s.owl.size | none => false) &&
  !(loopRanges s).any (fun x => bytesMeet a n x.1 x.2)

/-- The checks that LOOP_TRACE and LOOP_INJECT share, for a range of `n` bytes. -/
def traceCheck (s : State) (x : Cmd) (n : Nat) : Verdict :=
  let l := tget s.loops x.loop
  firstOf [(l.trace.isSome || decide (l.mode = .safeFault), stStateBusy), (!traceRoom s (x.par64 5) n, stParamRange)]

/-- LOOP_TRACE's check (R499, R500). -/
def loopTraceCheck (s : State) (x : Cmd) : Verdict := traceCheck s x (traceBytes x.loop (x.fld 7 23 0))

/-- LOOP_TRACE's work begins. -/
def loopTraceStart (x : Cmd) (tk : Nat) (s : State) : State :=
  let k := x.fld 7 23 0
  onLoop x.loop (fun l => { l with trace := some { ticket := tk, addr := x.par64 5, samples := k, base := x.par64 5, bytes := traceBytes x.loop k } }) s

/-- LOOP_TRACE (R499). -/
def loopTraceEffect (c : Nat) (p : Packet) (s : State) : State :=
  serve 0x0804 c p loopTraceCheck (fun x t => pend x (loopTraceStart x) t) s

/-- LOOP_TRACE. -/
def execLoopTrace (c : Nat) (p : Packet) (s : State) : Host.Outcome State Fault Refusal := .next (loopTraceEffect c p s)

/-- Bytes of a whole injection: its sequence and its records. -/
def injectBytes (n samples : Nat) : Nat := recordsAt samples + traceBytes n samples

/-- LOOP_INJECT's check (R499, R500): point 2 needs a second input. -/
def loopInjectCheck (s : State) (x : Cmd) : Verdict :=
  (traceCheck s x (injectBytes x.loop (x.fld 7 23 0))).andThen
    (if x.fld 8 1 0 = 2 ∧ (tget s.loops x.loop).nu = 1 then no stParamRange else {})

/-- The Q1.15 values of a sequence (R471). -/
def sequenceOf : List Byte → List Int
  | a :: b :: r => signed 16 (leNat [a, b]) :: sequenceOf r
  | _ => []

/-- LOOP_INJECT's work begins: the sequence is read before the first sample (R500). -/
def loopInjectStart (x : Cmd) (tk : Nat) (s : State) : State :=
  let k := x.fld 7 23 0
  let a := x.par64 5
  let q := sysRead viaKestrel a (2 * k) s
  let tr : LoopTrace :=
    { ticket := tk, addr := a + recordsAt k, samples := k, inject := some (x.fld 8 1 0, sequenceOf q.bytes), base := a, bytes := injectBytes x.loop k }
  onLoop x.loop (fun l => { l with trace := some tr }) q.s

/-- LOOP_INJECT (R500). -/
def loopInjectEffect (c : Nat) (p : Packet) (s : State) : State :=
  serve 0x0805 c p loopInjectCheck (fun x t => pend x (loopInjectStart x) t) s

/-- LOOP_INJECT. -/
def execLoopInject (c : Nat) (p : Packet) (s : State) : Host.Outcome State Fault Refusal := .next (loopInjectEffect c p s)

/-! ### AVS_ACCESS -/

/-- AVS_ACCESS's check (R498, Table 10.12). -/
def avsAccessCheck (s : State) (x : Cmd) : Verdict :=
  let op := x.fld 4 5 4
  firstOf [(op == 3, stParamReserved), (decide (5 ≤ x.fld 4 2 0) || (op == 2 && decide (2048 ≤ x.fld 5 15 0)), stParamRange),
    (op == 2 && decide ((tget s.loops (x.fld 4 2 0)).mode ≠ .openHold), stLoopNotOpen)]

/-- AVS_ACCESS's act: the access waits for a window on its bus. -/
def avsAccessAct (x : Cmd) (s : State) : State :=
  let t := park x s
  { t with avs := tmod t.avs (x.fld 4 2 0) (fun b => { b with queue := b.queue ++ [(x.fld 4 5 4, x.fld 5 15 0, x)] }) }

/-- AVS_ACCESS (R498). -/
def avsAccessEffect (c : Nat) (p : Packet) (s : State) : State := serve 0x0806 c p avsAccessCheck avsAccessAct s

/-- AVS_ACCESS. -/
def execAvsAccess (c : Nat) (p : Packet) (s : State) : Host.Outcome State Fault Refusal := .next (avsAccessEffect c p s)

/-! ### BOARD_STATUS -/

/-- The reported speed S of a tachometer at a time (R589 to R591): the estimate, falling once twice the newest interval has passed. -/
def Tach.speed (a : Tach) (now : Nat) : Nat :=
  match a.edges with
  | t :: u :: _ => if now - t ≤ 2 * (t - u) then a.est else min a.est ((2 * 10 ^ 8 + (now - t)) / (2 * (now - t)))
  | _ => 0

/-- What BOARD_STATUS reports (Table 10.12). -/
def boardStatusRep (s : State) (_ : Cmd) : List Dword :=
  let b := s.board
  let a := tget b.tach 0
  let d := tget b.tach 1
  [dw (b2n b.therm + 2 * b2n b.pwr + 4 * b2n b.thermStuck + 8 * b2n b.pwrStuck + 16 * b2n a.fast + 32 * b2n d.fast),
   dw (a.speed s.timebase + 2 ^ 16 * d.speed s.timebase), dw b.duty]

/-- BOARD_STATUS (R370). -/
def boardStatusEffect (c : Nat) (p : Packet) (s : State) : State := serve 0x0807 c p (fun _ _ => {}) (actRead boardStatusRep) s

/-- BOARD_STATUS. -/
def execBoardStatus (c : Nat) (p : Packet) (s : State) : Host.Outcome State Fault Refusal := .next (boardStatusEffect c p s)

end Sys2Proof.Machine
end

