-- ==== Sys2Proof/Machine/KestrelEv.lean ====
section
/-! DEFINITION. Kestrel in time: inner samples, the outer loops, AVSBus frames, period marks, faults and forced throttling (R474 to R478,
R482 to R484, R486, R490 to R500, R618, R619). -/

namespace Sys2Proof.Machine

/-- Change one channel of a loop. -/
def onChan (n q : Nat) (f : LoopCh → LoopCh) (s : State) : State := onLoop n (fun l => { l with ch := tmod l.ch q f }) s

/-! ### Modes (R478, R479) -/

/-- A mode is entered: its samples, and the saturated ones, count from 0; OPEN-HOLD holds the present outputs. -/
def KLoop.enter (m : LoopMode) (l : KLoop) : KLoop :=
  { l with
    mode := m, inMode := 0
    ch := tmap (fun _ (c : LoopCh) => { c with satRun := 0, satNow := false, hold := if m = .openHold then c.u else c.hold }) l.ch }

/-- Mode commands that wait end with ST_STATE_BUSY (R501, R508). -/
def dropModes (n : Nat) (s : State) : State :=
  (tget s.loops n).pendMode.foldl (fun t r => finish r.2 { status := stStateBusy } t) (onLoop n (fun l => { l with pendMode := [] }) s)

/-- A trace or injection ends with the samples written so far (R500). -/
def endTrace (n : Nat) (s : State) : State :=
  match (tget s.loops n).trace with
  | none => s
  | some t => post t.ticket stOk [dw t.done] (onLoop n (fun l => { l with trace := none }) s)

/-- DETAIL0 and DETAIL1 of a LOOP_FAULT record (R470). -/
def loopDetail (n cause ch : Nat) (l : KLoop) : Nat × Nat :=
  let c := tget l.ch ch
  (n + 16 * l.mode.code + 2 ^ 8 * ch + 2 ^ 12 * cause + 2 ^ 16 * min c.satRun 0xFFFF, half (at0 c.v 0) + 2 ^ 16 * half (at0 c.u 0))

/-- The LOOP_FAULT record of an entry to SAFE-FAULT. -/
def loopRecord (s : State) (n cause ch : Nat) : LRec :=
  let d := loopDetail n cause ch (tget s.loops n)
  mkRec s kindLoop verInfo (unitId 0x0E 0) 0 0 none d.1 d.2

/-- A loop enters SAFE-FAULT (R494, R500, R501). -/
def enterFault (n cause ch : Nat) (s : State) : State :=
  let r := loopRecord s n cause ch
  let t := endTrace n (dropModes n (bump (cntKstFault n) 0 s))
  queueRec r (raise attnLoopFault .admin (onLoop n (KLoop.enter .safeFault) t))

/-! ### Traces (R471, R499, R500) -/

/-- One trace record of channel `q` (Table 13.6). -/
def traceRecord (l : KLoop) (done q : Nat) (off : Bool) : List Dword :=
  let c := tget l.ch q
  let d := match c.dcyc with | some k => if k < 800 then k else 0 | none => 0
  [dw (done % 2 ^ 24 + 2 ^ 24 * (if off then 0 else l.mode.code) + 2 ^ 27 * b2n c.satNow + 2 ^ 28 * b2n l.forced + 2 ^ 29 * b2n l.markNow + 2 ^ 30 * q),
   halves (at0 c.y 0) (at0 c.y 1), halves (at0 c.y 2) c.rEff, halves (at0 c.u 0) (at0 c.u 1), halves (at0 c.v 0) (at0 c.v 1),
   halves (at0 c.z 0) (at0 c.z 1), halves c.rc c.ff, dw (d + 2 ^ 16 * l.phase)]

/-- Channel `q` of L5 is suspended (R497). -/
def channelOff (s : State) (n q : Nat) : Bool := n == 5 && (tget s.loops q).suspended

/-- The channels of a loop that sample. -/
def liveChans (s : State) (n : Nat) : List Nat := if n = 5 then [0, 1, 2, 3].filter (fun q => !channelOff s n q) else [0]

/-- The records of the sample that a loop has completed. -/
def sampleRecords (s : State) (n done : Nat) : List Dword :=
  let l := tget s.loops n
  if n = 5 then [0, 1, 2, 3].flatMap (fun q => traceRecord l done q (channelOff s n q)) else traceRecord l done 0 false

/-- The words of a trace buffer that an uncorrectable error has set to 0 (R493). -/
def zeroWords (ks : List Nat) (ds : List Dword) : List Dword := ks.foldl (fun l k => l.set k 0) ds

/-- At a sample boundary: the completed sample is written; the trace ends when it was the last, and otherwise goes on. -/
def stepTrace (n : Nat) (s : State) : State :=
  match (tget s.loops n).trace with
  | none => s
  | some t =>
    let k := if t.started then t.done + 1 else t.done
    let w := if t.started then (sysWrite viaKestrel (t.addr + traceBytes n t.done) (dwBytes (zeroWords t.zeroed (sampleRecords s n t.done))) s).s else s
    let u := onLoop n (fun l => { l with trace := some { t with done := k, started := true, zeroed := if t.started then [] else t.zeroed } }) w
    if t.samples ≤ k then endTrace n u else u

/-- The injection of the sample that begins (R500). -/
def injection (l : KLoop) : Option (Nat × Int) :=
  match l.trace with
  | some t => t.inject.map (fun i => (i.1, i.2.getD t.done 0))
  | none => none

/-- What is injected at the host set-point. -/
def injected0 (l : KLoop) : Int := match injection l with | some (0, v) => v | _ => 0

/-! ### Forced throttling (R495, R464, R618, R619) -/

/-- A cause of Table 13.10 stretches ACLK now, the droop trips aside. -/
def stretchForced (b : Board) : Bool := b.therm || b.pwr || b.hot || b.critical

/-- A cause forces full fan duty now. -/
def dutyForced (b : Board) : Bool := b.therm || b.hot || b.critical

/-- The forced minimum of the applied stretch. -/
def forcedStretch (s : State) : Int :=
  let b := s.board
  if b.critical then 32767
  else if b.hot then 24576
  else if b.therm || b.pwr || [0, 1, 2, 3, 4].any (fun n => (tget s.loops n).droop) then 16384
  else 0

/-- The applied stretch: the largest of the loops' requests and the forced minimum (R464). -/
def applyStretch (s : State) : State :=
  let u1 := fun n => let l := tget s.loops n; if l.suspended then 0 else at0 (tget l.ch 0).u 1
  { s with board := { s.board with stretch := [0, 1, 2, 3, 4].foldl (fun m n => max m (u1 n)) (forcedStretch s) } }

/-- Whether forced throttling affects a loop in the sample that begins. -/
def forcedFor (b : Board) (n : Nat) : Bool := if n < 5 then stretchForced b else n == 7 && dutyForced b

/-- A loop's forced sample is counted once. -/
def countForced (n : Nat) (s : State) : State :=
  if (tget s.loops n).forced || (tget s.loops n).suspended then s else onLoop n (fun l => { l with forced := true }) (bump (cntKstForced n) 0 s)

/-- Forced throttling begins within a sample of the loops named. -/
def forceNow (ns : List Nat) (s : State) : State := applyStretch (ns.foldl (fun t n => countForced n t) s)

/-- TCLK ticks in 10 s. -/
def tenSeconds : Nat := 1000000000

/-- A THERMAL record of a source, at most one in 10 s of each (R570, R588). -/
def thermalRecord (source quad : Nat) (s : State) : State :=
  let k := source + 16 * quad
  let due := match tget s.board.lastRecord k with | some t => decide (t + tenSeconds ≤ s.timebase) | none => true
  if due then
    let t := { s with board := { s.board with lastRecord := tset s.board.lastRecord k (some s.timebase) } }
    queueRec (mkRec t kindThermal verInfo (unitId 0x0E 0) 0 0 none k (half t.board.hottest)) t
  else s

/-- The temperature of a quadrant as a valid reading (R617). -/
def validTemp (v : Option Int) : Option Int := match v with | some t => if -1280 ≤ t ∧ t ≤ 17280 then some t else none | none => none

/-- The quadrants at or above a limit. -/
def quadsAt (ts : List (Option Int)) (limit : Int) : List Nat :=
  [0, 1, 2, 3].filter (fun q => match ts.getD q none with | some t => decide (limit ≤ t) | none => false)

/-- Cycle 0 of an inner sample: the sensors, and what they force (R474, R618, R619). -/
def latchTemps (y : Sensors) (s : State) : State :=
  let ts := (List.range 4).map (fun q => validTemp (y.temps.getD q none))
  let old := s.board
  let crossed := fun limit => (quadsAt ts limit).filter (fun q => !(quadsAt old.temps limit).contains q)
  let b := { old with
    temps := ts, hottest := (ts.filterMap id).foldl max (-32768), hot := old.hot || !(quadsAt ts 12800).isEmpty
    critical := old.critical || !(quadsAt ts 14080).isEmpty
    coolSince := if ts.all (fun t => match t with | some v => decide (v < 12416) | none => false) then some (old.coolSince.getD s.timebase) else none }
  (crossed 12800 ++ crossed 14080).foldl (fun t q => thermalRecord 3 q (raise attnThermal .admin t)) { s with board := b }

/-! ### AVSBus frames (R465, R474, R492, R498, R505) -/

/-- The present sample has a current read-back. -/
def readbackSample (s : State) : Bool := s.samples % 4 == 1

/-- The millivolts of a loop's output u0. -/
def millivolts (u : Int) : Nat := (u / 16).toNat

/-- Partner writes at the head of a bus's queue whose loop has left OPEN-HOLD are refused (R498). -/
def refuseWrites (n : Nat) : List (Nat × Nat × Cmd) → State → State
  | [], s => { s with avs := tmod s.avs n (fun b => { b with queue := [] }) }
  | (op, mv, x) :: r, s =>
    if op = 2 ∧ (tget s.loops n).mode ≠ .openHold then refuseWrites n r (finish x { status := stLoopNotOpen } s)
    else { s with avs := tmod s.avs n (fun b => { b with queue := (op, mv, x) :: r }) }

/-- The next frame of a bus from a cycle of the sample: a partner's access where a window remains, the read-back at 456 (R465, R498). -/
def nextFrame (n cyc : Nat) (s0 : State) : State :=
  let s := refuseWrites n (tget s0.avs n).queue s0
  let b := tget s.avs n
  let fits := if b.readDue then decide (cyc + 256 ≤ 456) else decide (cyc + 256 < 800)
  match fits, b.queue with
  | true, (op, mv, x) :: r => { s with avs := tset s.avs n { b with frame := some (.partner op mv x, cyc), queue := r } }
  | _, _ => { s with avs := tset s.avs n { b with frame := if b.readDue then some (.readback, 456) else none, readDue := false } }

/-- A voltage write can start at a cycle of the sample: by cycle 544 (R477), and clear of the read-back, which keeps its cycles 456 to
711 (R465; assumption 94). -/
def AvsBus.canWrite (b : AvsBus) (cyc : Nat) : Bool := decide (cyc < 544) && (!b.readDue || decide (cyc + 256 ≤ 456))

/-- Whether the sample that begins has a current read-back. -/
def beginBus (n : Nat) (s : State) : State := { s with avs := tmod s.avs n (fun b => { b with readDue := readbackSample s }) }

/-- The frames of a bus in the sample whose law has been computed: a voltage write when the millivolts differ (R465); one that comes too
late waits to be dropped, and the read-back is sent (R477). -/
def startFrames (n start : Nat) (s : State) : State :=
  let l := tget s.loops n
  let mv := millivolts (at0 (tget l.ch 0).u 0)
  let t := beginBus n s
  if l.noWrite ∨ l.lastMv = some mv then nextFrame n start (onLoop n (fun k => { k with avsFails := 0 }) t)
  else if (tget t.avs n).canWrite start then { t with avs := tmod t.avs n (fun b => { b with frame := some (.write mv false, start) }) }
  else
    { t with avs := tmod t.avs n (fun b =>
        { b with late := true, frame := if b.readDue then some (.readback, 456) else none, readDue := false }) }

/-- A test instruction has taken the pins from their functions (R584). -/
def pinsTaken (s : State) : Bool := s.tap.ir == 0x00 || s.tap.ir == 0x03 || s.tap.ir == 0x04

/-- A voltage write has ended. -/
def writeDone (n mv : Nat) (ok : Bool) (done : Nat) (retried : Bool) (s : State) : State :=
  if ok then
    nextFrame n done (onChan n 0 (fun c => { c with dcyc := some done }) (onLoop n (fun l => { l with lastMv := some mv, avsFails := 0 }) s))
  else
    let s1 := bump (cntKstAvsErr n) 0 s
    if !retried && (tget s1.avs n).canWrite done then { s1 with avs := tmod s1.avs n (fun b => { b with frame := some (.write mv true, done) }) }
    else
      let k := (tget s1.loops n).avsFails + 1
      let s2 := onChan n 0 (fun c => { c with dcyc := some 800 }) (onLoop n (fun l => { l with avsFails := k }) s1)
      let m := (tget s2.loops n).mode
      let s3 := if 3 ≤ k ∧ (m = .table ∨ m = .closed) then enterFault n 3 0 s2 else s2
      nextFrame n done s3

/-- A current read-back has ended (R467, R491). -/
def readbackDone (n : Nat) (ok : Bool) (value done : Nat) (s : State) : State :=
  let q := storeQ (64 * (value % 65536 : Nat)) 100
  if ok then nextFrame n done (bumpBy (cntKstStoreSat n) 0 q.n (onLoop n (fun l => { l with y2 := some q.v }) s))
  else nextFrame n done (onLoop n (fun l => { l with y2 := none }) (bump (cntKstAvsErr n) 0 s))

/-- A voltage that a partner has written is held (R498). -/
def holdVoltage (n mv done : Nat) (s : State) : State :=
  let u : Int := (16 * mv : Nat)
  onChan n 0 (fun c => { c with u := [u, at0 c.u 1], hold := [u, at0 c.hold 1], dcyc := some done })
    (onLoop n (fun l => { l with lastMv := some mv, noWrite := false }) s)

/-- A partner's frame has ended (R498, R505). -/
def partnerDone (n op mv : Nat) (x : Cmd) (ok : Bool) (value done : Nat) (s : State) : State :=
  let s1 := bump (cntKstHostAvs n) 0 s
  let v := if op = 2 then mv else value % 65536
  let s2 := if ok then (if op = 2 then holdVoltage n mv done s1 else s1) else bump (cntKstAvsErr n) 0 s1
  nextFrame n done (finish x { result := [dw (if ok then v else 0xFFFF)] } s2)

/-- A frame ends 256 cycles after it started. -/
def avsFrameDoneEffect (n : Nat) (ok : Bool) (value done : Nat) (s : State) : State :=
  let good := ok && !pinsTaken s
  match (tget s.avs n).frame with
  | some (w, st) =>
    if done ≠ st + 256 then s
    else
      let t := { s with avs := tmod s.avs n (fun b => { b with frame := none }) }
      match w with
      | .write mv retried => writeDone n mv good done retried t
      | .readback => readbackDone n good value done t
      | .partner op mv x => partnerDone n op mv x good value done t
  | none => s

/-- AVS_FRAME_DONE. -/
def execAvsFrameDone (bus : Nat) (ok : Bool) (value done : Nat) (s : State) : Host.Outcome State Fault Refusal :=
  .next (avsFrameDoneEffect bus ok value done s)

/-- A write that has not started by cycle 544 is dropped (R477). -/
def lateWriteDropEffect (n : Nat) (s : State) : State :=
  if (tget s.avs n).late then
    onChan n 0 (fun c => { c with dcyc := some 800 }) (onLoop n (fun l => { l with avsFails := 0 })
      (bump (cntKstLate n) 0 { s with avs := tmod s.avs n (fun b => { b with late := false }) }))
  else s

/-- LATE_WRITE_DROP. -/
def execLateWriteDrop (bus : Nat) (s : State) : Host.Outcome State Fault Refusal := .next (lateWriteDropEffect bus s)

/-! ### A loop's sample -/

/-- Carry out one mode request at the boundary: present mode, Table 13.9 and R469 again, and the hand-over of R480. -/
def requestMode (n : Nat) (li : LawIn) (r : LoopMode × Cmd) (s : State) : State :=
  let l := tget s.loops n
  if l.mode = r.1 then finish r.2 {} s
  else if !mayEnter n l r.1 then finish r.2 { status := stStateBusy } s
  else if r.1 = .closed then
    let hs := (liveChans s n).map (fun q => (q, handOver l (tget l.ch q) (tget l.ch q).xh li))
    let s1 := bumpBy (cntKstStoreSat n) 0 ((hs.map (fun h => h.2.2.2)).sum) s
    if hs.all (fun h => h.2.2.1) then
      finish r.2 {} (onLoop n (fun k => (hs.foldl (fun k h => { k with ch := tmod k.ch h.1 (fun c => { c with z := h.2.1 }) }) k).enter .closed) s1)
    else finish r.2 { status := stHandoverRefused } (bump (cntKstRefused n) 0 s1)
  else finish r.2 {} (onLoop n (KLoop.enter r.1) s)

/-- Every mode request of a loop, in order. -/
def requestModes (n : Nat) (li : LawIn) (s : State) : State :=
  (tget s.loops n).pendMode.foldl (fun t r => requestMode n li r t) (onLoop n (fun l => { l with pendMode := [] }) s)

/-- A channel's observer step at the boundary (step 1 of R475); the saturations are counted. -/
def observeChan (n q : Nat) (s : State) : State :=
  let l := tget s.loops n
  let o := observe n l (tget l.ch q)
  bumpBy (cntKstStoreSat n) 0 o.2 (onChan n q (fun c => { c with xh := o.1 }) s)

/-- A channel's law at a sample, with its counters (R472, R475 to R478, R491). -/
def lawChan (n q : Nat) (li : LawIn) (s : State) : State :=
  let l := tget s.loops n
  let c := tget l.ch q
  let r := chanSample n l c c.xh li
  bumpBy (cntKstSat n) 0 (b2n r.2.2.2) (bumpBy (cntKstStoreSat n) 0 r.2.1 (onChan n q (fun _ => r.1) s))

/-- SAFE-FAULT by supervision: saturation, then sensors, on the lowest channel (R490, R491). -/
def supervise (n : Nat) (qs : List Nat) (s : State) : State :=
  let l := tget s.loops n
  let lim := l.uw 0x002
  match qs.find? (fun q => lim != 0 && decide (lim ≤ (tget l.ch q).satRun)) with
  | some q => enterFault n 1 q s
  | none =>
    match qs.find? (fun q => decide (16 ≤ (tget l.ch q).badRun)) with
    | some q => enterFault n 2 q s
    | none => s

/-- What begins every sample: the records of the one before, waiting coefficient writes, and the forced flag (R481, R495, R499). -/
def beginSample (n : Nat) (s : State) : State :=
  let f := forcedFor s.board n
  let t := onLoop n (fun l => { l.settleCoef n with forced := f, inMode := l.inMode + 1 }) (stepTrace n s)
  if f then bump (cntKstForced n) 0 t else t

/-- One measured output that its source reports as faulty, in use or not (R491). -/
def countSensors (n : Nat) (ys : List (List (Option Int))) (s : State) : State :=
  if ys.any (fun y => ((List.range (loopSignals n).1).any (fun i => (y.getD i none).isNone))) then bump (cntKstSensor n) 0 s else s

/-- The phase of L0 to L4 at a sample (R486). -/
def stepPhase (n : Nat) (s : State) : State :=
  let l := tget s.loops n
  match taughtPeriod s l with
  | some p =>
    let r := l.step p
    bumpBy (cntKstSlip n) 0 (b2n r.2) (onLoop n (fun _ => r.1) s)
  | none => onLoop n (fun k => { k with markNow := false }) s

/-- Learning at a sample (R488). -/
def stepLearn (n : Nat) (s : State) : State :=
  let l := tget s.loops n
  let c := tget l.ch 0
  match l.teacher with
  | some k =>
    let p := tget s.progs k
    if l.rcen && decide (l.mode = .closed) && !c.satNow && !l.forced && !l.held && decide (4 ≤ p.period + 1) then
      let r := l.learn (p.period + 1) p.lead (sat16 (l.w 0x010 - at0 c.y 0))
      bumpBy (cntKstStoreSat n) 0 r.2 (onLoop n (fun _ => r.1) s)
    else s
  | none => s

/-- A sample of L0 to L4 (R474, R475); a suspended loop's bus still has its read-back and its partner's accesses (R465, R497). -/
def sampleInner (y : Sensors) (n : Nat) (s : State) : State :=
  if (tget s.loops n).suspended then
    nextFrame n (y.start.getD n 0) (beginBus n
      (onLoop n (fun l => { l.settleCoef n with inMode := l.inMode + 1, forced := false }) (endTrace n s)))
  else
    let s1 := observeChan n 0 (stepPhase n (beginSample n s))
    let l1 := tget s1.loops n
    let t1 := terms s1 n l1
    let sp := effSetpoint s1 n l1 (injected0 l1)
    let li : LawIn :=
      { y := [y.volts.getD n none, y.amps.getD n none, l1.y2], r := [l1.w 0x010, sp.v]
        ff := t1.1.v, rc := t1.2, inj := injection l1, n := sp.n + t1.1.n }
    let s2 := requestModes n li s1
    let s3 := supervise n [0] (countSensors n [li.y] (lawChan n 0 li s2))
    startFrames n (y.start.getD n 0) (stepLearn n s3)

/-! ### Outer loops (R483, R484) -/

/-- A mean over inner samples, in units of its scale; none where no sample was valid. -/
def meanOf (c : LoopCh) (unit : Int) : Option Q := if c.cnt = 0 then none else some (storeQ c.sum (c.cnt * unit))

/-- The mean of an outer channel (R483). -/
def outerMean (s : State) (n q : Nat) : Option Q := meanOf (tget (tget s.loops n).ch q) (if n = 6 then 64000 else 1)

/-- A valid reading enters a channel's mean. -/
def addMean (n q : Nat) (v : Option Int) (s : State) : State :=
  match v with
  | some x => onChan n q (fun c => { c with sum := c.sum + x, cnt := c.cnt + 1 }) s
  | none => s

/-- Σ of voltage times current over L0 to L4, none if a reading is invalid (R483). -/
def powerOf (y : Sensors) : Option Int :=
  (List.range 5).foldl (fun a n => match a, y.volts.getD n none, y.amps.getD n none with
    | some p, some v, some i => some (p + v * i)
    | _, _, _ => none) (some 0)

/-- The readings of an inner sample enter the outer means. -/
def addMeans (y : Sensors) (s : State) : State :=
  let s1 := [0, 1, 2, 3].foldl (fun t q => addMean 5 q (t.board.temps.getD q none) t) s
  let s2 := addMean 6 0 (powerOf y) s1
  addMean 7 0 (if s2.board.temps.all Option.isNone then none else some s2.board.hottest) s2

/-- The measured outputs of an outer channel. -/
def outerOutputs (s : State) (n q : Nat) : List (Option Int) :=
  let m := (outerMean s n q).map (·.v)
  let t := tget s.board.tach 0
  if n = 7 then [m, if t.fast || t.stuck then none else some (t.speed s.timebase : Nat)] else [m]

/-- The inner loops whose limit an outer channel feeds. -/
def feeds (n q : Nat) : List Nat := if n = 5 then [q] else if n = 6 then [0, 1, 2, 3] else []

/-- What an outer channel's law takes. -/
def outerIn (s : State) (n q : Nat) : LawIn :=
  let l := tget s.loops n
  let sp := effSetpoint s n l (injected0 l)
  { y := outerOutputs s n q, r := [sp.v, 0], inj := injection l, cap := highestLimit s (feeds n q)
    n := (if (liveChans s n).head? = some q then sp.n else 0) + ((outerMean s n q).map (·.n)).getD 0 }

/-- A sample of L5, L6 or L7. -/
def sampleOuter (n : Nat) (s : State) : State :=
  let s1 := beginSample n s
  let qs := liveChans s1 n
  let s2 := qs.foldl (fun t q => observeChan n q t) s1
  let s4 := requestModes n (outerIn s2 n 0) s2
  let ins := qs.map (fun q => (q, outerIn s4 n q))
  let s5 := ins.foldl (fun t i => lawChan n i.1 i.2 t) s4
  let s6 := [0, 1, 2, 3].foldl (fun t q => onChan n q (fun c => { c with sum := 0, cnt := 0 }) t) (countSensors n (ins.map (·.2.y)) s5)
  supervise n qs s6

/-- L5 or L6 counts inner samples and samples when DIV of them have passed (R462). -/
def countOuter (n : Nat) (s : State) : State :=
  let l := tget s.loops n
  if max 1 l.divisor ≤ l.divCount + 1 then sampleOuter n (onLoop n (fun k => { k with divCount := 0 }) s)
  else onLoop n (fun k => { k with divCount := k.divCount + 1 }) s

/-- L7's output as FAN_PWM duty (R467). -/
def fanDuty (q : Int) : Nat := ((2000 * q + 32768) / 65536).toNat

/-- L7 samples every 1,000 inner samples; its output is the next duty (R593). -/
def sampleFan (s : State) : State :=
  if s.samples % 1000 = 0 then
    let t := sampleOuter 7 s
    { t with board := { t.board with dutyNext := fanDuty (at0 (tget (tget t.loops 7).ch 0).u 0) } }
  else s

/-! ### Errors of Kestrel's memories (R493) -/

/-- A loop's coefficient memory or state is lost: SAFE-FAULT with cause MEMORY whatever its mode, judged by the pattern test, and the
ROM defaults in the coefficient memory (R470, R493, Table 12.11). -/
def loseLoop (n : Nat) (ok : Bool) (s : State) : State :=
  let r := loopRecord s n 4 0
  let t := endTrace n (dropModes n (bump (cntKstFault n) 0 (bump cntSramUncorr (unitId 0x0E 0) s)))
  let rom := romCoef n (if (tget t.loops n).noWrite then 0 else Config.bootMillivolts n % 2048)
  judge { r with verdict := if ok then verTransient else verPermanent } false
    (raise attnLoopFault .admin (onLoop n (fun l => { ({ l with coef := rom } : KLoop).enter .safeFault with former := .safeFault }) t))

/-- What one of Kestrel's memories finds in a word. -/
def kestrelError (e : KestrelError) (s : State) : State :=
  match e with
  | .loop n (.uncorrectable ok) => if n < 8 then loseLoop n ok s else s
  | .rep n w (.uncorrectable _) => bump cntSramUncorr (unitId 0x0E 0) (onLoop n (fun l => { l with m := tset l.m w 0 }) s)
  | .trace n w (.uncorrectable _) =>
    bump cntSramUncorr (unitId 0x0E 0) (onLoop n (fun l => { l with trace := l.trace.map (fun t => { t with zeroed := w :: t.zeroed }) }) s)
  | .loop _ f | .rep _ _ f | .trace _ _ f => countEcc (unitId 0x0E 0) f s

/-! ### The inner sample (R474) -/

/-- Kestrel runs (R473), and the frames of the sample before have ended. -/
def sampleReady (s : State) : Bool :=
  !s.bring.inReset && decide (2 ≤ s.bring.stage) && [0, 1, 2, 3, 4].all (fun n => (tget s.avs n).frame.isNone && !(tget s.avs n).late)

/-- One inner sample: sensors, L0 to L4, the stretch, and the outer loops that are due. -/
def innerSampleEffect (y : Sensors) (s : State) : State :=
  if !sampleReady s then s
  else
    let s0 := y.ecc.foldl (fun t e => kestrelError e t) s
    let s1 := latchTemps y { s0 with samples := s0.samples + 1, loops := tmap (fun _ (l : KLoop) => { l with droop := false }) s0.loops }
    let s2 := [0, 1, 2, 3, 4].foldl (fun t n => sampleInner y n t) s1
    let s3 := addMeans y (applyStretch s2)
    sampleFan (countOuter 6 (countOuter 5 s3))

/-- INNER_SAMPLE. -/
def execInnerSample (y : Sensors) (s : State) : Host.Outcome State Fault Refusal := .next (innerSampleEffect y s)

/-! ### Marks, droop and release -/

/-- A period mark of a program reaches Kestrel; it takes effect at the next inner sample (R485, R486). -/
def periodMarkEffect (slot : Nat) (s : State) : State :=
  { s with loops := tmap (fun _ (l : KLoop) => if l.teacher = some slot ∧ l.markDue = true then { l with markDue := false, marked := true } else l) s.loops }

/-- PERIOD_MARK. -/
def execPeriodMark (slot : Nat) (s : State) : Host.Outcome State Fault Refusal := .next (periodMarkEffect slot s)

/-- A die voltage has fallen below DROOP: the stretch is forced until the next inner sample (R495, R496). -/
def droopTripEffect (n : Nat) (s : State) : State :=
  if n < 5 ∧ (tget s.loops n).w 0x0AD ≠ 0 ∧ s.bring.inReset = false ∧ 2 ≤ s.bring.stage ∧ (tget s.loops n).suspended = false then
    forceNow [0, 1, 2, 3, 4] (onLoop n (fun l => { l with droop := true }) (bump (cntKstDroop n) 0 s))
  else s

/-- DROOP_TRIP. -/
def execDroopTrip (loop : Nat) (s : State) : Host.Outcome State Fault Refusal := .next (droopTripEffect loop s)

/-- Every quadrant has read below 97 °C for 1 ms: throttling by the sensors ends (R618, R619). -/
def throttleReleaseEffect (s : State) : State :=
  if (s.board.hot || s.board.critical) && lastedSince s.board.coolSince (10 ^ 5) s then
    applyStretch { s with board := { s.board with hot := false, critical := false, coolSince := none } }
  else s

/-- THROTTLE_RELEASE. -/
def execThrottleRelease (s : State) : Host.Outcome State Fault Refusal := .next (throttleReleaseEffect s)

end Sys2Proof.Machine
end

