-- ==== Sys2Proof/Machine/BoardEv.lean ====
section
/-! DEFINITION. The board's inputs and the fan: alerts, tachometers and FAN_PWM (R586 to R593). -/

namespace Sys2Proof.Machine

/-- Change the board's state. -/
def onBoard (f : Board → Board) (s : State) : State := { s with board := f s.board }

/-- ATTN_BOARD_INPUT (R588). -/
def raiseBoard (s : State) : State := raise attnBoardInput .admin s

/-- A source of THERM_ALERT_N: ATTN_THERMAL and its record (R588). -/
def thermalEvent (source : Nat) (s : State) : State := thermalRecord source 0 (raise attnThermal .admin s)

/-! ### Alerts (R587) -/

/-- An alert's assertion has been accepted. -/
def assertAlert (pwr : Bool) (s : State) : State :=
  if pwr then
    forceNow [0, 1, 2, 3, 4] (raiseBoard (bump cntPwrAlert 0 (onBoard (fun b => { b with pwr := true, pwrSince := s.timebase }) s)))
  else
    forceNow [0, 1, 2, 3, 4, 7] (raiseBoard (thermalEvent 1 (bump cntThermAlert 0
      (onBoard (fun b => { b with therm := true, thermSince := s.timebase }) s))))

/-- An alert's deassertion has been accepted: STUCK clears and throttling ends. -/
def deassertAlert (pwr : Bool) (s : State) : State :=
  applyStretch (raiseBoard (onBoard (fun b =>
    if pwr then { b with pwr := false, pwrStuck := false } else { b with therm := false, thermStuck := false }) s))

/-- Pulses that returned within 100 samples are rejected and counted (R586). -/
def rejectPulses (n : Nat) (s : State) : State := bumpBy cntInputGlitch 0 n s

/-- A level is accepted only when it is a new one; `pulses` came before it and were rejected (R586). -/
def alertAcceptedEffect (pwr asserted : Bool) (pulses : Nat) (s : State) : State :=
  if s.bring.inReset then s
  else
    let t := rejectPulses pulses s
    if (if pwr then t.board.pwr else t.board.therm) = asserted then t
    else if asserted then assertAlert pwr t
    else deassertAlert pwr t

/-- ALERT_ACCEPTED. -/
def execAlertAccepted (pwr : Bool) (asserted : Bool) (pulses : Nat) (s : State) : Host.Outcome State Fault Refusal :=
  .next (alertAcceptedEffect pwr asserted pulses s)

/-- An alert that has stayed asserted for 1 s is flagged STUCK (R587). -/
def alertStuckEffect (pwr : Bool) (s : State) : State :=
  if pwr then
    (if s.board.pwr ∧ !s.board.pwrStuck ∧ s.board.pwrSince + 10 ^ 8 ≤ s.timebase then
      raiseBoard (onBoard (fun b => { b with pwrStuck := true }) s)
    else s)
  else if s.board.therm ∧ !s.board.thermStuck ∧ s.board.thermSince + 10 ^ 8 ≤ s.timebase then raiseBoard (thermalEvent 2 (onBoard (fun b => { b with thermStuck := true }) s))
  else s

/-- ALERT_STUCK. -/
def execAlertStuck (pwr : Bool) (s : State) : Host.Outcome State Fault Refusal := .next (alertStuckEffect pwr s)

/-! ### Tachometers (R589 to R592) -/

/-- Change one tachometer. -/
def onTach (n : Nat) (f : Tach → Tach) (s : State) : State := { s with board := { s.board with tach := tmod s.board.tach n f } }

/-- The estimate A from the times of edges, newest first (R589), halves rounded up; 0 with fewer than two. -/
def estimate (edges : List Nat) : Nat :=
  let k := min 8 (edges.length - 1)
  let d := edges.getD 0 0 - edges.getD k 0
  if k = 0 then 0 else (2 * 10 ^ 8 * k + d) / (2 * d)

/-- A tachometer after an edge (R589, R591, R592). -/
def Tach.edge (a : Tach) (now : Nat) : Tach :=
  let es := (now :: a.edges).take 9
  let e := estimate es
  if es.length < 2 then { a with edges := es, still := false }
  else { edges := es, est := min e 20000, still := false, fast := decide (20000 < e), stuck := false }

/-- What a change of OVERRANGE causes (R588, R591). -/
def overrangeEvents (n : Nat) (was now : Bool) (s : State) : State :=
  if was = now then s
  else if now then raiseBoard (bump (if n = 0 then cntTach0Overrange else cntTach1Overrange) 0 s)
  else raiseBoard s

/-- An accepted edge; two edges are never in one TCLK cycle; `pulses` came before it and were rejected (R586). -/
def tachEdgeEffect (n pulses : Nat) (s : State) : State :=
  let a := tget s.board.tach n
  if 2 ≤ n ∨ s.bring.inReset ∨ a.edges.head? = some s.timebase then s
  else overrangeEvents n a.fast (a.edge s.timebase).fast (onTach n (fun _ => a.edge s.timebase) (rejectPulses pulses s))

/-- TACH_EDGE. -/
def execTachEdge (n pulses : Nat) (s : State) : Host.Outcome State Fault Refusal := .next (tachEdgeEffect n pulses s)

/-- One second without an edge: standstill, with an empty history (R590); STUCK is another matter. -/
def tachStandstillEffect (n : Nat) (s : State) : State :=
  let a := tget s.board.tach n
  if 2 ≤ n ∨ a.edges = [] ∨ s.timebase < a.edges.getD 0 0 + 10 ^ 8 then s
  else overrangeEvents n a.fast false (onTach n (fun b => { stuck := b.stuck }) s)

/-- TACH_STANDSTILL. -/
def execTachStandstill (n : Nat) (s : State) : Host.Outcome State Fault Refusal := .next (tachStandstillEffect n s)

/-- Speed 0 after 3 s of a duty of at least 20 % is flagged STUCK (R592). -/
def tachStuckEffect (n : Nat) (s : State) : State :=
  let a := tget s.board.tach n
  if 2 ≤ n ∨ a.stuck ∨ a.speed s.timebase ≠ 0 ∨ !lastedSince s.board.dutySince (3 * 10 ^ 8) s then s
  else raiseBoard (bump (if n = 0 then cntTach0Stuck else cntTach1Stuck) 0 (onTach n (fun b => { b with stuck := true }) s))

/-- TACH_STUCK. -/
def execTachStuck (n : Nat) (s : State) : Host.Outcome State Fault Refusal := .next (tachStuckEffect n s)

/-! ### FAN_PWM (R593) -/

/-- A FAN_PWM period starts: the duty is L7's, or 1,000 when forced; since when it has been at least 20 % is kept (R592). -/
def fanPwmPeriodEffect (s : State) : State :=
  onBoard (fun b =>
    let d := if dutyForced b then 1000 else b.dutyNext
    { b with duty := d, dutySince := if 200 ≤ d then some (b.dutySince.getD s.timebase) else none }) s

/-- FAN_PWM_PERIOD. -/
def execFanPwmPeriod (s : State) : Host.Outcome State Fault Refusal := .next (fanPwmPeriodEffect s)

end Sys2Proof.Machine
end

