-- ==== Sys2Proof/Machine/PelocPhy.lean ====
section
/-! DEFINITION. A Peloc port's flits, frames, codewords, lanes and training frames as bytes and symbols (R263, R264, R268 to R270, R279;
chapter 08). -/

namespace Sys2Proof.Machine

/-! ### Flits (R269, R270) -/

/-- The link header of a flit (Table 08.4). -/
def flitHeader (f : Flit) : Nat :=
  f.kind + 2 ^ 4 * f.vc + 2 ^ 6 * b2n f.head + 2 ^ 7 * b2n f.tail + 2 ^ 8 * f.seq + 2 ^ 20 * f.ack + 2 ^ 32 * f.crvc + 2 ^ 34 * f.crtot

/-- The 256 bytes of a flit: link header, body and CRC-32. -/
def flitBytes (f : Flit) : List Byte :=
  let b := leBytes 8 (flitHeader f) ++ f.body
  b ++ leBytes 4 (crc32 b)

/-- The flit that 256 bytes spell. -/
def parseFlit (raw : List Byte) : Flit :=
  let h := leNat (raw.take 8)
  { kind := h % 2 ^ 4, vc := h / 2 ^ 4 % 4, head := h.testBit 6, tail := h.testBit 7, seq := h / 2 ^ 8 % 4096, ack := h / 2 ^ 20 % 4096
    crvc := h / 2 ^ 32 % 4, crtot := h / 2 ^ 34 % 4096, body := (raw.drop 8).take 244 }

/-- The CRC-32 of received bytes holds (R270). -/
def flitCrcOk (raw : List Byte) : Bool := raw.length == 256 && crc32 (raw.take 252) == leNat (raw.drop 252)

/-- A flit is bad: a codeword taints it, its CRC fails, or its KIND is reserved (R264, R270). -/
def flitBad (raw : List Byte) (d : FecResult) : Bool := d.tainted || !flitCrcOk raw || decide (3 < (parseFlit raw).kind)

/-- The body of a flit that says nothing. -/
def emptyBody : List Byte := List.replicate 244 0

/-! ### Frames (R268) -/

/-- FMARK as it is sent. -/
def frameMark : List Byte := [0x5A, 0xC3]

/-- A frame word (Table 08.3). -/
def frameWord (fcnt width : Nat) : List Byte := frameMark ++ [BitVec.ofNat 8 fcnt, BitVec.ofNat 8 width] ++ List.replicate 6 0

/-- A frame: its word and ten flits. -/
def frameBytes (fcnt width : Nat) (fs : List Flit) : List Byte := frameWord fcnt width ++ fs.flatMap flitBytes

/-- A received frame word has the right FMARK. -/
def markGood (w : List Byte) : Bool := w.take 2 == frameMark

/-- FCNT of a received frame word. -/
def frameCount (w : List Byte) : Nat := (w.getD 2 0).toNat

/-- The second frame word follows the first: its FMARK is right and its FCNT is the next. -/
def wordFollows (a b : List Byte) : Bool := markGood b && frameCount b == (frameCount a + 1) % 256

/-- Four frames give frame lock: every FMARK is right and the FCNT values are consecutive. -/
def givesLock (ws : List (List Byte)) : Bool :=
  match ws with
  | [a, b, c, d] => markGood a && wordFollows a b && wordFollows b c && wordFollows c d
  | _ => false

/-- Four frames lose frame lock: none after the first has a right FMARK and the next FCNT; what the first should have followed was sent
before them. -/
def losesLock (ws : List (List Byte)) : Bool :=
  match ws with
  | [a, b, c, d] => !wordFollows a b && !wordFollows b c && !wordFollows c d
  | _ => false

/-! ### Codewords and lanes (R263, R264, R268) -/

/-- The bits of bytes, each byte from bit 0. -/
def byteBits (bs : List Byte) : List Bool := bs.flatMap (fun b => (List.range 8).map (fun i => b.toNat.testBit i))

/-- The number that bits spell, the first the least significant. -/
def ofBits : List Bool → Nat
  | [] => 0
  | b :: r => b2n b + 2 * ofBits r

/-- The four messages of a frame, of 514 ten-bit symbols each. -/
def frameMessages (bs : List Byte) : List (List Nat) :=
  (chunks 5140 4 (byteBits bs)).map (fun m => (chunks 10 514 m).map ofBits)

/-- A codeword: its message and the 30 parity symbols, which IEEE 802.3 Clause 91 gives (assumption 167). -/
def codeword (msg : List Nat) : List Nat := msg ++ (List.range 30).map (Config.rsParity msg)

/-- The active lane of symbol `k` of a codeword, with 8 or 4 lanes. -/
def symbolLane (width k : Nat) : Nat := k % (if width = 0 then 8 else 4)

/-- The lane of a port that carries active lane `i`: 4 lanes are lanes 0 to 3 or lanes 4 to 7. -/
def activeLane (width i : Nat) : Nat := if width = 2 then i + 4 else i

/-- The two bits of a PAM4 symbol as a level in Gray code (IEEE 802.3 Clause 120, assumption 167). -/
def grayLevel (v : Nat) : Nat := match v with | 0 => 0 | 2 => 1 | 3 => 2 | _ => 3

/-- The five PAM4 levels of a ten-bit symbol, low bits first. -/
def pamLevels (sym : Nat) : List Nat := (List.range 5).map (fun i => grayLevel (sym / 4 ^ i % 4))

/-- The 1/(1+D) mod 4 precoding of levels after a level already sent. -/
def precode : Nat → List Nat → List Nat
  | _, [] => []
  | p, g :: r => (g + 4 - p) % 4 :: precode ((g + 4 - p) % 4) r

/-- The levels that a lane sends of a frame's codewords. -/
def laneLevels (width lane : Nat) (cws : List (List Nat)) : List Nat :=
  cws.flatMap (fun c => (c.zipIdx.filter (fun e => activeLane width (symbolLane width e.2) == lane)).flatMap (fun e => pamLevels e.1))

/-! ### Training frames (R279, Table 08.13) -/

/-- A word as 128 symbols: a bit of 1 as levels 3, 0 and one of 0 as levels 0, 3. -/
def wordLevels (w : BitVec 64) : List Nat := (List.range 64).flatMap (fun i => if w.getLsbD i then [3, 0] else [0, 3])

/-- The levels of a training frame before its PRBS13Q. -/
def trainLevels (control status : BitVec 64) : List Nat :=
  List.replicate 32 3 ++ List.replicate 32 0 ++ wordLevels control ++ wordLevels status

/-- A control word: requests for the three taps, PRESET, PRECODE, and the sender's lane and port. -/
def controlWord (want : List Nat) (preset precode : Bool) (lane port : Nat) : BitVec 64 :=
  BitVec.ofNat 64 (want.getD 0 0 % 4 + 4 * (want.getD 1 0 % 4) + 16 * (want.getD 2 0 % 4) + 2 ^ 6 * b2n preset + 2 ^ 7 * b2n precode +
    2 ^ 8 * lane + 2 ^ 12 * port)

/-- A status word: what became of the requests for the three taps, RX_READY and PRECODE_ON. -/
def statusWord (done : List Nat) (ready precodeOn : Bool) : BitVec 64 :=
  BitVec.ofNat 64 (done.getD 0 0 % 4 + 4 * (done.getD 1 0 % 4) + 16 * (done.getD 2 0 % 4) + 2 ^ 6 * b2n ready + 2 ^ 7 * b2n precodeOn)

/-- The field of a word for tap `t`. -/
def tapField (w : BitVec 64) (t : Nat) : Nat := w.toNat / 4 ^ t % 4

/-- RX_READY of a status word. -/
def wordReady (w : BitVec 64) : Bool := w.getLsbD 6

/-- The sender's lane of a control word. -/
def wordLane (w : BitVec 64) : Nat := w.toNat / 2 ^ 8 % 16

end Sys2Proof.Machine
end

