-- ==== Sys2Proof/Machine/Desc.lean ====
section
/-! DEFINITION. Codec job descriptors and their checks (Tables 04.3 and 04.4, R34, R114). -/

namespace Sys2Proof.Machine

/-- A codec job descriptor. -/
abbrev Desc := List Dword

/-- Dword n of a descriptor. -/
def Desc.w (d : Desc) (n : Nat) : Dword := d.getD n 0
/-- OP. -/
def Desc.op (d : Desc) : Nat := bits (d.w 0) 3 0
/-- ENGINE. -/
def Desc.engine (d : Desc) : Nat := bits (d.w 0) 7 4
/-- ORDERED. -/
def Desc.ordered (d : Desc) : Bool := bit (d.w 0) 8
/-- NOGAIN: REFUSE. -/
def Desc.nogain (d : Desc) : Bool := bit (d.w 0) 9
/-- OUTFULL: ATOMIC. -/
def Desc.atomic (d : Desc) : Bool := bit (d.w 0) 10
/-- ERRPOL: SKIP. -/
def Desc.skip (d : Desc) : Bool := bit (d.w 0) 11
/-- PADKEEP. -/
def Desc.padkeep (d : Desc) : Bool := bit (d.w 0) 12
/-- FLUSHEND. -/
def Desc.flushend (d : Desc) : Bool := bit (d.w 0) 13
/-- SETLAST. -/
def Desc.setlast (d : Desc) : Bool := bit (d.w 0) 14
/-- SRCLIST. -/
def Desc.srclist (d : Desc) : Bool := bit (d.w 0) 15
/-- STREAM. -/
def Desc.stream (d : Desc) : Nat := bits (d.w 0) 31 16
/-- The encoding of a single-mode job. -/
def Desc.enc (d : Desc) : Enc := encOf (bits (d.w 1) 3 0) (bit (d.w 1) 4) (bits (d.w 1) 9 5) (bits (d.w 2) 11 0)
/-- TSEL. -/
def Desc.tsel (d : Desc) : Nat := bits (d.w 1) 11 10
/-- TSLOT. -/
def Desc.tslot (d : Desc) : Nat := bits (d.w 1) 19 12
/-- BLKLEN. -/
def Desc.blklen (d : Desc) : Nat := bits (d.w 1) 27 20
/-- CFMT. -/
def Desc.cfmt (d : Desc) : Nat := bits (d.w 2) 15 12
/-- CBSCALE. -/
def Desc.cbscale (d : Desc) : Bool := bit (d.w 2) 16
/-- CMODE. -/
def Desc.cmode (d : Desc) : Nat := bits (d.w 2) 18 17
/-- CEXP. -/
def Desc.cexp (d : Desc) : Int := signed 7 (bits (d.w 2) 25 19)
/-- A 48-bit address in dwords n and n + 1. -/
def Desc.addr (d : Desc) (n : Nat) : Nat := (d.w n).toNat + 2 ^ 32 * bits (d.w (n + 1)) 15 0
/-- SRC. -/
def Desc.src (d : Desc) : Nat := d.addr 3
/-- SRCLEN. -/
def Desc.srclen (d : Desc) : Nat := (d.w 5).toNat
/-- DST. -/
def Desc.dst (d : Desc) : Nat := d.addr 6
/-- POOL. -/
def Desc.pool (d : Desc) : Nat := bits (d.w 7) 19 16
/-- DSTLEN. -/
def Desc.dstlen (d : Desc) : Nat := (d.w 8).toNat
/-- LIST. -/
def Desc.list (d : Desc) : Nat := d.addr 9
/-- LISTCAP. -/
def Desc.listcap (d : Desc) : Nat := (d.w 11).toNat
/-- The operation encodes with the descriptor's own encoding. -/
def Desc.ownEnc (d : Desc) : Bool := (d.op == 0 || d.op == 2) && !d.ordered
/-- The operation writes at DST. -/
def Desc.writes (d : Desc) : Bool := d.op != 3

/-- Reserved fields and encodings in fields that the operation uses (R114). -/
def Desc.reserved (d : Desc) : Bool :=
  bits (d.w 1) 31 28 != 0 || bits (d.w 2) 31 26 != 0 || bits (d.w 4) 31 16 != 0 || bits (d.w 7) 31 20 != 0 ||
  bits (d.w 10) 31 16 != 0 || decide (4 ≤ d.op) || (decide (8 ≤ d.engine) && d.engine != 0xF) ||
  (d.ownEnc && (d.enc.fmt == 0xF || d.tsel == 3)) || (d.op == 2 && (d.cfmt == 0xF || d.cmode == 3))

/-- Breaches of Tables 04.3 and 04.4 that give ST_PARAM_RANGE. -/
def Desc.breach (s : State) (part : Nat) (d : Desc) : Bool :=
  (!d.ordered && d.stream != 0) ||
  (d.ordered && (bits (d.w 1) 27 0 != 0 || bits (d.w 2) 11 0 != 0)) ||
  d.src % 16 != 0 || d.dst % 16 != 0 || d.list % 16 != 0 || (d.op == 3 && d.dst != 0) ||
  (d.srclist && (d.op == 0 || d.op == 2)) ||
  (d.op == 2 && ((d.cbscale && !scalable d.cfmt) || (!d.ordered && (d.cfmt != d.enc.fmt || d.cbscale != d.enc.bscale)))) ||
  (d.ownEnc && (!d.enc.ok || !d.enc.lenOk (16 * (d.blklen + 1)) || (d.tsel != 1 && (slotTable s part d.tslot).isNone))) ||
  (d.op == 0 && !d.ordered && d.enc.bscale && d.srclen % groupSize d.enc.fmt != 0) ||
  (d.writes && !d.atomic &&
    ((tget s.pools d.pool).owner != some part || decide ((tget s.pools d.pool).bufsize < 4112) || d.list == 0))

/-- A range of a descriptor that is used lies in the partition's windows. -/
def rangeIn (s : State) (part : Nat) (wr : Bool) (a n : Nat) : Bool := n == 0 || windowOk s part wr a n

/-- The windows and the stream of a descriptor (R34, R106, Table 04.4). -/
def Desc.isolation (s : State) (part : Nat) (d : Desc) : Verdict :=
  if d.ordered && !inStreams s part d.stream then { status := stStreamRange, counts := [(cntStreamRange, part)] }
  else if rangeIn s part false d.src (if d.srclist then 16 * d.srclen else d.srclen) &&
    (!d.writes || rangeIn s part true d.dst d.dstlen) && (d.list == 0 || rangeIn s part true d.list (16 * d.listcap)) then {}
  else { status := stWindowFault, counts := [(cntWindowFault, part)] }

/-- A descriptor's checks, at CODEC_SUBMIT and at a CTRL slot's CODEC (R34, R114, R112). -/
def descCheck (s : State) (part : Nat) (d : Desc) : Verdict :=
  (firstOf [(d.reserved, stParamReserved), (d.breach s part, stParamRange)]).andThen
    ((d.isolation s part).andThen (firstOf [(d.ordered && !streamsOpen s, stCtxTableUnset)]))

/-- The device's queue of 256 codec jobs has no free place beside `waiting` CODEC bundles (R120, R172). -/
def codecFull (s : State) (waiting : Nat) : Bool := decide (256 ≤ s.jobs.length + waiting)

/-- A job joins the queue. -/
def addJob (j : Job) (s : State) : State := { s with jobs := s.jobs ++ [{ j with id := s.nextId }], nextId := s.nextId + 1 }

end Sys2Proof.Machine
end

