-- ==== Sys2Proof/Machine/TileCore.lean ====
section
/-! DEFINITION. Tiles: the fields of a bundle, gangs and DUAL pairs, operand slots, the interlocks of issue, and the arithmetic of
MAC and PACK (R143 to R151, R156 to R162, R167, R168, R180, R181, R437; chapter 05). -/

namespace Sys2Proof.Machine

/-! ### Fields of a bundle (Tables 05.7 to 05.13) -/

/-- A bundle: its eight dwords. -/
abbrev Bundle := List Dword

/-- Bits of a bundle's dword. -/
def Bundle.f (b : Bundle) (n hi lo : Nat) : Nat := bits (b.getD n 0) hi lo
/-- A bit of a bundle's dword. -/
def Bundle.t (b : Bundle) (n i : Nat) : Bool := bit (b.getD n 0) i
/-- COP. -/
def Bundle.cop (b : Bundle) : Nat := b.f 0 3 0
/-- n of a CTRL operation on a register. -/
def Bundle.creg (b : Bundle) : Nat := b.f 0 7 4
/-- MOP of the MOVE slot. -/
def Bundle.moveOp (b : Bundle) : Nat := b.f 2 1 0
/-- SREG. -/
def Bundle.sreg (b : Bundle) : Nat := b.f 2 5 2
/-- DREG of the MOVE slot. -/
def Bundle.dreg (b : Bundle) : Nat := b.f 2 10 7
/-- Bytes of a MOVE. -/
def Bundle.moveLen (b : Bundle) : Nat := 16 * (b.f 2 27 16 + 1)
/-- EOP. -/
def Bundle.eop (b : Bundle) : Nat := b.f 4 1 0
/-- TREG. -/
def Bundle.treg (b : Bundle) : Nat := b.f 4 5 2
/-- The EXPAND uses the activation port. -/
def Bundle.expAct (b : Bundle) : Bool := b.eop == 2
/-- SLOT of the EXPAND slot. -/
def Bundle.eslot (b : Bundle) : Nat := b.f 4 14 11
/-- NBLK + 1. -/
def Bundle.eblocks (b : Bundle) : Nat := b.f 4 10 7 + 1
/-- BOFF. -/
def Bundle.boff (b : Bundle) : Nat := b.f 4 24 15
/-- SEN of the EXPAND slot. -/
def Bundle.esen (b : Bundle) : Bool := b.t 4 25
/-- SIDX of the EXPAND slot. -/
def Bundle.esidx (b : Bundle) : Nat := b.f 4 29 26
/-- FIN. -/
def Bundle.fin (b : Bundle) : Bool := b.t 4 30
/-- MOP of the MAC slot. -/
def Bundle.macOp (b : Bundle) : Nat := b.f 5 9 8
/-- WFMT. -/
def Bundle.wfmt (b : Bundle) : Nat := b.f 5 13 10
/-- WBS. -/
def Bundle.wbs (b : Bundle) : Bool := b.t 5 14
/-- AFMT. -/
def Bundle.afmt (b : Bundle) : Nat := b.f 5 18 15
/-- ABS. -/
def Bundle.abs (b : Bundle) : Bool := b.t 5 19
/-- WSLOT. -/
def Bundle.wslot (b : Bundle) : Nat := b.f 5 20 20
/-- WREL. -/
def Bundle.wrel (b : Bundle) : Bool := b.t 5 21
/-- ASLOT. -/
def Bundle.aslot (b : Bundle) : Nat := b.f 5 25 22
/-- AREL. -/
def Bundle.arel (b : Bundle) : Bool := b.t 5 26
/-- ASTR + 1. -/
def Bundle.astr (b : Bundle) : Nat := b.f 5 31 27 + 1
/-- AOFF. -/
def Bundle.aoff (b : Bundle) : Nat := b.f 6 7 0
/-- NROW + 1 of the MAC slot. -/
def Bundle.mrows (b : Bundle) : Nat := b.f 6 13 8 + 1
/-- ACCR of the MAC slot. -/
def Bundle.maccr (b : Bundle) : Nat := b.f 6 21 14
/-- The accumulator row step. -/
def Bundle.mstep (b : Bundle) : Nat := b.f 6 22 22 + 1
/-- PEN of the PACK slot. -/
def Bundle.pen (b : Bundle) : Bool := b.t 6 24
/-- FLUSH. -/
def Bundle.pflush (b : Bundle) : Bool := b.t 6 25
/-- NROW + 1 of the PACK slot. -/
def Bundle.prows (b : Bundle) : Nat := b.f 6 31 26 + 1
/-- ACCR of the PACK slot. -/
def Bundle.paccr (b : Bundle) : Nat := b.f 7 7 0
/-- CFMT. -/
def Bundle.cfmt (b : Bundle) : Nat := b.f 7 11 8
/-- CBS. -/
def Bundle.cbs (b : Bundle) : Bool := b.t 7 12
/-- CMODE. -/
def Bundle.cmode (b : Bundle) : Nat := b.f 7 14 13
/-- CEXP. -/
def Bundle.cexp (b : Bundle) : Int := signed 7 (b.f 7 21 15)
/-- SIDX of the PACK slot. -/
def Bundle.psidx (b : Bundle) : Nat := b.f 7 25 22
/-- DREG of the PACK slot. -/
def Bundle.pdreg (b : Bundle) : Nat := b.f 7 29 26
/-- DINC of the PACK slot. -/
def Bundle.pdinc (b : Bundle) : Bool := b.t 7 30

/-- The bundle of a queued operation. -/
def UOp.b (o : UOp) : Bundle := o.w

/-- Accumulator rows that a MAC uses. -/
def Bundle.macRows (b : Bundle) : List Nat := (List.range b.mrows).map (fun i => b.maccr + i * b.mstep)
/-- Accumulator rows that a PACK reads. -/
def Bundle.packRows (b : Bundle) : List Nat := (List.range b.prows).map (· + b.paccr)

/-! ### Gangs and pairs (R180, R437) -/

/-- Tiles of a gang code. -/
def gangSize (g : Nat) : Nat := 2 ^ g

/-- The leader of a tile's gang. -/
def leaderOf (s : State) (t : Nat) : Nat :=
  let h := gangSize (tget s.tiles t).gang
  8 * (t / 8 / h * h) + t % 8

/-- The members of a tile's gang, leader first. -/
def membersOf (s : State) (t : Nat) : List Nat :=
  (List.range (gangSize (tget s.tiles t).gang)).map (fun i => leaderOf s t + 8 * i)

/-- Write bytes at a device address of tile stores, Loam or HBM, the marked granules with them. -/
def storeWrite (a : Nat) (data : List Byte) (bad : List Nat) (s : State) : State :=
  writePiece none { dev := a, len := data.length } data bad s

/-! ### Operand slots (R149) -/

/-- A slot of a tile. -/
def Tile.slot (t : Tile) (act : Bool) (k : Nat) : OpSlot := if act then tget t.s k else tget t.w k

/-- Change a slot. -/
def Tile.onSlot (t : Tile) (act : Bool) (k : Nat) (f : OpSlot → OpSlot) : Tile :=
  if act then { t with s := tmod t.s k f } else { t with w := tmod t.w k f }

/-- Bytes of a slot. -/
def slotSize (act : Bool) : Nat := if act then 4096 else 16384

/-- A slot's bytes from an offset. -/
def OpSlot.read (o : OpSlot) (off n : Nat) : List Byte := (List.range n).map (fun i => tget o.data (off + i))

/-- Every slot EMPTY and every accumulator 0 (R166, R178). -/
def Tile.clean (t : Tile) : Tile := { t with w := [], s := [], acc := [], bad := [] }

/-! ### Bad words of the array (R418, R431, Table 12.7) -/

/-- A bad word lies in `n` bytes of a slot. -/
def BadWord.inSlot (w : BadWord) (act : Bool) (k off n : Nat) : Bool :=
  w.act == act && w.slot == some k && decide (off ≤ w.off) && decide (w.off < off + n)

/-- A bad word lies in an accumulator row. -/
def BadWord.inRow (w : BadWord) (r : Nat) : Bool := w.slot.isNone && w.off / 64 == r

/-- What a read finds there. -/
def BadWord.finding (w : BadWord) : EccFinding := if w.kind = 0 then .corrected else .uncorrectable true

/-- Injected errors strike the word that a tile's array writes first. -/
def plantWord (t : Nat) (w : BadWord) (s : State) : State :=
  [0, 1].foldl (fun u k =>
    if armed u (unitId 0x01 t) k then onTile t (fun x => { x with bad := x.bad ++ [{ w with kind := k }] }) (takeInject (unitId 0x01 t) k u)
    else u) s

/-! ### What a tile has still to do (R167, R175, R183) -/

/-- Operations in the MOVE queue, the one under way included. -/
def Tile.moves (t : Tile) : Nat := t.mq.length + b2n t.mv.isSome + b2n t.send.isSome
/-- Operations in the EXPAND queue. -/
def Tile.expands (t : Tile) : Nat := t.eq.length + b2n t.exW.isSome + b2n t.exA.isSome
/-- Operations in the MAC queue. -/
def Tile.macs (t : Tile) : Nat := t.maq.length + b2n t.mc.isSome
/-- Operations in the PACK queue. -/
def Tile.packs (t : Tile) : Nat := t.pq.length + b2n t.pk.isSome

/-- Codec jobs that a tile's CTRL slot has issued and that have not ended (R172). -/
def codecsOf (s : State) (t : Nat) : Nat :=
  (s.jobs.filter (fun j => match j.prog with | some p => p.2 == t | none => false)).length

/-- Every operation that a tile has issued has completed. -/
def allDone (s : State) (t : Nat) : Bool :=
  let x := tget s.tiles t
  x.moves == 0 && x.expands == 0 && x.macs == 0 && x.packs == 0 && codecsOf s t == 0

/-- A tile has finished its sequence (R183). -/
def finished (s : State) (t : Nat) : Bool := (tget s.tiles t).halted && allDone s t

/-! ### Replay: what is counted and not performed (R176) -/

/-- A kind of effect whose tally has not been reached again is suppressed. -/
def Tile.behind (t : Tile) (k : Tally → Nat) : Bool :=
  match t.goal with
  | some g => decide (k t.tally < k g)
  | none => false

/-! ### Issue (R150, R158, R167) -/

/-- The next bundle of a tile. -/
def Tile.next (t : Tile) : Bundle := t.bundles.getD t.pc []

/-- The address registers that a bundle names. -/
def Bundle.regs (b : Bundle) : List Nat :=
  (if b.cop = 5 ∨ b.cop = 8 ∨ b.cop = 9 then [b.creg] else []) ++
  (if b.moveOp ≠ 0 then [b.sreg, b.dreg] else []) ++ (if b.eop ≠ 0 then [b.treg] else []) ++ (if b.pen then [b.pdreg] else [])

/-- Its wait is satisfied, or suppressed. -/
def Tile.waitOk (t : Tile) (b : Bundle) : Bool :=
  !b.t 1 0 || t.behind (·.waits) || decide (b.f 1 12 5 + 1 ≤ tget t.c (b.f 1 4 1))

/-- Every unit that it uses has room (R167). -/
def Tile.roomOk (t : Tile) (b : Bundle) : Bool :=
  (b.moveOp == 0 || t.behind (·.moves) || decide (t.moves < 4)) && (b.eop == 0 || decide (t.expands < 4)) &&
  (b.macOp == 0 || decide (t.macs < 4)) && (!b.pen || t.behind (·.packs) || decide (t.packs < 4))

/-- A bundle closes an idle window (R178). -/
def Bundle.closes (b : Bundle) : Bool := b.eop != 0 || b.macOp != 0 || b.pen || b.cop == 0xA

/-- A tile stands at a CHECKPOINT with nothing left to complete. -/
def atCheckpoint (s : State) (t : Nat) : Bool :=
  let x := tget s.tiles t
  !x.cpTaken && x.running && !x.halted && x.next.cop == 3 && allDone s t

/-- The CTRL slot may take effect, the codec queue aside (R157, R175). -/
def ctrlOk (s : State) (t : Nat) (b : Bundle) : Bool :=
  match b.cop with
  | 3 => (tget s.tiles t).cpTaken || (membersOf s t).all (atCheckpoint s)
  | 7 => allDone s t
  | _ => true

/-- A block of the tile waits to be fetched again: the tile stalls (R29). -/
def Tile.stalled (x : Tile) : Bool :=
  let waits := fun (e : Option ExpOp) => match e with | some o => !o.refetch.isEmpty | none => false
  waits x.exW || waits x.exA

/-- A bundle could issue if the codec queue had a place. -/
def issueReady (s : State) (t : Nat) : Bool :=
  let x := tget s.tiles t
  let b := x.next
  x.running && !x.halted && !x.stalled && decide (x.pc < x.bundles.length) && x.waitOk b && b.regs.all (fun r => (tget x.a r).busy == 0) &&
  x.roomOk b && ctrlOk s t b && (x.kernel.isNone || x.idle.isSome)

/-- A bundle needs a place in the codec queue. -/
def needsPlace (s : State) (t : Nat) : Bool :=
  let x := tget s.tiles t
  x.next.cop == 5 && !x.behind (·.codecs)

/-- CODEC bundles that wait for nothing but a place in the codec queue (R172). -/
def codecWaiting (s : State) : List Nat := (s.tiles.map Prod.fst).filter (fun t => issueReady s t && needsPlace s t)

/-- How many. -/
def codecWaiters (s : State) : Nat := (codecWaiting s).length

/-- A tile can issue its next bundle; a freed place goes to the lowest waiting tile. -/
def canIssue (s : State) (t : Nat) : Bool :=
  issueReady s t && (!needsPlace s t || (!codecFull s 0 && (codecWaiting s).all (t ≤ ·)))

/-! ### The array (R144 to R147) -/

/-- K of a weight format. -/
def depthOf (wfmt : Nat) : Nat := match fmtBits wfmt with | 4 => 128 | 2 => 256 | _ => 64

/-- Bytes of `k` elements (R147). -/
def rowBytes (fmt : Nat) (bs : Bool) (k : Nat) : Nat := k * fmtBits fmt / 8 + (if bs then k / 32 else 0)

/-- The bad words that a MAC reads on a tile: in its slots, and in the accumulators where it does not clear them (`leads`). -/
def macReads (x : Tile) (b : Bundle) (leads : Bool) : List BadWord :=
  let k := depthOf b.wfmt
  x.bad.filter (fun w => w.inSlot false b.wslot 0 (64 * rowBytes b.wfmt b.wbs k) ||
    (List.range b.mrows).any (fun i => w.inSlot true b.aslot (16 * (b.aoff + i * b.astr)) (rowBytes b.afmt b.abs k)) ||
    (leads && b.macOp != 2 && b.macRows.any w.inRow))

/-- The bad words that a PACK reads on a tile. -/
def packReads (x : Tile) (b : Bundle) : List BadWord := x.bad.filter (fun w => b.packRows.any w.inRow)

/-- Bad words of arrays, as (tile, word), are read, and in tile `t`'s array something nobody injected: the code's effects. -/
def arrayEcc (t part : Nat) (ws : List (Nat × BadWord)) (found : EccFinding) (s : State) : State :=
  wordEcc (unitId 0x01 t) stPoisonConsumed (some part) found false
    (ws.foldl (fun u w => wordEcc (unitId 0x01 w.1) stPoisonConsumed (some part) w.2.finding true
      (onTile w.1 (fun x => { x with bad := x.bad.erase w.2 }) u)) s)

/-- One of them stops its reader. -/
def arrayFatal (ws : List (Nat × BadWord)) (found : EccFinding) : Bool := fatalEcc found || ws.any (fun w => fatalEcc w.2.finding)

/-- K elements with their scale bytes (0 without block scaling), in order. -/
def operands (fmt : Nat) (bs : Bool) (k : Nat) (data : List Byte) : List (Nat × Nat) :=
  if bs then
    (List.range (k / 32)).flatMap (fun g =>
      let d := data.drop (g * (1 + 4 * fmtBits fmt))
      (unpack (fmtBits fmt) 32 ((d.drop 1).take (4 * fmtBits fmt))).map (fun x => ((d.headD 0).toNat, x)))
  else (unpack (fmtBits fmt) k data).map (fun x => (0, x))

/-- The exact sum of a chunk of operand pairs, scales included (R94, R95). -/
def chunkSum (wf af : Nat) (bs : Bool) (ps : List ((Nat × Nat) × (Nat × Nat))) : NVal :=
  let sum := sumVals (ps.map (fun p => mulVal wf af bs p.1.2 p.2.2))
  if bs then
    match ps with
    | [] => sum
    | p :: _ => if p.1.1 = 0xFF ∨ p.2.1 = 0xFF then .nan else sum.scale ((p.1.1 : Int) - 127 + ((p.2.1 : Int) - 127))
  else sum

/-- An accumulator takes the products of one column, chunk by chunk; the flag says that it became saturated or infinite, which is counted
once until it is cleared (R94 to R96). -/
def accColumn (k : AccKind) (wf af : Nat) (bs : Bool) : List (List ((Nat × Nat) × (Nat × Nat))) → Acc × Bool → Acc × Bool
  | [], a => a
  | c :: r, (a, f) =>
    if a.sat then (a, f)
    else
      let x := accTake k a.raw a.sat (chunkSum wf af bs c)
      accColumn k wf af bs r ({ kind := k, raw := x.1, sat := x.2.1, counted := a.counted || x.2.2 }, f || (x.2.2 && !a.counted))

/-- The pairs of weight and activation that column `j` takes from one tile, for activation row `i` of a MAC. -/
def columnPairs (x : Tile) (b : Bundle) (i j : Nat) : List ((Nat × Nat) × (Nat × Nat)) :=
  let k := depthOf b.wfmt
  let wb := rowBytes b.wfmt b.wbs k
  let ws := operands b.wfmt b.wbs k ((x.slot false b.wslot).read (j * wb) wb)
  let as := operands b.afmt b.abs k ((x.slot true b.aslot).read (16 * (b.aoff + i * b.astr)) (rowBytes b.afmt b.abs k))
  ws.zip as

/-- The code of an accumulator type, for the open reading of one type's bits as another's. -/
def AccKind.code : AccKind → Nat
  | .fp32 => 0
  | .int32 => 1
  | .int48 => 2
  | .q15 => 3

/-- An accumulator's bits as a MAC of another type takes them: open, but a function of them (R80, assumption 46). -/
def Acc.as (a : Acc) (k : AccKind) : Acc :=
  let x := Config.accAs a.kind.code k.code a.raw
  { a with kind := k, raw := match k with | .fp32 => (x % 2 ^ 32 : Int) | _ => x % k.limit }

/-- The accumulator a MAC starts from: cleared by MACCLR; a saturated one keeps its limit (R95). -/
def startAcc (b : Bundle) (k : AccKind) (a : Acc) : Acc :=
  if b.macOp = 2 ∨ (a.raw = 0 ∧ a.sat = false ∧ a.counted = false) then { kind := k }
  else if a.sat ∨ a.kind = k then a
  else a.as k

/-- The results of activation row `i` of a MAC over the tiles of a gang: the 64 accumulators and how many saturated. -/
def macRow (ms : List Tile) (acc : Tab Acc) (b : Bundle) (i : Nat) : Tab Acc × Nat :=
  let k := (accKind b.wfmt b.wbs b.afmt b.abs).getD .fp32
  let row := b.maccr + i * b.mstep
  let n := chunkLen b.wfmt b.afmt b.wbs
  (List.range 64).foldl (fun st j =>
    let ps := ms.flatMap (fun m => columnPairs m b i j)
    let r := accColumn k b.wfmt b.afmt b.wbs (chunks n ps.length ps) (startAcc b k (tget st.1 (64 * row + j)), false)
    (tset st.1 (64 * row + j) r.1, st.2 + b2n r.2)) (acc, 0)

/-! ### Packing and the plausibility test (R148, R162, R179) -/

/-- The converted rows of a PACK. -/
def packConv (x : Tile) (b : Bundle) : ConvRow :=
  convList b.cfmt b.cbs b.cmode b.cexp
    (b.packRows.flatMap (fun r => (List.range 64).map (fun j => let a := tget x.acc (64 * r + j); accSrc a.kind a.raw a.sat)))

/-- The values of converted elements, block scale included. -/
def convValues (fmt : Nat) (bs : Bool) (c : ConvRow) : List NVal :=
  if bs then c.elems.zipIdx.map (fun e => scaledVal fmt (c.scales.getD (e.2 / 32) 0) e.1.x)
  else c.elems.map (fun e => elemVal fmt false e.x)

/-- One value lies below another; false where either is not a number. -/
def NVal.below (v w : NVal) : Bool :=
  match v, w with
  | .inf a, .inf b => a && !b
  | .inf a, .fin _ _ _ => a
  | .fin _ _ _, .inf b => !b
  | .fin a m e, .fin b k f =>
    match addVal (.fin a m e) (.fin (!b) k f) with
    | .fin n d _ => n && d != 0
    | _ => false
  | _, _ => false

/-- What a PACK's elements are under a bound (R179). -/
def packFindings (b : Bundle) (bd : Bound) (c : ConvRow) : PackOp :=
  let vs := convValues b.cfmt b.cbs c
  let lo := ({} : FloatFmt).value bd.lo.toNat
  let hi := ({} : FloatFmt).value bd.hi.toNat
  { bytes := c.bytes, elems := c.elems.map (fun e => BitVec.ofNat 8 e.x)
    nans := (vs.filter (fun v => decide (v = .nan))).length
    infs := (vs.filter (fun v => match v with | .inf _ => true | _ => false)).length
    sats := (c.elems.filter (·.sat)).length
    outs := (vs.filter (fun v => v.below lo || hi.below v)).length }

/-- A PACK fails the plausibility test of a bound. -/
def PackOp.implausible (k : PackOp) (bd : Bound) : Bool :=
  (k.nans != 0 && !bd.nanok) || (k.infs != 0 && !bd.infok) || (k.sats != 0 && !bd.satok) || decide (bd.maxout < k.outs)

/-- The first byte at which two byte strings differ. -/
def firstDiff : Nat → List Byte → List Byte → Option Nat
  | _, [], [] => none
  | i, a :: r, b :: q => if a = b then firstDiff (i + 1) r q else some i
  | i, _, _ => some i

end Sys2Proof.Machine
end

