-- ==== Sys2Proof/Machine/Work.lean ====
section
/-! DEFINITION. The ends of work: a codec job's result (R116), and a program whose run ends on any tile (R163, R183, R258). -/

namespace Sys2Proof.Machine

/-! ### Codec jobs (R116, Table 04.8) -/

/-- The 24-byte result of a codec job. -/
def Job.result (j : Job) : List Dword :=
  [dw j.inBytes, dw j.outBytes, dw j.nblocks, dw j.nfailed,
   dw (j.firsterr + 2 ^ 4 * b2n j.trunc + 2 ^ 5 * b2n j.didSize + 2 ^ 8 * min j.nchain 255 + 2 ^ 16 * min j.nraw 0xFFFF), dw j.aux]

/-- The unit key under which an engine holds contexts. -/
def engineKey (e : Nat) : Nat := unitId 0x08 e

/-- The status of a job that has run to its end (R132, R133). -/
def Job.doneStatus (j : Job) : Nat := if j.poisoned ≠ 0 then stPoisonPropagated else if j.skipped then stOkSkipped else stOk

/-- The key under which the context of a sized job is held while the job is on no engine (R128). -/
def jobKey (id : Nat) : Nat := 0x100000 + id

/-- The requests of a job's engine. -/
def Job.via (j : Job) : Via := viaEngine (j.engine.getD 0)

/-- The pending bytes of an encode context are discarded (R183). -/
def dropPending (n : Nat) (s : State) : State :=
  let x := tget s.ctxs n
  if x.encode then setCtx n x.unpend { s with cm := { s.cm with pendElems := tdel s.cm.pendElems n } } else s

/-- A job leaves its engine and its context; `drop`: what is pending there is discarded (R183). -/
def freeEngine (drop : Bool) (j : Job) (s : State) : State :=
  match j.engine with
  | none => s
  | some e =>
    let n := Desc.stream j.desc
    let on := decide ((tget s.engines e).job = some j.id)
    let s1 := if on then forgetWaits (engineKey e) { s with engines := tmod s.engines e (fun x => { x with job := none, slice := 0 }) } else s
    let u := if on then engineKey e else jobKey j.id
    if Desc.ordered j.desc && holdsCtx s1 u n then releaseCtx u n (if drop then dropPending n s1 else s1) else s1

/-- The result of a job goes to its ticket, or to the 24 bytes after a program's descriptor. -/
def deliverResult (j : Job) (st : Nat) (s : State) : State :=
  match j.ticket with
  | some t => post t st j.result s
  | none => (partWrite j.via j.part (j.descAddr + 48) (dwBytes j.result) [] s).s

/-- The contents of an ATOMIC job's destination are not defined any more (R128, R139): free values (assumption 150). -/
def spoilDst (j : Job) (s : State) : State :=
  let n := (j.desc.getD 8 0).toNat
  let a := Desc.dst j.desc
  match xlate s j.part true a n with
  | .ok ps => (ps.foldl (fun (u : State × Nat) p =>
      (writePiece (some j.part) p ((List.range p.len).map (fun i => Config.freeByte s.freeCtr (u.2 + i))) [] u.1, u.2 + p.len)) (drawFree s, 0)).1
  | .error _ => s

/-- A job ends: it is no longer queued or running, and its result is delivered (R116, R135). -/
def closeJob (drop : Bool) (j : Job) (st : Nat) (s : State) : State :=
  let s1 := freeEngine drop j { s with jobs := s.jobs.filter (fun x => x.id != j.id) }
  let s2 := if st = stCheckFailed then bump cntCheckFailed (engineKey (j.engine.getD 0)) s1 else s1
  let open_ : Bool := st == stSourceChanged || (st == stPartitionReset && decide (j.pass = .writing))
  deliverResult j st (poisonPropagated j.part j.poisoned (if open_ then spoilDst j s2 else s2))

/-! ### Multicast reports (R234, R258) -/

/-- The REASON codes of Table 07.6. -/
def reasonNotOwned : Nat := 1
/-- FENCED. -/
def reasonFenced : Nat := 2
/-- RANGE. -/
def reasonRange : Nat := 3
/-- TIMEOUT. -/
def reasonTimeout : Nat := 4
/-- ABORTED. -/
def reasonAborted : Nat := 5

/-- The report that a multicast's reasons by tile make. -/
def mcReport (mask : BitVec 64) (reason : Nat → Nat) : McReport :=
  let ts := maskTiles mask
  { setMask := mask, delivered := tilesMask (ts.filter (fun t => reason t == 0))
    reasons := ts.foldl (fun m t => tset m t (reason t)) [] }

/-- A multicast that is not delivered to its whole set: the counter and the partition's report (R251). -/
def partialMcast (part : Nat) (mask : BitVec 64) (reason : Nat → Nat) (s : State) : State :=
  bump cntMcastPartial part { s with parts := tmod s.parts part (fun p => { p with report := mcReport mask reason }) }

/-- An MC_ABORT to the tiles of a mask. -/
def abortPkt (m : McSend) (r q : Nat) (mask : BitVec 64) : NocPkt :=
  { typ := 0x12, vn := 2, src := r, sport := q, part := m.part, tag := m.tag, mask := mask }

/-- A tile's multicast is abandoned (R258): MC_ABORT to every tile that granted or has not answered, and the report. -/
def abandonSend (t : Nat) (s : State) : State :=
  match (tget s.tiles t).send with
  | none => s
  | some m =>
    let hit := (maskTiles m.mask).filter (fun i => tget m.grants i ≤ 1 && tget m.results i == 0)
    let reason := fun i =>
      if tget m.results i ≠ 0 then tget m.results i - 1 else if tget m.grants i ≤ 1 then reasonAborted else tget m.grants i - 1
    let s1 := onTile t (fun x => { x with send := none }) s
    let s2 := if hit = [] then s1 else sendPkt (abortPkt m (tileRouter t) 0 (tilesMask hit)) s1
    partialMcast m.part m.mask reason s2

/-! ### Multicasts at their receivers (R248, R249, R258) -/

/-- A receiver's MC_GRANT or MC_RESULT. -/
def mcAnswer (t typ reason : Nat) (dest dport part tag : Nat) (sys : Bool) : NocPkt :=
  { typ := typ, vn := 1, dest := dest, dport := dport, src := tileRouter t, sport := 0, part := part, sys := sys, tag := tag, reason := reason }

/-- A tile's checks of a reserve, in order: ownership, fence, range. -/
def reserveReason (s : State) (t : Nat) (k : NocPkt) : Nat :=
  if (tget s.tiles t).owner ≠ some k.part ∨ isShadow s t = true then reasonNotOwned
  else if (fenceOf s (quadOf t)).isSome then reasonFenced
  else if storeSize < k.addr + 16 * k.mtotal then reasonRange
  else 0

/-- A tile whose landing buffer is free answers a reserve. -/
def answerReserve (t : Nat) (k : NocPkt) (s : State) : State :=
  let r := reserveReason s t k
  let s1 := if r = 0 then
      onTile t (fun x => { x with landing := some { src := k.src, sport := k.sport, tag := k.tag, part := k.part, sys := k.sys, off := k.addr, total := k.mtotal } }) s
    else s
  sendPkt (mcAnswer t 0x0B r k.src k.sport k.part k.tag k.sys) s1

/-- Reserves that waited are answered while the buffer is free. -/
def nextLanding : Nat → Nat → State → State
  | 0, _, s => s
  | f + 1, t, s =>
    let x := tget s.tiles t
    match x.landing, x.landq with
    | none, k :: r => nextLanding f t (answerReserve t k (onTile t (fun y => { y with landq := r }) s))
    | _, _ => s

/-- A landing buffer becomes free. -/
def freeLanding (t : Nat) (s : State) : State :=
  nextLanding ((tget s.tiles t).landq.length + 1) t (onTile t (fun x => { x with landing := none }) s)

/-- The partition of a tile that has granted a multicast is reset: the landing is discarded and answered with ABORTED (R258). -/
def abortLanding (t : Nat) (s : State) : State :=
  match (tget s.tiles t).landing with
  | some l => freeLanding t (sendPkt (mcAnswer t 0x0C reasonAborted l.src l.sport l.part l.tag l.sys) s)
  | none => s

/-! ### Runs (R163, R183) -/

/-- The tiles of a program, and the shadows of a DUAL run. -/
def runTiles (p : Prog) : List Nat :=
  (maskTiles p.tilemask).flatMap (fun t => if p.mode = .dual then [t, t + 1] else [t])

/-- The keys of the units of a tile that hold contexts. -/
def tileKeys (t : Nat) : List Nat := [portKey (unitId 0x02 t) false, portKey (unitId 0x02 t) true, unitId 0x03 t]

/-- The streams whose contexts a unit holds. -/
def heldBy (s : State) (u : Nat) : List Nat := (s.cm.holder.filter (fun e => e.2 == some u)).map Prod.fst

/-- A tile's units give up their contexts; `drop` says whose pending bytes are lost. -/
def releaseAll (drop : Ctx → Bool) (t : Nat) (s : State) : State :=
  (tileKeys t).foldl (fun u k =>
    (heldBy u k).foldl (fun v n => releaseCtx k n (if drop (tget v.ctxs n) then dropPending n v else v)) (forgetWaits k u)) s

/-- What is in a tile's queues and units goes, and nothing issues any more. -/
def Tile.halt (x : Tile) : Tile :=
  { x with running := false, mq := [], eq := [], maq := [], pq := [], mv := none, exW := none, exA := none, mc := none, pk := none
           frees := [], idle := none, goal := none, cpTaken := false, lastFail := none, lastInj := none, failing := none, due := none
           late := none, sent := [], replays := 0, ctries := 0, packLens := [], partials := [] }

/-- A tile that halts keeps for this cycle what it was doing (R452). -/
def Tile.haltAt (now : Nat) (x : Tile) : Tile :=
  { x.halt with late := some { time := now, maq := x.maq, pq := x.pq, exW := x.exW, exA := x.exA, pk := x.pk, replays := x.replays } }

/-- What a tile was doing when its run ended in the present cycle. -/
def lateOf (s : State) (t : Nat) : Option Late := (tget s.tiles t).late.filter (fun l => l.time == s.timebase)

/-- Requests of a tile's MOVE unit. -/
def Purpose.ofMove (t : Nat) : Purpose → Bool
  | .moveRead u _ => u == t
  | .moveWrite u => u == t
  | .mcRead u _ _ => u == t
  | _ => false

/-- Requests of a tile's MOVE unit and sequencer. -/
def Purpose.ofTile (t : Nat) : Purpose → Bool
  | .signal u _ => u == t
  | w => w.ofMove t

/-- What an ended COPY still has to read and write lands (R183: blocks in flight are written whole); its signals go, and nobody awaits
their answers. -/
def Purpose.tail (t : Nat) : Purpose → Purpose
  | .moveRead u c => if u = t then .tailRead u c else .moveRead u c
  | .moveWrite u => if u = t then .tailWrite u else .moveWrite u
  | .signal u i => if u = t then .system else .signal u i
  | w => w

/-- A tile of a run stops (R183); under a reset of its partition nothing more of it is sent or awaited (R225). -/
def stopTile (reset : Bool) (drop : Ctx → Bool) (t : Nat) (s : State) : State :=
  let s1 := onTile t (Tile.haltAt s.timebase) (releaseAll drop t (abandonSend t s))
  orphanReqs (Purpose.ofTile t) (if reset then s1 else repurpose (Purpose.tail t) s1)

/-- Jobs that a program has issued. -/
def jobsOfProg (s : State) (k : Nat) : List Job :=
  s.jobs.filter (fun j => match j.prog with | some p => p.1 == k | none => false)

/-- The order of statuses that one tile meets in one cycle (R452). -/
def RunEnd.rank (e : RunEnd) : Nat :=
  if e.status = stPoisonConsumed then 0 else if e.status = stCheckFailed then 1 else if e.status = stOutputImplausible then 2 else 3

/-- An ending event that a tile meets in the cycle of another prevails over it: the lower tile, then the order of R452 (R187). -/
def RunEnd.replaces (e old : RunEnd) : Bool :=
  e.tvalid && old.tvalid && e.at_ == old.at_ && (decide (e.tile < old.tile) || (e.tile == old.tile && decide (e.rank < old.rank)))

/-- An ending status stops a run on every tile (R183): the first one stands, but for another of the same cycle that prevails (R187,
R452). -/
def endRun (k : Nat) (e : RunEnd) (s : State) : State :=
  let p := tget s.progs k
  let e1 := { e with at_ := s.timebase }
  if !p.running then s
  else match p.ending with
  | some old => if e1.replaces old then { s with progs := tset s.progs k { p with ending := some e1 } } else s
  | none =>
    let s1 := { s with progs := tset s.progs k { p with ending := some e1 } }
    let s2 := (runTiles p).foldl (fun u t => stopTile (e.status == stPartitionReset) (fun _ => true) t u) s1
    (jobsOfProg s2 k).foldl (fun u j => closeJob true j e.status u) s2

/-- The slots of a bundle in a program's result (Table 05.14). -/
def slotCtrl : Nat := 1
/-- SYNC. -/
def slotSync : Nat := 2
/-- MOVE. -/
def slotMove : Nat := 3
/-- EXPAND. -/
def slotExpand : Nat := 4
/-- MAC. -/
def slotMac : Nat := 5
/-- PACK. -/
def slotPack : Nat := 6

/-- A tile ends its program with an event. -/
def endTileBy (t : Nat) (e : RunEnd) (s : State) : State :=
  match (tget s.tiles t).prog with
  | some k => endRun k { e with tile := t, tvalid := true } s
  | none => s

/-- A tile ends its program with a status, naming the tile, the slot and the bundle. -/
def endTile (t st slotk bundle : Nat) (err : Nat := 0) (s : State) : State :=
  endTileBy t { status := st, err := err, slotk := slotk, bundle := bundle } s

/-- A unit of a tile ends its program's job with poison or a CRC-32C that failed twice: the job's end counts there (Table 12.2). -/
def endTileAt (t unit st slotk bundle : Nat) (err : Nat := 0) (s : State) : State :=
  endTileBy t { status := st, err := err, slotk := slotk, bundle := bundle, unit := unit } s

/-- The partition of a tile's program. -/
def tilePart (s : State) (t : Nat) : Nat := (progOf s t).part

/-- A tile's operation fails a check of Table 01.6. -/
def faultTile (t st slotk bundle : Nat) (s : State) : State :=
  endTile t st slotk bundle 0 (countFault (tilePart s t) st s)

/-- A unit of a tile has read an uncorrectable word of the tile's own memories: its job dies of poison (Table 12.8).  These words have
no device address, so the POISON record's is open (assumption 3). -/
def arrayDies (t unit slotk bundle : Nat) (s : State) : State :=
  endTileAt t unit stPoisonConsumed slotk bundle 0
    (poisonMet (tilePart s t) unit (Config.freeValue s.freeCtr).toNat bundle (drawFree s))

/-- A partition's runs end (R184). -/
def endRuns (st part : Nat) (s : State) : State :=
  ((s.progs.filter (fun e => e.2.running && e.2.part == part)).map Prod.fst).foldl (fun u k => endRun k { status := st } u) s

/-- A partition's codec jobs end, the queued ones too (R135). -/
def endJobs (st part : Nat) (s : State) : State :=
  (s.jobs.filter (fun j => j.part == part)).foldl (fun u j => closeJob false j st u) s

/-! ### Tokens (R151, R185) -/

/-- Tokens arrive at a tile's counter; past 65,535 the tile's job ends. -/
def addTokens (t c n : Nat) (s : State) : State :=
  let x := tget s.tiles t
  if tget x.c c + n ≤ 65535 then onTile t (fun x => { x with c := tset x.c c (tget x.c c + n) }) s
  else endTileBy t { status := stTokenOverflow, bundle := x.pc, counter := some c } s

/-! ### Static slots under their users (R75, R137) -/

/-- A unit holds the context that its block in hand needs, if it needs one. -/
def hasBlock (s : State) (u : Nat) (n : Option Nat) : Bool := match n with | some k => holdsCtx s u k | none => true

/-- The stream of an ordered EXPAND. -/
def expStream (x : Tile) (b : Bundle) : Option Nat := if b.esen then some (x.streams.getD b.esidx (0, 0)).1 else none

/-- An expander's port keeps the slot for the block that it is decoding. -/
def ExpOp.keep (s : State) (t slot : Nat) (act : Bool) (e : ExpOp) : ExpOp :=
  if e.refetch.isEmpty && hasBlock s (portKey (unitId 0x02 t) act) (expStream (tget s.tiles t) e.op.b)
  then { e with old := e.old.note s (tilePart s t) slot } else e

/-- An engine keeps the slot for the block that it is working on. -/
def Job.keep (s : State) (slot : Nat) (j : Job) : Job :=
  match j.engine with
  | some e =>
    if decide ((tget s.engines e).job = some j.id) && hasBlock s (engineKey e) (if Desc.ordered j.desc then some (Desc.stream j.desc) else none)
    then { j with old := j.old.note s j.part slot } else j
  | none => j

/-- A slot changes: units that have taken a block up keep what it held for that block (R75, R119, R137). -/
def setSlot (slot : Nat) (v : StaticSlot) (s : State) : State :=
  { s with
    tiles := tmap (fun t (x : Tile) => { x with exW := x.exW.map (ExpOp.keep s t slot false), exA := x.exA.map (ExpOp.keep s t slot true) }) s.tiles
    jobs := s.jobs.map (Job.keep s slot)
    sslots := tset s.sslots slot v }

end Sys2Proof.Machine
end

