-- ==== Sys2Proof/Machine/PelocCore.lean ====
section
/-! DEFINITION. A Peloc Link port: transactions as bytes, sequencing, replay and credits, outbound requests and their answers, and a
port that goes down (R263 to R276, R284 to R291, R301, R302; chapter 08). -/

namespace Sys2Proof.Machine

/-- Change a port. -/
def onPel (p : Nat) (f : Peloc → Peloc) (s : State) : State := { s with pel := tmod s.pel p f }

/-- The unit identifier of a port. -/
def pelUnit (p : Nat) : Nat := unitId 0x0B p

/-- The partitions that own a channel of a port. -/
def channelOwners (s : State) (p : Nat) : List Nat :=
  ((s.chans.filter (fun e => e.2.valid && e.1 / 16 == p)).map (·.2.owner)).eraseDups

/-- ATTN_LINK_CHANGE enters the views of the partitions that own a channel of the port (R276, Table 09.6). -/
def linkChange (p : Nat) (s : State) : State := raise attnLinkChange (.parts (channelOwners s p)) s

/-! ### Transactions (Tables 08.6 and 08.7) -/

/-- RD. -/
def ttRd : Nat := 0x01
/-- WR. -/
def ttWr : Nat := 0x02
/-- TOKEN. -/
def ttToken : Nat := 0x03
/-- BLOCK_PUSH. -/
def ttPush : Nat := 0x04
/-- RD_DATA. -/
def ttRdData : Nat := 0x08
/-- ACK. -/
def ttAck : Nat := 0x09
/-- NACK. -/
def ttNack : Nat := 0x0A
/-- LMC_RESERVE. -/
def ttReserve : Nat := 0x10
/-- LMC_DATA. -/
def ttLmcData : Nat := 0x11
/-- LMC_ABORT. -/
def ttAbort : Nat := 0x12
/-- LMC_GRANT. -/
def ttGrant : Nat := 0x18
/-- LMC_RESULT. -/
def ttResult : Nat := 0x19

/-- The types of link multicast. -/
def isLmc (t : Nat) : Bool := t == 0x10 || t == 0x11 || t == 0x12 || t == 0x18 || t == 0x19

/-- The virtual channel of a type; none for a reserved one. -/
def vcOf (t : Nat) : Option Nat :=
  if t = 0x01 ∨ t = 0x03 then some 0 else if t = 0x02 ∨ t = 0x04 then some 1
  else if t = 0x08 ∨ t = 0x09 ∨ t = 0x0A ∨ t = 0x18 ∨ t = 0x19 then some 2
  else if t = 0x10 ∨ t = 0x11 ∨ t = 0x12 then some 3 else none

/-- A number with the bits of a list set. -/
def bitSum (ks : List Nat) : Nat := (ks.map (2 ^ ·)).foldl (· ||| ·) 0

/-- A transaction's 32-byte header. -/
def PelTx.header (x : PelTx) : List Dword :=
  let m := bitSum x.pmask
  [dw (x.ttype + 2 ^ 8 * x.lch + 2 ^ 16 * x.tag), dw (x.len + 2 ^ 16 * x.status), dw (if isLmc x.ttype then x.nmask else x.addr),
   dw ((if isLmc x.ttype then 0 else x.addr / 2 ^ 32 % 2 ^ 16) + 2 ^ 16 * x.rtile + 2 ^ 22 * x.rcnt +
     2 ^ 26 * (if x.ttype = ttLmcData then b2n x.slast else x.rval)),
   dw m, dw (m / 2 ^ 32), dw (m / 2 ^ 64 % 2 + 2 * x.reason), dw x.hint]

/-- A transaction as bytes. -/
def PelTx.bytes (x : PelTx) : List Byte := dwBytes x.header ++ x.data

/-- The transaction that bytes spell; `rsvd` says that a reserved type or a reserved bit is set. -/
def PelTx.parse (bs : List Byte) : PelTx :=
  let d := bytesDw (bs.take 32)
  let w := fun i => d.getD i 0
  let t := bits (w 0) 4 0
  let len := bits (w 1) 8 0
  let m := (w 4).toNat + 2 ^ 32 * (w 5).toNat + 2 ^ 64 * bits (w 6) 0 0
  { ttype := t, lch := bits (w 0) 11 8, tag := bits (w 0) 24 16, len := len, status := bits (w 1) 31 16
    addr := if isLmc t then 0 else (w 2).toNat + 2 ^ 32 * bits (w 3) 15 0
    nmask := if isLmc t then (w 2).toNat else 0
    rtile := bits (w 3) 21 16, rcnt := bits (w 3) 25 22
    rval := if t = ttLmcData then 0 else bits (w 3) 28 26, slast := t == ttLmcData && bit (w 3) 26
    pmask := (List.range 65).filter (fun i => m.testBit i), reason := bits (w 6) 4 1, hint := bits (w 7) 15 0
    rsvd := (vcOf t).isNone || bits (w 0) 7 5 != 0 || bits (w 0) 15 12 != 0 || bits (w 0) 31 25 != 0 || bits (w 1) 15 9 != 0 ||
      bits (w 3) 31 29 != 0 || bits (w 6) 31 5 != 0 || bits (w 7) 31 16 != 0
    data := if t = ttRd then [] else (bs.drop 32).take (16 * len) }

/-- 64-byte link sectors that hold poisoned granules, and the granules that marked link sectors cover (Table 08.16). -/
def toLink (g : List Nat) : List Nat := (g.map (· / 4)).eraseDups
/-- Granules of marked link sectors. -/
def ofLink (ms : List Nat) (n : Nat) : List Nat := (ms.flatMap (fun k => [4 * k, 4 * k + 1, 4 * k + 2, 4 * k + 3])).filter (· < n)

/-! ### Sending flits (R269, R284, R287, R288) -/

/-- Flits that `n` bytes of a transaction occupy. -/
def flitsFor (n : Nat) : Nat := (n + 243) / 244

/-- The 244-byte bodies of a transaction's flits. -/
def flitBodies (bs : List Byte) : List (List Byte) :=
  (chunks 244 bs.length bs).map (fun b => b ++ List.replicate (244 - b.length) 0)

/-- Receive buffer of a virtual channel, in flits (R287). -/
def ownBuf (vc : Nat) : Nat := match vc with | 0 => 64 | 1 => 512 | 2 => 512 | _ => 192

/-- The peer's receive buffer, from its HELLO (Table 08.8). -/
def Peloc.peerBuf (x : Peloc) (vc : Nat) : Nat := leNat ((x.peer.drop (9 + 2 * vc)).take 2)

/-- Flits that the peer's buffer has room for. -/
def Peloc.room (x : Peloc) (vc : Nat) : Nat :=
  x.peerBuf vc - (tget x.txUsed vc + 4096 - tget x.txCredit vc) % 4096

/-- A transaction may start: credits and replay room for all its flits. -/
def Peloc.canStart (x : Peloc) (t : PelTx) : Bool :=
  let n := flitsFor t.bytes.length
  decide (n ≤ x.room ((vcOf t.ttype).getD 0)) && decide (x.replay.length + n ≤ 512)

/-- A flit as it leaves: with ACK and one virtual channel's credit total, rotating (R284). -/
def Peloc.stamp (x : Peloc) (f : Flit) : Flit :=
  { f with ack := x.rxSeq, crvc := x.crTurn, crtot := tget x.rxFreed x.crTurn % 4096 }

/-- A flit goes out on the wire; an injected fault strikes the next DATA flit (Table 12.7). -/
def wireFlit (p : Nat) (f : Flit) (s : State) : State :=
  let hit := f.kind == 1 && armed s (pelUnit p) 0xA
  onPel p (fun x => { x with
      wire := x.wire ++ [(flitBytes (x.stamp f), hit)], crTurn := (x.crTurn + 1) % 4, ackSent := x.rxSeq
      crSent := tset x.crSent x.crTurn (tget x.rxFreed x.crTurn % 4096) })
    (if hit then takeInject (pelUnit p) 0xA s else s)

/-- A new sequenced flit: the next SEQ, kept for replay (R284). -/
def sendFlit (p : Nat) (f : Flit) (s : State) : State :=
  let q := ((tget s.pel p).txSeq + 1) % 4096
  let g := { f with seq := q }
  wireFlit p g (onPel p (fun x => { x with txSeq := q, replay := x.replay ++ [g] }) s)

/-- A port sends flits and takes them: it is up, or its training has reached frame lock. -/
def listens (s : State) (p : Nat) : Bool :=
  let x := tget s.pel p
  decide (x.st = .active) || (decide (x.st = .training) && decide (4 ≤ x.step)) || (decide (x.st = .sleep) && x.waking)

/-- The ACK or a credit total has changed since a flit carried it. -/
def Peloc.owes (x : Peloc) : Bool := x.ackSent != x.rxSeq || [0, 1, 2, 3].any (fun v => tget x.crSent v != tget x.rxFreed v % 4096)

/-- An IDLE flit (Table 08.5). -/
def idleFlit : Flit := { kind := 0, body := emptyBody }

/-- At most so many IDLE flits, as long as they bring something new. -/
def sendIdles : Nat → Nat → State → State
  | 0, _, s => s
  | n + 1, p, s => if listens s p && (tget s.pel p).owes then sendIdles n p (wireFlit p idleFlit s) else s

/-- IDLE flits bring the peer the ACK and the credit totals that no other flit has carried; those that repeat what the peer has been told
are left out (R281, R284, assumption 165). -/
def catchUp (p : Nat) (s : State) : State := sendIdles 4 p s

/-- Send a control message's flit. -/
def sendCtrlFlit (p : Nat) (body : List Byte) (s : State) : State :=
  sendFlit p { kind := 3, body := body ++ List.replicate (244 - body.length) 0 } s

/-- Send a transaction's flits. -/
def sendTxFlits (p : Nat) (t : PelTx) (s : State) : State :=
  let vc := (vcOf t.ttype).getD 0
  let bs := flitBodies t.bytes
  let s1 := onPel p (fun x => { x with txUsed := tset x.txUsed vc ((tget x.txUsed vc + bs.length) % 4096) }) s
  bs.zipIdx.foldl (fun u b =>
    sendFlit p { kind := 1, vc := vc, head := b.2 == 0, tail := b.2 + 1 == bs.length, body := b.1 } u) s1

/-- The first transaction of a virtual channel that waits, if it may start. -/
def Peloc.nextOn (x : Peloc) (vc : Nat) : Option PelTx :=
  match x.outq.find? (fun t => vcOf t.ttype == some vc) with
  | some t => if x.canStart t then some t else none
  | none => none

/-- The transaction that starts next: VC2 before VC0, VC1 and VC3 in turn (R288). -/
def Peloc.nextTx (x : Peloc) : Option PelTx :=
  let r := match x.vcTurn with | 0 => [0, 1, 3] | 1 => [1, 3, 0] | _ => [3, 0, 1]
  (2 :: r).findSome? x.nextOn

/-- Send what waits, control messages first, while it may be sent. -/
def pumpPel : Nat → Nat → State → State
  | 0, _, s => s
  | f + 1, p, s =>
    let x := tget s.pel p
    match x.ctlq with
    | m :: r =>
      if x.replay.length < 512 then pumpPel f p (sendCtrlFlit p m (onPel p (fun y => { y with ctlq := r }) s)) else s
    | [] =>
      if x.st ≠ .active then s
      else match x.nextTx with
        | none => s
        | some t =>
          let turn := match vcOf t.ttype with | some 0 => 1 | some 1 => 2 | some 3 => 0 | _ => x.vcTurn
          pumpPel f p (sendTxFlits p t (onPel p (fun y => { y with outq := y.outq.erase t, vcTurn := turn }) s))

/-- Send whatever a port may send now. -/
def pump (p : Nat) (s : State) : State :=
  let x := tget s.pel p
  pumpPel (x.ctlq.length + x.outq.length + 1) p s

/-- A sleeping port wakes for an outbound transaction or the peer's signal (R299). -/
def wakePort (p : Nat) (s : State) : State :=
  let x := tget s.pel p
  if x.st = .sleep ∧ x.waking = false then
    bump cntPelocWake (pelUnit p) (onPel p (fun y => { y with waking := true, frameLock := false }) s)
  else s

/-- A port is up (R302): transactions can be sent, at once or after it has woken. -/
def portUp (s : State) (p : Nat) : Bool := decide ((tget s.pel p).st = .active) || decide ((tget s.pel p).st = .sleep)

/-- A transaction is to be sent on a port. -/
def sendTx (p : Nat) (t : PelTx) (s : State) : State :=
  if portUp s p then pump p (wakePort p (onPel p (fun x => { x with outq := x.outq ++ [t] }) s)) else s

/-- A link-control message is to be sent. -/
def sendCtrl (p : Nat) (body : List Byte) (s : State) : State := pump p (onPel p (fun x => { x with ctlq := x.ctlq ++ [body] }) s)

/-! ### Outbound transactions (R266, R289, R291, R302) -/

/-- A free tag of a port. -/
def Peloc.freeTag (x : Peloc) : Option Nat := (List.range 512).find? (fun t => !(tget x.out t).live)

/-- The lowest channel of a port that a partition may use outbound (R266). -/
def outChannel (s : State) (p part : Nat) : Option Nat :=
  (List.range 16).find? (fun l => let c := tget s.chans (16 * p + l); c.valid && c.owner == part && c.outen)

/-- A channel of a port is bound to a partition. -/
def boundChannel (s : State) (ch part : Nat) : Bool := let c := tget s.chans ch; c.valid && c.owner == part

/-- The base of a port's peer region. -/
def peerRegion (p : Nat) : Nat := peerBase + p * hostBase

/-- Every 32-byte sector of `n` bytes. -/
def allSectors (n : Nat) : List Nat := List.range ((n + 31) / 32)

/-- A read that could not be made: its bytes, all poisoned (R215, R291, R302). -/
def poisonedRead (k : NocPkt) : NocPkt := answerPkt k 0x08 0 0 (List.replicate (16 * k.len) 0) (allSectors (16 * k.len))

/-- How an on-chip request ends whose transaction fails: a read delivers poison, a write to a spilled page poisons the page
(R215), and any other returns a status (R289, R291, R302). -/
def failChip (k : NocPkt) (st hint : Nat) (s : State) : State :=
  let spill := k.typ != 0x03 && !k.sys && spilledFor s k.part k.addr
  let s1 := if k.typ = 0x03 then s else accessFailed k s
  if k.typ = 0x01 then sendPkt (poisonedRead k) s1
  else if spill then sendPkt (answerPkt k 0x09 0 0 [] []) (markPage k.addr s1)
  else sendPkt (answerPkt k 0x0A st hint [] []) s1

/-- The transaction that carries an on-chip request on channel `l`. -/
def outTx (p l tag : Nat) (k : NocPkt) : PelTx :=
  if k.typ = 0x03 then
    { ttype := ttToken, lch := l, tag := tag, rtile := k.addr / 256 % 64, rcnt := k.tcnt, rval := k.tval }
  else
    { ttype := if k.typ = 0x01 then ttRd else ttWr, lch := l, tag := tag, len := k.len, addr := k.addr - peerRegion p
      pmask := (k.pois.map (· / 2)).eraseDups, data := k.data }

/-- The channel on which an on-chip request leaves a port (R266). -/
def channelFor (s : State) (p : Nat) (k : NocPkt) : Option Nat :=
  if k.typ = 0x03 then
    (if k.addr % 256 / 16 = p ∧ boundChannel s (k.addr % 256) k.part then some (k.addr % 16) else none)
  else outChannel s p k.part

/-- An on-chip request becomes an outbound transaction, or waits for a tag. -/
def startOut (p l : Nat) (k : NocPkt) (s : State) : State :=
  match (tget s.pel p).freeTag with
  | none => onPel p (fun x => { x with held := x.held ++ [k] }) s
  | some t =>
    let tx := outTx p l t k
    sendTx p tx (onPel p (fun x => { x with out := tset x.out t { live := true, ttype := tx.ttype, why := .chip k, lch := l } }) s)

/-- An on-chip RD, WR or TOKEN reaches a port (R266, R289, R302). -/
def chipToPort (p : Nat) (k : NocPkt) (s : State) : State :=
  match channelFor s p k with
  | none => sendPkt (answerPkt k 0x0A stChannelNotOwned 0 [] []) s
  | some l => if portUp s p then startOut p l k s else failChip k stLinkDown 0 s

/-- Requests that waited for a tag go on. -/
def pumpHeld (p : Nat) (s : State) : State :=
  match (tget s.pel p).held with
  | [] => s
  | k :: r => if (tget s.pel p).freeTag.isSome then chipToPort p k (onPel p (fun x => { x with held := r }) s) else s

/-- An outbound transaction is outstanding no longer. -/
def dropOut (p t : Nat) (s : State) : State := pumpHeld p (onPel p (fun x => { x with out := tdel x.out t }) s)

/-- Change a LINK_PUSH. -/
def onPush (p id : Nat) (f : PushOp → PushOp) (s : State) : State :=
  onPel p (fun x => { x with pushes := x.pushes.map (fun q => if q.id = id then f q else q) }) s

/-- A pushed block has failed: the push sends nothing more (R293). -/
def PushOp.fail (q : PushOp) (index st : Nat) : PushOp :=
  if q.failed.isSome then { q with flying := q.flying - 1 } else { q with flying := q.flying - 1, failed := some index, status := st }

/-- An outbound transaction ends without an answer of its own (R291, R302). -/
def failOut (p t st hint : Nat) (s : State) : State :=
  let o := tget (tget s.pel p).out t
  let s1 := dropOut p t s
  match o.why with
  | .chip k => failChip k st hint s1
  | .push id i _ => onPush p id (fun q => q.fail i st) s1
  | .nobody => s1

/-! ### Receiving flits (R270, R284 to R286) -/

/-- TCLK cycles in a millisecond. -/
def msTicks : Nat := 100000

/-- A lane counts corrected symbols in windows of one millisecond. -/
def Lane.count (l : Lane) (ms n : Nat) : Lane :=
  if l.window = ms then { l with symbols := l.symbols + n }
  else { l with window := ms, before := if l.window + 1 = ms then l.symbols else 0, symbols := n }

/-- The corrected symbols of a lane in the last whole window. -/
def Lane.lastWindow (l : Lane) (ms : Nat) : Nat := if l.window = ms then l.before else if l.window + 1 = ms then l.symbols else 0

/-- A lane has had more corrected symbols in a window than a limit, in this one or the last (R298). -/
def Lane.exceeds (l : Lane) (ms limit : Nat) : Bool :=
  decide (limit < l.lastWindow ms) || (l.window == ms && decide (limit < l.symbols))

/-- Count what the FEC and the CRC found (R264, R270, R276). -/
def countFlit (p : Nat) (bad : Bool) (d : FecResult) (s : State) : State :=
  let u := pelUnit p
  let s1 := onPel p (fun x => { x with
    lanes := d.symbols.foldl (fun m e => tmod m e.1 (fun l => l.count (s.timebase / msTicks) e.2)) x.lanes }) s
  let s2 := bumpBy cntPelocFecUncorr u d.uncorrectable (bumpBy cntPelocFecCorr u d.corrected s1)
  if bad && !d.tainted then bump cntPelocCrc u s2 else s2

/-- Distance from one sequence number to a later one. -/
def seqDist (a b : Nat) : Nat := (b + 4096 - a) % 4096

/-- An ACK releases the flits it covers; progress restarts the count of replays (R286). -/
def Peloc.acked (x : Peloc) (a : Nat) : Peloc :=
  match x.replay with
  | [] => x
  | f :: _ =>
    let n := seqDist f.seq a + 1
    if n ≤ x.replay.length then { x with replay := x.replay.drop n, replays := 0 } else x

/-- What every good flit brings: ACK and a credit total. -/
def takeAck (p : Nat) (f : Flit) (s : State) : State :=
  pump p (onPel p (fun x => { x.acked f.ack with txCredit := tset x.txCredit f.crvc f.crtot }) s)

/-- Send NAK, once until the expected flit arrives (R285). -/
def sendNak (p : Nat) (s : State) : State :=
  if (tget s.pel p).nakSent then s
  else wireFlit p { kind := 2, body := emptyBody } (onPel p (fun x => { x with nakSent := true }) s)

/-- A sequenced flit is the expected one, is ahead (or bad), or is a duplicate. -/
inductive Arrival where
  | expected | ahead | duplicate
  deriving DecidableEq

/-- How a sequenced flit stands to the last one received in order. -/
def Peloc.arrival (x : Peloc) (q : Nat) : Arrival :=
  let d := seqDist x.rxSeq q
  if d = 1 then .expected else if 1 < d ∧ d < 2048 then .ahead else .duplicate

/-- Receive-buffer flits of a virtual channel are free again, and the peer hears of it (R287). -/
def freeFlits (p vc n : Nat) (s : State) : State :=
  catchUp p (onPel p (fun x => { x with rxFreed := tset x.rxFreed vc ((tget x.rxFreed vc + n) % 4096) }) s)

/-- The flits of a received transaction. -/
def PelTx.flits (t : PelTx) : Nat := flitsFor t.bytes.length

/-- The virtual channel of a transaction. -/
def PelTx.vc (t : PelTx) : Nat := (vcOf t.ttype).getD 0

/-- The front transaction of a type. -/
def frontTx (s : State) (p t : Nat) : Option PelTx :=
  match (tget s.pel p).rx.find? (fun x => vcOf x.ttype == vcOf t) with
  | some x => if x.ttype = t then some x else none
  | none => none

/-- A transaction is taken up; its flits stay in the receive buffer. -/
def pullTx (p : Nat) (t : PelTx) (s : State) : State := onPel p (fun x => { x with rx := x.rx.erase t }) s

/-- A transaction is taken out of the receive buffer. -/
def takeTx (p : Nat) (t : PelTx) (s : State) : State := freeFlits p t.vc t.flits (pullTx p t s)

/-- A refusal of an inbound transaction (R267, R272). -/
def refuseTx (p : Nat) (t : PelTx) (st hint : Nat) (s : State) : State :=
  sendTx p { ttype := ttNack, lch := t.lch, tag := t.tag, status := st, hint := hint } (bump cntPelocInboundRefused (pelUnit p) s)

/-- TCLK cycles that so many flits take on the wire (Table 08.14: 17/7 ns each on 8 lanes). -/
def flitTicks (width n : Nat) : Nat := ((if width = 0 then 17 else 34) * n + 69) / 70

/-- The replay that begins now: its first SEQ, and when it ends. -/
def Peloc.replayNow (x : Peloc) (now : Nat) : Option (Nat × Nat) :=
  x.replay.head?.map (fun f => (f.seq, now + flitTicks x.txWidth x.replay.length))

/-- Replay the unacknowledged flits (R286). -/
def replayAll (p : Nat) (s : State) : State :=
  (tget s.pel p).replay.foldl (fun u f => wireFlit p f u)
    (bump cntPelocReplay (pelUnit p) (onPel p (fun x => { x with replays := x.replays + 1, replaying := x.replayNow s.timebase }) s))

/-- A replay from a SEQ is under way (R303). -/
def replayingFrom (s : State) (p q : Nat) : Bool :=
  match (tget s.pel p).replaying with
  | some r => r.1 == q && decide (s.timebase < r.2)
  | none => false

/-! ### Link multicasts that a node gives up (Table 08.17) -/

/-- The groups whose multicast a port's buffer holds. -/
def freeLmc (p : Nat) (s : State) : State :=
  match (tget s.pel p).lmc with
  | none => s
  | some b => onPel p (fun x => { x with lmc := none }) { s with groups := tmod s.groups b.group (fun g => { g with run := none }) }

/-! ### Down (R276, R302) -/

/-- Down reasons (Table 08.11). -/
def downCommand : Nat := 1
/-- RETRY_LIMIT. -/
def downRetry : Nat := 2
/-- LANES. -/
def downLanes : Nat := 3
/-- PEER_NOTICE. -/
def downPeer : Nat := 4
/-- WAKE. -/
def downWake : Nat := 5
/-- TRAIN_FAILED. -/
def downTrain : Nat := 6
/-- NO_PEER. -/
def downNoPeer : Nat := 7
/-- FRAME_LOSS. -/
def downFrame : Nat := 8
/-- OFF. -/
def downOff : Nat := 9

/-- The record of a port that went down or degraded (Table 12.4). -/
def linkRec (p detail width : Nat) (part : Option Nat) (s : State) : State :=
  queueRec (mkRec s kindLink verInfo (pelUnit p) 0 0 part (detail + 2 ^ 4 * width)) s

/-- DOWN_NOTICE. -/
def downNoticeMsg (reason : Nat) : List Byte := [0x07, BitVec.ofNat 8 reason]

/-- What the link layer of a port held goes, with its inbound multicast unless its landing has begun (R308). -/
def Peloc.cleared (x : Peloc) : Peloc :=
  { x with
    step := 0, trainTk := none, frameLock := false, txSeq := 0, rxSeq := 0, replay := [], nakSent := false, replays := 0, replaying := none
    ackSent := 0, crSent := [], txCredit := [], txUsed := [], rxFreed := [], crTurn := 0, vcTurn := 0, asm := [], rx := [], ctrl := [], outq := [], ctlq := []
    held := [], sleepReq := false, waking := false, degRx := none, degTx := none, recalTks := [] }

/-- Every outstanding outbound transaction of a port ends with a status, and the requests that waited for a tag with them. -/
def failAllOut (p st : Nat) (s : State) : State :=
  let held := (tget s.pel p).held
  let s1 := onPel p (fun x => { x with held := [] }) s
  let s2 := (((tget s1.pel p).out.map Prod.fst)).foldl (fun u t => failOut p t st 0 u) s1
  held.foldl (fun u k => failChip k st 0 u) s2

/-- Pushes that still have blocks to send fail at their next block. -/
def failPushes (p st : Nat) (s : State) : State :=
  onPel p (fun x => { x with pushes := x.pushes.map (fun q =>
    if q.failed.isNone && q.status == 0 && q.left != 0 then { q with failed := some q.next, status := st } else q) }) s

/-- Inbound transactions under way complete on the chip, and their responses are discarded (R302). -/
def dropInbound (p : Nat) (s : State) : State :=
  repurpose (fun w => match w with | .pelocIn q _ _ => if q = p then .system else w | _ => w) (onPel p (fun x => { x with inb := [] }) s)

/-- The nodes behind a port are out of reach for the multicasts in flight (R308). -/
def loseNodes (p : Nat) (s : State) : State :=
  { s with groups := tmap (fun _ (g : Group) => { g with run := g.run.map (fun r => { r with lost := r.lost ||| tget r.behind p }) }) s.groups }

/-- A port enters DOWN (or, powered off, OFF) with a reason; `notice`: it sends DOWN_NOTICE first (R301, R302). -/
def portDown (p reason : Nat) (notice : Bool) (s : State) : State :=
  let x := tget s.pel p
  let s0 := if notice ∧ (x.st = .active ∨ x.st = .sleep ∨ (x.st = .training ∧ 4 ≤ x.step)) then sendCtrl p (downNoticeMsg reason) s else s
  let s1 := loseNodes p (dropInbound p (failPushes p stLinkDown (failAllOut p stLinkDown s0)))
  let s2 := x.recalTks.foldl (fun u t => post t stLinkDown [] u) s1
  let s3 := if (x.lmc.map (·.whole)).getD false then s2 else freeLmc p s2
  let s4 := onPel p (fun y => { y.cleared with st := if reason = downOff then .off else .down, reason := reason }) s3
  linkRec p reason 0 none (linkChange p (bump cntPelocDown (pelUnit p) s4))

/-- A training that fails: the ticket's final status, and the port is DOWN (R282, R283). -/
def trainFail (p st reason : Nat) (notice : Bool) (s : State) : State :=
  match (tget s.pel p).trainTk with
  | some t => post t st [] (portDown p reason notice s)
  | none => portDown p reason notice s

end Sys2Proof.Machine
end

