-- ==== Sys2Proof/Machine/BringEv.lean ====
section
/-! DEFINITION. Resets, clocks and bring-up in time (R430, R536 to R541, R544, R546 to R549, R556 to R558, R562, R563, R613, R615). -/

namespace Sys2Proof.Machine

/-! ### Reset (R538 to R540, R544, R558, R615) -/

/-- The ledger after a reset: a record whose write had begun is whole, invalid, or was never begun; which is open (R558, assumption 3). -/
def ledgerAfterReset (s : State) : Ledger :=
  match s.integ.queue with
  | [] => s.ledger
  | r :: _ =>
    match slotFor s r with
    | none => s.ledger
    | some k =>
      match freeBelow s 3 with
      | 0 => s.ledger
      | 1 => (putRec k r s).ledger
      | _ => (putRec k { r with crcOk := false } s).ledger

/-- The device held in reset: everything is cleared but the ledger; what has left the device stays sent.  A system reset leaves the
test access port's instruction. -/
def heldInReset (cold : Bool) (b : Bring) (s : State) : State :=
  { State.released (ledgerAfterReset s) 0 0 false with
    pending := s.pending, freeCtr := s.freeCtr + 1, hostOut := s.hostOut, cplOut := s.cplOut, bring := b
    tap := if cold then {} else { ir := s.tap.ir } }

/-- The pins and straps of a device held in reset. -/
def heldBring (s : State) : Bring :=
  { inReset := true, pwrok := s.bring.pwrok, sysrst := s.bring.sysrst, perst := s.bring.perst }

/-- A cold reset begins: PWROK counts as deasserted (R538, R613). -/
def coldReset (s : State) : State := heldInReset true { heldBring s with pwrok := false } s

/-- A system reset begins with the pins `b`; one that is already held goes on (R556). -/
def systemReset (b : Bring) (s : State) : State := if s.bring.inReset then { s with bring := b } else heldInReset false b s

/-- PWROK deasserted. -/
def pwrokDeassertEffect (s : State) : State := coldReset s
/-- PWROK_DEASSERT. -/
def execPwrokDeassert (s : State) : Host.Outcome State Fault Refusal := .next (pwrokDeassertEffect s)

/-- A supply that dips for at least 1 µs acts as PWROK deasserted (R613). -/
def supplyDipEffect (ns : Nat) (s : State) : State := if 1000 ≤ ns then coldReset s else s
/-- SUPPLY_DIP. -/
def execSupplyDip (nanoseconds : Nat) (s : State) : Host.Outcome State Fault Refusal := .next (supplyDipEffect nanoseconds s)

/-- A reset pin asserted for a time: below 1 µs it is ignored, from 10 µs it resets, and between the two it may do either (R615). -/
def resetPin (ns : Nat) (b : Bring) (s : State) : State :=
  if ns < 1000 then s
  else if 10000 ≤ ns then systemReset b s
  else if freeBelow s 2 = 0 then drawFree s
  else systemReset b (drawFree s)

/-- SYS_RST_N asserted. -/
def sysRstEffect (ns : Nat) (s : State) : State := resetPin ns { heldBring s with sysrst := true } s
/-- SYS_RST. -/
def execSysRst (nanoseconds : Nat) (s : State) : Host.Outcome State Fault Refusal := .next (sysRstEffect nanoseconds s)

/-- PERST_N asserted. -/
def perstEffect (ns : Nat) (s : State) : State := resetPin ns { heldBring s with perst := true } s
/-- PERST. -/
def execPerst (nanoseconds : Nat) (s : State) : Host.Outcome State Fault Refusal := .next (perstEffect nanoseconds s)

/-! ### Stages (R546 to R549) -/

/-- The stage that runs. -/
def runningStage (b : Bring) : Nat := if b.stage = 3 ∧ b.s3done = true then 4 else b.stage

/-- A stage runs: released, not failed, S4 not reached. -/
def stageRuns (s : State) : Bool := !s.bring.inReset && s.bring.failStage == 0 && decide (s.bring.stage < 4)

/-- A stage fails: no further stage starts (R547, R548). -/
def failStageNow (stage cause : Nat) (s : State) : State :=
  raise attnBringup .all { s with bring := { s.bring with failStage := stage, failCause := cause } }

/-- Reset release: the straps are sampled, the timebase restarts at 0, and S1 runs; a reserved STRAP_BIF fails it (R539, R540, R564). -/
def resetReleaseEffect (strap addr : Nat) (dbgoff : Bool) (s : State) : State :=
  if !s.bring.inReset then s
  else
    let t := { State.released s.ledger (strap % 4) (addr % 8) dbgoff with
      pending := s.pending, freeCtr := s.freeCtr, hostOut := s.hostOut, cplOut := s.cplOut, tap := s.tap }
    if 2 ≤ strap % 4 then failStageNow 1 0x04 t else t
/-- RESET_RELEASE. -/
def execResetRelease (strapBif addr : Nat) (dbgoff : Bool) (s : State) : Host.Outcome State Fault Refusal :=
  .next (resetReleaseEffect strapBif addr dbgoff s)

/-- The root PLL locks in S1 (R536, R537). -/
def rootPllLockEffect (s : State) : State :=
  if stageRuns s ∧ s.bring.stage = 1 then { s with bring := { s.bring with pll := true } } else s
/-- ROOT_PLL_LOCK. -/
def execRootPllLock (s : State) : Host.Outcome State Fault Refusal := .next (rootPllLockEffect s)

/-- The root PLL, or an HBM PHY PLL, which S3 enables, loses lock: a system reset (R536, R562). -/
def pllLockLossEffect (hbm : Option Nat) (s : State) : State :=
  let had := match hbm with
    | none => s.bring.pll
    | some k => decide (k < 8) && s.bring.pll && decide (3 ≤ s.bring.stage)
  if !s.bring.inReset && had then systemReset (heldBring s) s else s
/-- PLL_LOCK_LOSS. -/
def execPllLockLoss (hbm : Option Nat) (s : State) : Host.Outcome State Fault Refusal := .next (pllLockLossEffect hbm s)

/-- A serdes PLL loses lock: a training fails, an ACTIVE or sleeping port goes DOWN with FRAME_LOSS (R536, R563). -/
def serdesPllLockLossEffect (p : Nat) (s : State) : State :=
  match (tget s.pel p).st with
  | .training => trainFail p stLinkTrainFailed downTrain false s
  | .active | .sleep => portDown p downFrame false s
  | _ => s
/-- SERDES_PLL_LOCK_LOSS. -/
def execSerdesPllLockLoss (port : Nat) (s : State) : Host.Outcome State Fault Refusal := .next (serdesPllLockLossEffect port s)

/-- What S1's read-back of a loop's regulator leaves (R473): USAFE and the output at the voltage read, or SAFE-FAULT. -/
def startLoop (avs : List Bool) (n : Nat) (s : State) : State :=
  if avs.getD n true then
    let v : Int := (16 * (Config.bootMillivolts n % 2048) : Nat)
    onChan n 0 (fun c => { c with u := [v, 16384], uOld := [v, 16384], hold := [v, 16384] })
      (onLoop n (fun l => { l with coef := tset l.coef 0x00A v }) s)
  else enterFault n 3 0 (onLoop n (fun l => { l with noWrite := true }) (bump (cntKstAvsErr n) 0 s))

/-- S1 ends: the power-up is counted, and Kestrel runs (R430, R473, R546). -/
def endS1 (avs : List Bool) (s : State) : State :=
  let l := s.ledger
  let t := { s with ledger := { l with powerups := (l.powerups + 1) % 2 ^ 32 }, bring := { s.bring with stage := 2 } }
  [0, 1, 2, 3, 4].foldl (fun u n => startLoop avs n u) t

/-- The codes of the fenceable domains (R354): quadrants and Peloc ports. -/
def domainCodes : List Nat := [0, 1, 2, 3] ++ (List.range 16).map (0x10 + ·)

/-- S2 ends: every domain is powered and its fence lowered; Peloc ports are DOWN with reason NEVER (R544, R546). -/
def endS2 (s : State) : State :=
  { s with
    bring := { s.bring with stage := 3 }
    doms := domainCodes.map (fun d => (d, { on := true }))
    pel := (List.range 16).map (fun p => (p, { st := .down })) }

/-- S3 ends: all eight stacks are trained. -/
def endS3 (s : State) : State := { s with bring := { s.bring with s3done := true, trained := 0xFF } }

/-- The time of a stage's end in µs from reset release (R547). -/
def stampEnd (s : State) : State :=
  { s with bring := { s.bring with ends := s.bring.ends.set (runningStage s.bring - 1) (s.timebase / 100) } }

/-- S1, S2 or S3 ends, and the next begins (R546, R547); S1 needs the root PLL. -/
def stageEndEffect (avs : List Bool) (s : State) : State :=
  if !stageRuns s || !s.bring.pll || s.bring.s3done then s
  else
    let t := stampEnd s
    raise attnBringup .all (if s.bring.stage = 1 then endS1 avs t else if s.bring.stage = 2 then endS2 t else endS3 t)
/-- STAGE_END. -/
def execStageEnd (avs : List Bool) (s : State) : Host.Outcome State Fault Refusal := .next (stageEndEffect avs s)

/-- S4 is reached; a device with REPLACE pinned is RETIRED from now on (R430, R547); the two events come in the order of their bits
(R336). -/
def s4ReachedEffect (s : State) : State :=
  if !stageRuns s || !s.bring.s3done then s
  else
    let t := stampEnd s
    let u := { t with bring := { t.bring with stage := 4 } }
    raise attnBringup .all
      (if replacePinned u then beginCondition attnReplace { u with integ := { u.integ with dstate := .retired } } else u)
/-- S4_REACHED. -/
def execS4Reached (s : State) : Host.Outcome State Fault Refusal := .next (s4ReachedEffect s)

/-- The failure causes of a stage (Table 15.3). -/
def causesOf (stage : Nat) : List Nat :=
  0x3F :: (match stage with | 1 => [0x01, 0x02, 0x03, 0x04] | 2 => [0x10, 0x11, 0x12, 0x13] | 3 => [0x20, 0x21] | _ => [0x30])

/-- Causes that write no record (Table 15.3). -/
def unrecorded (cause : Nat) : Bool := [0x01, 0x02, 0x03, 0x04, 0x11].contains cause

/-- The unit that a cause names is one that Table 15.3 gives it. -/
def causeNames (cause unit : Nat) : Bool :=
  let cls := unit / 256
  unrecorded cause || (decide (unit % 256 < unitCount cls) &&
    (if cause = 0x12 then [0x01, 0x04, 0x06, 0x09].contains cls
     else if cause = 0x13 then cls == 0x0A
     else if cause = 0x20 ∨ cause = 0x21 then cls == 0x07
     else cause == 0x3F || cls == 0x0D))

/-- The verdict of a failed stage: PERMANENT on the third power-up in a row that it fails for the unit (Table 12.11). -/
def bringupVerdict (s : State) (stage unit : Nat) : Nat :=
  let at_ := fun k => s.ledger.recs.any (fun e =>
    e.2.crcOk && e.2.kind == kindBringup && e.2.unit == unit && e.2.d0 == stage && e.2.powerup + k == s.ledger.powerups)
  if at_ 1 && at_ 2 then verPermanent else verInfo

/-- The BRINGUP record of a failure, where one is written (R549). -/
def bringupRecord (stage cause unit : Nat) (s : State) : State :=
  if unrecorded cause then s else queueRec (mkRec s kindBringup (bringupVerdict s stage unit) unit 0 0 none stage cause) s

/-- A stage fails or passes its deadline (R547 to R549). -/
def stageDeadlineEffect (cause unit fails : Nat) (s : State) : State :=
  let k := runningStage s.bring
  if !stageRuns s || !(causesOf k).contains cause || !causeNames cause unit then s
  else
    let t := if k = 3 then { s with bring := { s.bring with failed := fails % 256, trained := 255 - fails % 256 } } else s
    bringupRecord k cause unit (failStageNow k cause t)
/-- STAGE_DEADLINE. -/
def execStageDeadline (cause unit : Nat) (stacksFailed : Nat) (s : State) : Host.Outcome State Fault Refusal :=
  .next (stageDeadlineEffect cause unit stacksFailed s)

end Sys2Proof.Machine
end

