-- ==== Sys2Proof/Machine/CmdBringup.lean ====
section
/-! DEFINITION. The commands of group 0x00xx: identification, status, attention and counters (R322, R323, R338, R359, R360). -/

namespace Sys2Proof.Machine

/-! ### NOP -/

/-- NOP checks nothing of its own. -/
def nopCheck (_ : State) (_ : Cmd) : Verdict := {}

/-- NOP (R359): no effect but its reply. -/
def nopEffect (c : Nat) (p : Packet) (s : State) : State := serve 0x0000 c p nopCheck (actDo fun _ t => t) s

/-- NOP. -/
def execNop (c : Nat) (p : Packet) (s : State) : Host.Outcome State Fault Refusal := .next (nopEffect c p s)

/-! ### IDENTIFY -/

/-- STAGE of Table 09.8: the stage that runs or was reached, 7 once one has failed (R547). -/
def stageCode (s : State) : Nat := if s.bring.failStage = 0 then s.bring.stage else 7

/-- The ledger has been read: S2 has begun (Table 15.6). -/
def ledgerRead (s : State) : Bool := decide (2 ≤ s.bring.stage)

/-- Used records of the ledger (R445: an invalid record counts). -/
def ledgerUsed (s : State) : Nat := s.ledger.recs.length

/-- The patch version in force, 0 for none. -/
def patchVersion (s : State) : Nat := match s.fw.patch with | some v => v.1 | none => 0

/-- IDENTIFY's result (Table 10.4). -/
def identifyResult (s : State) (x : Cmd) : List Dword :=
  [dw (0x1F6C + 2 ^ 16 * 0x0520),
   dw (0xB0 + 2 ^ 8 * b2n (ledgerRead s && replacePinned s) + 2 ^ 9 * b2n s.fw.unlocked + 2 ^ 10 * b2n (s.bring.strapBif == 1) +
     2 ^ 11 * x.port + 2 ^ 13 * stageCode s),
   dw Config.fuseSerial.toNat, dw (Config.fuseSerial.toNat / 2 ^ 32),
   dw (Config.romVersion.toNat + 2 ^ 16 * patchVersion s),
   dw (if ledgerRead s then ledgerUsed s else 0)]

/-- IDENTIFY (R359). -/
def identifyEffect (c : Nat) (p : Packet) (s : State) : State := answer 0x0001 c p identifyResult s

/-- IDENTIFY. -/
def execIdentify (c : Nat) (p : Packet) (s : State) : Host.Outcome State Fault Refusal := .next (identifyEffect c p s)

/-! ### GET_STATUS -/

/-- DSTATE of Table 09.8. -/
def dstateCode : DState → Nat
  | .running => 0
  | .draining => 1
  | .retired => 2

/-- A result slot belongs to the view that carries carrier `c` (R322, R337). -/
def slotInView (s : State) (c : Nat) (r : RSlot) : Bool :=
  r.held && r.port == portOf c &&
  (match boundPart s c with
   | some b => !r.device && r.part == b
   | none => isAdmin s (portOf c) || (!r.device && boundToPort s r.part (portOf c)))

/-- GET_STATUS's result (Table 09.8). -/
def getStatusResult (s : State) (x : Cmd) : List Dword :=
  let mine := s.slots.filter (fun e => slotInView s x.carrier e.2)
  let ready := (mine.filter (fun e => e.2.final.isSome)).length
  let wait := (mine.filter (fun e => e.2.final.isNone)).length
  [dw (tget s.ports x.port).eseq,
   dw (stageCode s + 2 ^ 3 * dstateCode s.integ.dstate + 2 ^ 5 * b2n (isAdmin s x.port) + 2 ^ 6 * x.port),
   dw (ready + 2 ^ 12 * wait), dw s.timebase, dw (s.timebase / 2 ^ 32)]

/-- GET_STATUS (R322). -/
def getStatusEffect (c : Nat) (p : Packet) (s : State) : State := answer 0x0002 c p getStatusResult s

/-- GET_STATUS. -/
def execGetStatus (c : Nat) (p : Packet) (s : State) : Host.Outcome State Fault Refusal := .next (getStatusEffect c p s)

/-! ### GET_BRINGUP -/

/-- GET_BRINGUP's result (Table 10.4, R547). -/
def getBringupResult (s : State) (_ : Cmd) : List Dword :=
  let b := s.bring
  [dw (stageCode s + 2 ^ 3 * b2n (b.failStage != 0) + 2 ^ 4 * b.failStage + 2 ^ 8 * b.failCause),
   dw (b.ends.getD 0 0), dw (b.ends.getD 1 0), dw (b.ends.getD 2 0), dw (b.ends.getD 3 0),
   dw (b.trained + 2 ^ 8 * b.failed)]

/-- GET_BRINGUP (R547). -/
def getBringupEffect (c : Nat) (p : Packet) (s : State) : State := answer 0x0003 c p getBringupResult s

/-- GET_BRINGUP. -/
def execGetBringup (c : Nat) (p : Packet) (s : State) : Host.Outcome State Fault Refusal := .next (getBringupEffect c p s)

/-! ### CLEAR_ATTN -/

/-- CLEAR_ATTN's check: SNAP is not later than the port's ESEQ (R338). -/
def clearAttnCheck (s : State) (x : Cmd) : Verdict :=
  firstOf [(later (x.par 5).toNat (tget s.ports x.port).eseq, stParamRange)]

/-- A bit of a view that a CLEAR_ATTN with MASK and SNAP clears (R338). -/
def clearable (s : State) (mask snap b : Nat) (a : AttnBit) : Bool :=
  mask.testBit b && !condHolds s b && !later a.last snap

/-- A view after CLEAR_ATTN. -/
def View.clear (s : State) (v : View) (mask snap : Nat) : View :=
  { v with bits := tmap (fun b (a : AttnBit) => if clearable s mask snap b a then { a with isSet := false } else a) v.bits }

/-- CLEAR_ATTN's effect on the state and its reply: STAYED and ESEQ (R323). -/
def clearAttnApply (x : Cmd) (s : State) : Reply × State :=
  let mask := x.fld 4 15 0
  let v := (viewOf s x.carrier).clear s mask (x.par 5).toNat
  ({ result := [dw (v.summary &&& mask), dw (tget s.ports x.port).eseq] }, setView x.carrier v s)

/-- CLEAR_ATTN (R338). -/
def clearAttnEffect (c : Nat) (p : Packet) (s : State) : State := serve 0x0010 c p clearAttnCheck (actFw clearAttnApply) s

/-- CLEAR_ATTN. -/
def execClearAttn (c : Nat) (p : Packet) (s : State) : Host.Outcome State Fault Refusal := .next (clearAttnEffect c p s)

/-! ### SET_THRESHOLD -/

/-- SET_THRESHOLD's check (Table 10.4, R355). -/
def setThresholdCheck (s : State) (x : Cmd) : Verdict := no (cntStatus s x (x.fld 5 15 0) (x.fld 5 31 16))

/-- SET_THRESHOLD's effect: the threshold, and ATTN_COUNTER at once where the counter already holds at least VALUE (R360). -/
def setThresholdApply (x : Cmd) (s : State) : State :=
  let en := bit (x.par 4) 8
  let t : Threshold := if en then { en := true, cid := x.fld 5 15 0, inst := x.fld 5 31 16, value := (x.par 6).toNat } else {}
  let v := viewOf s x.carrier
  let s1 := setView x.carrier { v with thr := tset v.thr (x.fld 4 4 0) t } s
  if en && decide (t.value ≤ counter s t.cid t.inst) then raiseView x.carrier s1 else s1

/-- SET_THRESHOLD (R360). -/
def setThresholdEffect (c : Nat) (p : Packet) (s : State) : State := serve 0x0011 c p setThresholdCheck (actDo setThresholdApply) s

/-- SET_THRESHOLD. -/
def execSetThreshold (c : Nat) (p : Packet) (s : State) : Host.Outcome State Fault Refusal := .next (setThresholdEffect c p s)

/-! ### READ_COUNTERS -/

/-- READ_COUNTERS's check: every instance exists and may be read (Table 10.4, R355). -/
def readCountersCheck (s : State) (x : Cmd) : Verdict :=
  no (cntStatuses s x (x.fld 4 15 0) (instances (x.fld 5 15 0) (x.fld 4 23 16 + 1)))

/-- The values read, all in one cycle (R360). -/
def readCountersValues (s : State) (x : Cmd) : List Dword :=
  (instances (x.fld 5 15 0) (x.fld 4 23 16 + 1)).map (fun i => dw (counter s (x.fld 4 15 0) i))

/-- READ_COUNTERS's action: up to six values inline, more by address (Table 10.4). -/
def readCountersAct (x : Cmd) (s : State) : State :=
  if x.fld 4 23 16 + 1 ≤ 6 then actRead readCountersValues x s
  else actOut 6 (fun t y => dwBytes (readCountersValues t y)) (fun _ y => [dw (y.fld 4 23 16 + 1)]) x s

/-- READ_COUNTERS (R359). -/
def readCountersEffect (c : Nat) (p : Packet) (s : State) : State := serve 0x0012 c p readCountersCheck readCountersAct s

/-- READ_COUNTERS. -/
def execReadCounters (c : Nat) (p : Packet) (s : State) : Host.Outcome State Fault Refusal := .next (readCountersEffect c p s)

/-! ### CLEAR_COUNTERS -/

/-- CLEAR_COUNTERS's check (Table 10.4, R355). -/
def clearCountersCheck (s : State) (x : Cmd) : Verdict :=
  let cid := x.fld 4 15 0
  let inst := x.fld 5 15 0
  let bound := (boundPart s x.carrier).isSome
  if cid = 0xFFFF then
    if inst = 0xFFFF then firstOf [(bound, stPrivPartition)]
    else firstOf [(!someCounterHas s inst, stParamRange), (bound && decide (inst < 64) && !mayActFor s x inst, stPrivPartition)]
  else if inst = 0xFFFF then
    firstOf [((cntScope cid).isNone, stParamRange), (bound && decide (cntScope cid = some .part), stPrivPartition)]
  else no (cntStatus s x cid inst)

/-- CLEAR_COUNTERS's effect; the cleared counters' thresholds are armed again, since a rise from 0 passes them anew (R360). -/
def clearCountersApply (x : Cmd) (s : State) : State := clearCounters (x.fld 4 15 0) (x.fld 5 15 0) s

/-- CLEAR_COUNTERS (R359). -/
def clearCountersEffect (c : Nat) (p : Packet) (s : State) : State :=
  serve 0x0013 c p clearCountersCheck (actDo clearCountersApply) s

/-- CLEAR_COUNTERS. -/
def execClearCounters (c : Nat) (p : Packet) (s : State) : Host.Outcome State Fault Refusal := .next (clearCountersEffect c p s)

end Sys2Proof.Machine
end

