-- ==== Sys2Proof/Machine/CmdCodec.lean ====
section
/-! DEFINITION. Static slots, streams and codec jobs as commands: group 0x05xx (R114, R117, R118, R120, R134, R136, R366). -/

namespace Sys2Proof.Machine

/-! ### TABLE_LOAD and TABLE_RELEASE -/

/-- The slot that a TABLE_ command names. -/
def Cmd.slotNo (x : Cmd) : Nat := x.fld 4 7 0

/-- The slot image of a TABLE_LOAD. -/
def Cmd.image (x : Cmd) : List Byte := dwBytes ((x.block.drop 1).take 72)

/-- A partition does not own a slot that it names. -/
def slotForeign (s : State) (part k : Nat) : Bool :=
  match (tget s.sslots k).owner with
  | .part q => q != part
  | _ => false

/-- TABLE_LOAD's check (R66, R118). -/
def tableLoadCheck (s : State) (x : Cmd) : Verdict :=
  let glob := bit (x.par 4) 8
  let o := (tget s.sslots x.slotNo).owner
  firstOf [
    (glob && !isAdmin s x.port, stPrivAdmin),
    (if glob then o != .free && o != .global else slotForeign s x.part x.slotNo || o == .global, stSlotNotOwned),
    ((slotImage x.image).isNone, stTableInvalid)]

/-- The generation after a load: 1 to 255, 255 wrapping to 1 (R66). -/
def nextGen (g : Nat) : Nat := g % 255 + 1

/-- TABLE_LOAD's effect. -/
def tableLoadApply (x : Cmd) (s : State) : Reply × State :=
  let g := nextGen (tget s.sslots x.slotNo).gen
  let slot : StaticSlot :=
    { owner := if bit (x.par 4) 8 then .global else .part x.part, gen := g, lens := (slotImage x.image).getD [] }
  ({ result := [dw g] }, setSlot x.slotNo slot s)

/-- TABLE_LOAD (R118). -/
def tableLoadEffect (c : Nat) (p : Packet) (s : State) : State := serve 0x0501 c p tableLoadCheck (actFw tableLoadApply) s

/-- TABLE_LOAD. -/
def execTableLoad (c : Nat) (p : Packet) (s : State) : Host.Outcome State Fault Refusal := .next (tableLoadEffect c p s)

/-- TABLE_RELEASE's check (R118, Table 10.9). -/
def tableReleaseCheck (s : State) (x : Cmd) : Verdict :=
  firstOf [
    ((tget s.sslots x.slotNo).owner == .global && !isAdmin s x.port, stPrivAdmin),
    (slotForeign s x.part x.slotNo, stSlotNotOwned)]

/-- A slot becomes free and keeps its generation (R118). -/
def freeStatic (k : Nat) (s : State) : State := setSlot k { tget s.sslots k with owner := .free, lens := [] } s

/-- TABLE_RELEASE (R118). -/
def tableReleaseEffect (c : Nat) (p : Packet) (s : State) : State :=
  serve 0x0502 c p tableReleaseCheck (actDo fun x t => freeStatic x.slotNo t) s

/-- TABLE_RELEASE. -/
def execTableRelease (c : Nat) (p : Packet) (s : State) : Host.Outcome State Fault Refusal := .next (tableReleaseEffect c p s)

/-! ### What the STREAM_ commands share -/

/-- The stream that a STREAM_ command names. -/
def Cmd.stream (x : Cmd) : Nat := x.fld 4 15 0

/-- The first checks of every STREAM_ entry: the range, which counts, the context table, then DW4's reserved bits (R106, R366). -/
def streamCheck (s : State) (x : Cmd) : Verdict :=
  if !inStreams s x.part x.stream then { status := stStreamRange, counts := [(cntStreamRange, x.part)] }
  else firstOf [(!streamsOpen s, stCtxTableUnset), (x.fld 4 31 16 != 0, stParamReserved)]

/-- A context is held, or a unit waits for it (R117, R136). -/
def ctxBusy (s : State) (n : Nat) : Bool := (ctxOf s n).held || hasWaiters s n

/-! ### STREAM_CONFIG -/

/-- The context that a STREAM_CONFIG sets up, TGEN still to come (R117, Table 10.9).  DESIGN CHOICE: LASTERR, which R117 does not name
among the fields that are written or zeroed, is 0 (assumption 158). -/
def configCtx (x : Cmd) : Ctx :=
  let d5 := x.par 5
  { valid := true, encode := bit d5 1, ended := !bit d5 1, link := bit d5 5, pendok := bit d5 6, owner := x.part
    stream := x.stream, fmt := x.fld 6 3 0, bscale := bit (x.par 6) 4, xf := x.fld 6 9 5, tsel := x.fld 6 11 10
    tslot := x.fld 6 19 12, rstride := x.fld 7 11 0, blklen := x.fld 7 19 12, segstart := true, cursor := x.par64 8
    sbuf := x.par64 10, pcrc := if bit d5 1 then crcInit else 0 }

/-- Reserved bits and encodings of a STREAM_CONFIG. -/
def configReserved (x : Cmd) : Bool :=
  (x.par 5 &&& 0xFFFFFF9D) != 0 || x.fld 6 31 20 != 0 || x.fld 7 31 20 != 0 || x.fld 9 31 16 != 0 || x.fld 11 31 16 != 0 ||
  x.fld 6 3 0 == 0xF || x.fld 6 11 10 == 3

/-- A page of the range lies in a window of host or peer memory (R109). -/
def outsideDevice (s : State) (part a n : Nat) : Bool :=
  (runsOf pageSize (n / pageSize + 2) a n).any (fun r =>
    match windowAt s part (r.1 / pageSize) with
    | some w => decide (2 ≤ w.region)
    | none => false)

/-- STREAM_CONFIG's ranges (R52, R53, R109, Table 04.4). -/
def configRange (s : State) (x : Cmd) : Bool :=
  let k := configCtx x
  let buf := k.link || k.pendok
  !k.enc.ok || !k.enc.lenOk (16 * (k.blklen + 1)) || (k.encode && k.cursor % 16 != 0) ||
  (buf && (k.sbuf % 4096 != 0 || outsideDevice s x.part k.sbuf 20480))

/-- STREAM_CONFIG's windows (Table 10.9). -/
def configOutside (s : State) (x : Cmd) : Bool :=
  let k := configCtx x
  ((k.link || k.pendok) && !inWritable s x.part k.sbuf 20480) ||
  (k.encode && !windowOk s x.part true k.cursor (16 + 16 * (k.blklen + 1)))

/-- STREAM_CONFIG needs its slot loaded (R117). -/
def configNoTable (s : State) (x : Cmd) : Bool :=
  (configCtx x).tsel != 1 && (slotTable s x.part (configCtx x).tslot).isNone

/-- STREAM_CONFIG's checks, in the order of Table 10.9. -/
def streamConfigCheck (s : State) (x : Cmd) : Verdict :=
  (streamCheck s x).andThen (firstOf [(configReserved x, stParamReserved), (configRange s x, stParamRange),
    (configOutside s x, stWindowFault), (ctxBusy s x.stream, stStreamBusy), (configNoTable s x, stTableAbsent)])

/-- STREAM_CONFIG's effect (R117). -/
def streamConfigApply (x : Cmd) (s : State) : State :=
  let k := configCtx x
  let g := if k.tsel = 1 then 0 else ((slotTable s x.part k.tslot).map Prod.fst).getD 0
  let s1 := rewriteCtx x.stream { k with tgen := g } (fillCtx x.stream s)
  { s1 with cm := { s1.cm with configured := true, pendElems := tdel s1.cm.pendElems x.stream } }

/-- STREAM_CONFIG (R117). -/
def streamConfigEffect (c : Nat) (p : Packet) (s : State) : State := serve 0x0503 c p streamConfigCheck (actDo streamConfigApply) s

/-- STREAM_CONFIG. -/
def execStreamConfig (c : Nat) (p : Packet) (s : State) : Host.Outcome State Fault Refusal := .next (streamConfigEffect c p s)

/-! ### STREAM_RESET and STREAM_READ -/

/-- STREAM_RESET's checks. -/
def streamResetCheck (s : State) (x : Cmd) : Verdict :=
  (streamCheck s x).andThen (firstOf [(ctxBusy s x.stream, stStreamBusy)])

/-- A context returns to zero (R117). -/
def zeroCtx (n : Nat) (s : State) : State :=
  let s1 := rewriteCtx n {} (fillCtx n s)
  { s1 with cm := { s1.cm with pendElems := tdel s1.cm.pendElems n } }

/-- STREAM_RESET (R117). -/
def streamResetEffect (c : Nat) (p : Packet) (s : State) : State :=
  serve 0x0504 c p streamResetCheck (actDo fun x t => zeroCtx x.stream t) s

/-- STREAM_RESET. -/
def execStreamReset (c : Nat) (p : Packet) (s : State) : Host.Outcome State Fault Refusal := .next (streamResetEffect c p s)

/-- STREAM_READ's checks. -/
def streamReadCheck (s : State) (x : Cmd) : Verdict := streamCheck s x

/-- A command meets a poisoned context (Table 12.8). -/
def ctxPoisoned (x : Cmd) (n : Nat) (s : State) : State :=
  poisonConsumed x.part ctxUnit (s.cm.base.getD 0 + 64 * n) 0xFFFF s

/-- STREAM_READ's action: the context, read through the cache (R111, R113, R141); a poisoned one ends the command (Table 12.8). -/
def streamReadAct (x : Cmd) (s : State) : State :=
  let t := readCtx x.stream stOk none (fillCtx x.stream s)
  if (tget t.ctxs x.stream).pfill && xferStatus x 5 64 == 0 then finish x { status := stPoisonConsumed } (ctxPoisoned x x.stream t)
  else actOut 5 (fun u y => dwBytes (tget u.ctxs y.stream).dws) (fun _ _ => []) x t

/-- STREAM_READ (R113). -/
def streamReadEffect (c : Nat) (p : Packet) (s : State) : State := serve 0x0505 c p streamReadCheck streamReadAct s

/-- STREAM_READ. -/
def execStreamRead (c : Nat) (p : Packet) (s : State) : Host.Outcome State Fault Refusal := .next (streamReadEffect c p s)

/-! ### STREAM_FLUSH -/

/-- STREAM_FLUSH's checks: those of every STREAM_ entry, then R108 once the context is there. -/
def streamFlushCheck (s : State) (x : Cmd) : Verdict := streamCheck s x

/-- A flush queues behind the holder and runs at its release (R134). -/
def queueFlush (n ticket : Nat) (s : State) : State :=
  setCtx n { tget s.ctxs n with flushq := true } { s with cm := { s.cm with flushes := tmod s.cm.flushes n (· ++ [ticket]) } }

/-- A partition is being reset or destroyed. -/
def partEnding (s : State) (part : Nat) : Bool :=
  decide ((tget s.parts part).state = .resetting) || decide ((tget s.parts part).state = .destroying)

/-- STREAM_FLUSH's action (R108, R134, R408). -/
def streamFlushAct (x : Cmd) (s : State) : State :=
  let n := x.stream
  let t := readCtx n stOk none (fillCtx n s)
  let k := tget t.ctxs n
  let st := k.useStatus x.part true
  if st ≠ 0 then
    finish x { status := st }
      (if st = stPoisonConsumed then ctxPoisoned x n t else t)
  else if k.held || hasWaiters t n then
    pend x (fun tk u => if partEnding u x.part then post tk stPartitionReset [] u else queueFlush n tk u) t
  else
    let r := flushCtx n t
    finish x { status := r.1.status, result := r.1.result } r.2

/-- STREAM_FLUSH (R134). -/
def streamFlushEffect (c : Nat) (p : Packet) (s : State) : State := serve 0x0506 c p streamFlushCheck streamFlushAct s

/-- STREAM_FLUSH. -/
def execStreamFlush (c : Nat) (p : Packet) (s : State) : Host.Outcome State Fault Refusal := .next (streamFlushEffect c p s)

/-! ### CODEC_SUBMIT -/

/-- The descriptor in a CODEC_SUBMIT. -/
def Cmd.desc (x : Cmd) : Desc := (List.range 12).map (fun i => x.par (4 + i))

/-- CODEC_SUBMIT's checks. -/
def codecSubmitCheck (s : State) (x : Cmd) : Verdict :=
  (descCheck s x.part x.desc).andThen (firstOf [(codecFull s (codecWaiters s), stQueueFull)])

/-- CODEC_SUBMIT's work begins: the job is queued (R120). -/
def codecSubmitStart (x : Cmd) (ticket : Nat) (s : State) : State :=
  addJob { part := x.part, desc := x.desc, ticket := some ticket } s

/-- CODEC_SUBMIT (R120). -/
def codecSubmitEffect (c : Nat) (p : Packet) (s : State) : State :=
  serve 0x0500 c p codecSubmitCheck (fun x t => pend x (codecSubmitStart x) t) s

/-- CODEC_SUBMIT. -/
def execCodecSubmit (c : Nat) (p : Packet) (s : State) : Host.Outcome State Fault Refusal := .next (codecSubmitEffect c p s)

end Sys2Proof.Machine
end

