-- ==== Sys2Proof/Machine/CodecEv.lean ====
section
/-! DEFINITION. The codec engines and the stream context manager at work: slices, blocks, sizing passes, job ends, and the acquiring
and filling of contexts (R110 to R112, R115, R116, R121, R125 to R133; chapter 04). -/

namespace Sys2Proof.Machine

/-! ### A job in progress -/

/-- The job with a number. -/
def jobOf (s : State) (id : Nat) : Option Job := s.jobs.find? (fun j => j.id == id)

/-- Put a job back. -/
def putJob (j : Job) (s : State) : State := { s with jobs := s.jobs.map (fun x => if x.id == j.id then j else x) }

/-- The descriptor of a job. -/
def Job.d (j : Job) : Desc := j.desc

/-- The job encodes. -/
def Job.encodes (j : Job) : Bool := j.d.op == 0 || j.d.op == 2

/-- The job works on a copy of its context: in single mode and in a sizing pass (R128). -/
def Job.virtual (j : Job) : Bool := !j.d.ordered || decide (j.pass = .sizing)

/-- The encode context of a job as it stands. -/
def jobCtx (s : State) (j : Job) : Ctx := if j.virtual then j.saved else tget s.ctxs j.d.stream

/-- A single-mode job's context: the descriptor's encoding with the generation captured at its start, every block independent (R119,
R125). -/
def Job.ownCtx (j : Job) : Ctx :=
  let d := j.d
  { valid := true, encode := true, owner := j.part, fmt := d.enc.fmt, bscale := d.enc.bscale, xf := bits (d.w 1) 9 5
    tsel := d.tsel, tslot := d.tslot, tgen := j.tgen, rstride := d.enc.rstride, blklen := d.blklen, segstart := true }

/-- The end of a job at the present block. -/
def Job.stop (j : Job) (st : Nat) : Job := { j with ending := some st }

/-- The end of a job that something stopped. -/
def Job.bar (j : Job) (e : Stop) : Job := { j with ending := some e.st, fence := e.fence }

/-- The state of a job's output and source at the start of a pass. -/
def Job.rewind (j : Job) : Job :=
  { j with src := 0, srcLeft := j.d.srclen, out := j.d.dst, outEnd := j.d.dst + j.d.dstlen, chained := false, listed := 0
           inBytes := 0, outBytes := 0, nblocks := 0, index := 0, nfailed := 0, firsterr := 0, nraw := 0, elems := [], carry := []
           need := 0, hist := [], trunc := false, overflow := false }

/-! ### The source of a decoding job (R129) -/

/-- Read `n` bytes at a partition address with their marks. -/
def readMarked (via : Via) (part a n : Nat) (s : State) : Except Stop (List PByte × State) := readSpans via part [(a, n)] s

/-- The readable bytes of the block at an address, of which at most `room` may be read: the payload only where the header passes checks 1
to 8, so that no byte beyond it is asked for on the word of a header that has failed (R68). -/
def readBlock (j : Job) (di : DecIn) (a room : Nat) (s : State) : Except Stop (List PByte × State) :=
  match readMarked j.via j.part a (min 16 room) s with
  | .error e => .error e
  | .ok (h, s1) =>
    match checkFront di h with
    | none => .ok (h, s1)
    | some hd =>
      match readMarked j.via j.part (a + 16) (min (room - 16) hd.payLen) s1 with
      | .error e => .error e
      | .ok (p, s2) => .ok (h ++ p, s2)

/-- Where the next source block lies: its address, the bytes that may be read, and the job past the entries passed over. -/
structure Source where
  job : Job := {}
  at_ : Option (Nat × Nat) := none
  bad : Bool := false

/-- The next block entry of a source list: chain entries and skipped ones are passed over (R129).  DESIGN CHOICE: an ADDR that is not
granule-aligned is read where it points; no rule says what such an entry does (R43, assumption 151). -/
def nextEntry : Nat → Job → State → Except Stop (Source × State)
  | 0, j, s => .ok ({ job := j }, s)
  | f + 1, j, s =>
    if j.srcLeft = 0 then .ok ({ job := j }, s)
    else
      match readMarked j.via j.part (j.d.src + 16 * j.src) 16 s with
      | .error e => .error e
      | .ok (ps, s1) =>
        let w := bytesDw (ps.map Prod.fst)
        let j1 := { j with src := j.src + 1, srcLeft := j.srcLeft - 1 }
        if ps.any (·.2) then .ok ({ job := j, bad := true }, s1)
        else if bits (w.getD 2 0) 31 28 ≠ 0 ∨ bit (w.getD 2 0) 24 = true then nextEntry f j1 s1
        else .ok ({ job := j1, at_ := some ((w.getD 0 0).toNat + 2 ^ 32 * bits (w.getD 1 0) 15 0, 4112) }, s1)

/-- The next source block of a decoding job. -/
def nextSource (j : Job) (s : State) : Except Stop (Source × State) :=
  if j.d.srclist then nextEntry (j.srcLeft + 1) j s
  else .ok ({ job := j, at_ := if j.srcLeft = 0 then none else some (j.d.src + j.src, j.srcLeft) }, s)

/-- The job past a source block of `n` bytes. -/
def Job.passed (j : Job) (n : Nat) : Job :=
  if j.d.srclist then { j with inBytes := j.inBytes + n }
  else { j with inBytes := j.inBytes + n, src := j.src + n, srcLeft := j.srcLeft - n }

/-! ### Result lists and output space (R115, R127) -/

/-- Write an entry of the result list.  LISTTRUNC is set once LISTCAP is reached (R115); `over` says that an entry found no room. -/
def listEntry (j : Job) (e : List Dword) (s : State) : Except Stop (Job × State) :=
  if j.d.list = 0 then .ok (j, s)
  else if j.d.listcap ≤ j.listed then .ok ({ j with trunc := true, overflow := true }, s)
  else
    let g := partWrite j.via j.part (j.d.list + 16 * j.listed) (dwBytes e) [] s
    if g.st ≠ 0 then .error g.stop
    else .ok ({ j with listed := j.listed + 1, trunc := j.trunc || decide (j.d.listcap ≤ j.listed + 1) }, g.s)

/-- The job chains its output into buffers of a pool (R127). -/
def Job.chains (j : Job) : Bool := !j.d.atomic && j.d.op != 3

/-- A job that stops while it places output: the list that ran out is reported (R115, R127). -/
def Job.stopPlace (j : Job) (e : Stop) : Job := { j.bar e with trunc := j.trunc || e.st == stOutputFull }

/-- Under CHAIN, a list that could not take an entry ends the job (R127). -/
def Job.listStop (j : Job) : Job := if j.chains && j.overflow && j.ending.isNone then j.stop stOutputFull else j

/-- A block entry (Table 04.7). -/
def blockEntry (addr granules seq err : Nat) (raw flushed chained last skipped pois : Bool) (dcrc : Nat) : List Dword :=
  [dw addr, dw (addr / 2 ^ 32 % 2 ^ 16 + 2 ^ 16 * (granules - 1)),
   dw (seq + 2 ^ 16 * err + 2 ^ 20 * b2n raw + 2 ^ 21 * b2n flushed + 2 ^ 22 * b2n chained + 2 ^ 23 * b2n last +
     2 ^ 24 * b2n skipped + 2 ^ 25 * b2n pois), dw dcrc]

/-- A chain entry. -/
def chainEntry (addr handle : Nat) : List Dword := [dw addr, dw (addr / 2 ^ 32 % 2 ^ 16), dw (2 ^ 28), dw handle]

/-- Room for `n` bytes of output: in what is left, or, under CHAIN, in a further buffer (R127); or the ending status.
Under CHAIN a list that cannot take the entries of the block ends the job first. -/
def placeOut (j : Job) (n : Nat) (s : State) : Except Stop (Job × State) :=
  if j.out + n ≤ j.outEnd then (if j.chains && decide (j.d.listcap ≤ j.listed) then .error { st := stOutputFull } else .ok (j, s))
  else if j.d.atomic then .error { st := stSourceChanged }
  else if j.d.listcap < j.listed + 2 then .error { st := stOutputFull }
  else match allocBuf j.d.pool .job s with
    | none => .error { st := stPoolEmpty }
    | some (i, s1) =>
      let p := tget s1.pools j.d.pool
      let a := p.addr i
      let j1 := { j with out := a, outEnd := a + p.bufsize, chained := true, nchain := j.nchain + 1 }
      listEntry j1 (chainEntry a (mkHandle i (tget p.bufs i).gen)) (bump cntCodecChain (engineKey (j.engine.getD 0)) s1)

/-- Write output at its place. -/
def writeOut (j : Job) (data : List Byte) (s : State) : Except Stop (Job × State) :=
  let g := partWrite j.via j.part j.out data [] s
  if g.st ≠ 0 then .error g.stop else .ok ({ j with out := j.out + data.length, outBytes := j.outBytes + data.length }, g.s)

/-! ### Forming blocks (R125, R126, R134) -/

/-- The pending bytes that precede the source of an encoding job. -/
def jobPending (j : Job) (s : State) : Except Stop (List PByte × State) := readPending j.via (jobCtx s j) s

/-- The pending area of a job's context is empty from now on.  DESIGN CHOICE: it stays so where the block of those bytes cannot be formed
or placed, as R126 says of a refusal (assumption 152). -/
def clearPending (j : Job) (s : State) : Job × State :=
  let x1 := (jobCtx s j).unpend
  if j.virtual then ({ j with saved := x1 }, s) else (j, setCtx j.d.stream x1 s)

/-- The history that a job's encoder has (newest first). -/
def jobHist (j : Job) (s : State) : Except Stop (List Byte × State) :=
  if j.virtual && j.index != 0 then .ok (j.hist, s)
  else match readHist j.via (jobCtx s j) s with
    | .error e => .error e
    | .ok (h, s1) => .ok (h.map Prod.fst, s1)

/-- A job's context takes a block. -/
def jobCommit (j : Job) (b : Encoded) (pois : Bool) (hist : List Byte) (s : State) : Except Stop (Job × State) :=
  if j.virtual then
    let h := if j.saved.link then (b.coded.reverse ++ (if b.hdr.linked then hist else [])).take 16384 else []
    .ok ({ j with saved := j.saved.afterBlock b pois, hist := h }, s)
  else match commitEncode j.via j.d.stream b pois s with
    | .error e => .error e
    | .ok s1 => .ok (j, s1)

/-- Place, write, list and commit a formed block; a sizing pass only counts it. -/
def emitBlock (j : Job) (b : Encoded) (pois : Bool) (hist : List Byte) (s : State) : Except Stop (Job × State) :=
  if j.pass = .sizing then
    match jobCommit j b pois hist s with
    | .error e => .error e
    | .ok (j1, s1) => .ok ({ j1 with need := j.need + b.bytes.length, index := j.index + 1 }, s1)
  else match placeOut j b.bytes.length s with
    | .error e => .error e
    | .ok (j1, s1) =>
      match writeOut j1 b.bytes s1 with
      | .error e => .error e
      | .ok (j2, s2) =>
        match jobCommit j2 b pois hist s2 with
        | .error e => .error e
        | .ok (j3, s3) =>
          let h := b.hdr
          match listEntry j3 (blockEntry j1.out (b.bytes.length / 16) h.seq 0 h.raw h.flushed j3.chained h.last false pois h.dcrc) s3 with
          | .error e => .error e
          | .ok (j4, s4) =>
            .ok ({ j4 with nblocks := j4.nblocks + 1, index := j4.index + 1, nraw := j4.nraw + b2n h.raw
                           poisoned := j4.poisoned + b2n pois },
              if h.raw then bump cntCodecRaw (engineKey (j.engine.getD 0)) s4 else s4)

/-- Form one block of an encoding job from data, or end the job (R119, R126). -/
def jobForm (j : Job) (r : FormReq) (s : State) : Job × State :=
  match jobHist j s with
  | .error e => (j.bar e, countFault j.part e.st s)
  | .ok (h, s1) =>
    match formWith (slotUnder s1 j.part j.old (jobCtx s1 j).tslot) (jobCtx s1 j) h r with
    | .error e => (j.bar e, s1)
    | .ok (b, pois) =>
      if b.hdr.raw && j.d.nogain then
        ({ j with ending := some stNoGain, aux := j.index }, bump cntCodecNogain (engineKey (j.engine.getD 0)) s1)
      else match emitBlock j b pois h s1 with
        | .error e => (j.stopPlace e, countFault j.part e.st s1)
        | .ok x => x

/-- FLUSHEND is in force: set, or nothing can keep a tail (R134).  DESIGN CHOICE: Table 04.3 gives FLUSHEND and SETLAST for a compress; a
TRANSCODE, which forms blocks as a compress does, obeys both (R114, assumption 153). -/
def Job.flushes (j : Job) (x : Ctx) : Bool := j.d.flushend || !j.d.ordered || !x.pendok

/-- A job forms a further block after the present one when `left` bytes of its source, in blocks of `n`, are still to come. -/
def Job.goesOn (j : Job) (x : Ctx) (n left : Nat) : Bool := decide (n ≤ left) || (j.flushes x && flushTake x.enc left != 0)

/-- Keep what is left of an encoding job in the pending area: bytes, or the units of a TRANSCODE. -/
def jobKeep (j : Job) (units : Bool) (ps : List PByte) (s : State) : Except Stop State :=
  if units then setPendingUnits j.via j.d.stream ps s else setPending j.via j.d.stream ps s

/-- The tail of an encoding job, in bytes or in units: a flushed block, and what stays pending (R134). -/
def jobTail (j : Job) (units : Bool) (tail : List PByte) (s : State) : Job × State :=
  let x := jobCtx s j
  let k := if j.flushes x then flushTake x.enc tail.length else 0
  let data := if units then unitBytes x.enc (tail.take k) else tail.take k
  let st := clearPending j s
  let r := if k = 0 then st else jobForm st.1 { data := data, flushed := true, last := j.d.setlast } st.2
  if r.1.ending.isSome || r.1.virtual || !x.pendok then r
  else match jobKeep j units (tail.drop k) r.2 with
    | .error e => (r.1.bar e, countFault j.part e.st r.2)
    | .ok s2 => (r.1, s2)

/-- A job that has nothing left to do ends as its pass ends. -/
def Job.finishPass (j : Job) : Job :=
  if j.ending.isSome then j else if j.pass = .sizing then { j with pass := .sized } else j.stop j.doneStatus

/-- One block of a COMPRESS job (R125, R134). -/
def compressBlock (j : Job) (s : State) : Job × State :=
  let x := jobCtx s j
  let n := dataPerBlock x.enc x.blklen
  match jobPending j s with
  | .error e => (j.bar e, countFault j.part e.st s)
  | .ok (p, s1) =>
    let k := min (n - p.length) j.srcLeft
    match readMarked j.via j.part (j.d.src + j.src) k s1 with
    | .error e => (j.bar e, countFault j.part e.st s1)
    | .ok (q, s2) =>
      let j1 := j.passed k
      let data := p ++ q
      if data.length < n then
        let r := jobTail j1 false data s2
        (r.1.finishPass, r.2)
      else
        let st := clearPending j1 s2
        let r := jobForm st.1 { data := data, last := j.d.setlast && !j1.goesOn x n j1.srcLeft } st.2
        (if r.1.srcLeft = 0 then r.1.finishPass else r.1, r.2)

/-! ### Decoding blocks (R129 to R132) -/

/-- The stream under which a job decodes. -/
def Job.decStream (j : Job) : Option Nat := if j.d.ordered && j.d.op != 2 then some j.d.stream else none

/-- What a job's decoder holds. -/
def jobDecIn (j : Job) (s : State) : Except Stop (DecIn × State) :=
  let slots := slotsUnder s j.part j.old
  match j.decStream with
  | none => .ok ({ slots := slots }, s)
  | some n =>
    match readHist j.via (tget s.ctxs n) s with
    | .error e => .error e
    | .ok (h, s1) => .ok ((tget s1.ctxs n).decIn h slots, s1)

/-- The device address of a partition address, for a record. -/
def devAddr (s : State) (part a : Nat) : Nat :=
  match xlate s part false a 1 with
  | .ok (p :: _) => p.dev
  | _ => a

/-- The ending status of a decode error (Table 04.10). -/
def errStatus (err : Nat) : Nat :=
  if err = errCheck then stCheckFailed else if err = errPoison then stPoisonConsumed else stDecodeError

/-- A failed block may be skipped (R132): its header passed check 5, and the error is not TRUNCATED or POISON. -/
def canSkip (j : Job) (e : DecErr) : Bool := j.d.skip && e.hdr.isSome && e.code != errTrunc && e.code != errPoison

/-- The incident of a CRC-32C mismatch in an engine, judged on the next engine (Table 12.11). -/
def codecCheckRec (j : Job) (a st : Nat) (ver count : Nat) (s : State) : State :=
  let d := checkDetail (devAddr s j.part a) 0xFFFF
  judge (mkRec s kindCheck ver (engineKey (j.engine.getD 0)) st count (some j.part) d.1 d.2) j.injected s

/-- The list entry of a failed block; a sizing pass writes none (R128). -/
def listFail (j : Job) (e : List Dword) (s : State) : Except Stop (Job × State) := if j.pass = .sizing then .ok (j, s) else listEntry j e s

/-- The place of the first poisoned byte of a block, its start where no byte of it is. -/
def firstBad (bs : List PByte) : Nat := (bs.findIdx? (·.2)).getD 0

/-- A block at `a` has failed for good (R132); `bad` is how far into it the first poisoned byte lies. -/
def jobFail (j : Job) (a bad : Nat) (e : DecErr) (sound : Bool) (s : State) : Job × State :=
  let skip := canSkip j e
  let st := errStatus e.code
  let s0 := failDecode (engineKey (j.engine.getD 0)) j.decStream e.code s
  let s1 := if j.d.op == 2 && j.d.ordered then failContext j.d.stream e.code s0 else s0
  let s2 :=
    if e.code = errCheck then codecCheckRec j a (if skip then stOk else st) (if sound then verTransient else verData) 1 s1
    else if e.code = errPoison then poisonConsumed j.part (engineKey (j.engine.getD 0)) (devAddr s1 j.part (a + bad)) 0xFFFF s1
    else s1
  let h := e.hdr.getD {}
  let j1 := { j with nfailed := j.nfailed + 1, firsterr := if j.nfailed = 0 then e.code else j.firsterr
                     aux := if j.nfailed = 0 then j.index else j.aux, index := j.index + 1, reread := false, injected := false
                     skipped := j.skipped || skip }
  let r := listFail j1 (blockEntry a (h.orig + 1) h.seq e.code false h.flushed false h.last skip false h.dcrc) s2
  match r with
  | .error x => (j1.bar x, countFault j.part x.st s2)
  | .ok (j2, s3) => if skip then ((j2.passed (16 + h.payLen)).listStop, s3) else ({ j2.stop st with failed := e.code }, s3)

/-- The bytes that a decompress writes of a decoded block (R129). -/
def Job.output (j : Job) (d : Decoded) : List Byte := if j.d.padkeep then d.orig else d.data

/-- A TRANSCODE's destination takes elements of unscaled FP6. -/
def Desc.toSix (d : Desc) : Bool := !d.cbscale && fmtBits d.cfmt == 6

/-- Convert a decoded block's elements and add them to a TRANSCODE's units (R97, R100); the flag completes the last group.
DESIGN CHOICE: a group that the source leaves incomplete at its end is completed with zeros (assumption 154). -/
def convertBlock (j : Job) (vs : List NVal) (all : Bool) : ConvRow × List NVal :=
  let b := fmtBits j.d.cfmt
  let unit := if j.d.cbscale then 32 else if b % 8 = 0 ∨ b = 6 then 1 else 8 / b
  let whole := vs.length / unit * unit
  let k := if all then vs.length else whole
  let pad := if all && j.d.cbscale then (32 - vs.length % 32) % 32 else 0
  (convList j.d.cfmt j.d.cbscale j.d.cmode j.d.cexp
    ((vs.take k).map ConvSrc.val ++ List.replicate pad (.val (.fin false 0 0))), vs.drop k)

/-- Count a conversion's saturations and lost NaNs (R98). -/
def countConv (unit : Nat) (c : ConvRow) (s : State) : State :=
  let n := (c.elems.filter (·.sat)).length
  let m := (c.elems.filter (·.nan)).length
  bumpBy cntConvertNan unit m (bumpBy cntConvertSaturate unit n s)

/-- The converted units of a row. -/
def ConvRow.units (c : ConvRow) (six : Bool) : List Byte := if six then c.elems.map (fun e => BitVec.ofNat 8 e.x) else c.bytes

/-- Converted elements join a TRANSCODE's units. -/
def transFeed (j : Job) (vs : List NVal) (all : Bool) (s : State) : Job × State :=
  let c := convertBlock j (j.carry ++ vs) all
  ({ j with elems := j.elems ++ c.1.units j.d.toSix, carry := c.2 },
    if j.pass = .sizing then s else countConv (engineKey (j.engine.getD 0)) c.1 s)

/-- The source of a TRANSCODE has been converted to its end. -/
def Job.dry (j : Job) : Bool := j.srcLeft == 0 && j.carry.isEmpty

/-- Pending units of a job's context. -/
def Job.waiting (j : Job) (s : State) : Nat :=
  let x := jobCtx s j
  if x.enc.six then (match tget s.cm.pendElems j.d.stream with | 0 => 8 * x.pend / 6 | k => if x.pend = 0 then 0 else k) else x.pend

/-- A TRANSCODE has the units of a full block.  Under SETLAST it forms one only when it knows whether another follows. -/
def transDue (j : Job) (s : State) : Bool :=
  let x := jobCtx s j
  let n := unitsPerBlock x.enc x.blklen
  let have_ := j.waiting s + j.elems.length
  n != 0 && decide (n ≤ have_) && (!j.d.setlast || j.dry || decide (2 * n ≤ have_))

/-- A TRANSCODE forms one full block. -/
def transForm (j : Job) (s : State) : Job × State :=
  let x := jobCtx s j
  let n := unitsPerBlock x.enc x.blklen
  match jobPending j s with
  | .error e => (j.bar e, countFault j.part e.st s)
  | .ok (p, s1) =>
    let us := pendingUnits s1 j.d.stream x p
    let k := n - us.length
    let rest := j.elems.drop k
    let st := clearPending { j with elems := rest } s1
    let last := j.d.setlast && j.dry && !j.goesOn x n rest.length
    jobForm st.1 { data := unitBytes x.enc (us ++ (j.elems.take k).map (·, false)), last := last } st.2

/-- The tail of a TRANSCODE. -/
def transTail (j : Job) (s : State) : Job × State :=
  match jobPending j s with
  | .error e => (j.bar e, countFault j.part e.st s)
  | .ok (p, s1) =>
    let us := pendingUnits s1 j.d.stream (jobCtx s1 j) p ++ j.elems.map (·, false)
    if us = [] then (j, s1) else jobTail { j with elems := [] } true us s1

/-- The end of a TRANSCODE's source: the last elements; then the tail, when no full block is left to form. -/
def transEnd (j : Job) (s : State) : Job × State :=
  let r := transFeed j [] true s
  if transDue r.1 r.2 then transForm r.1 r.2
  else
    let q := transTail r.1 r.2
    (q.1.finishPass, q.2)

/-- A block has been decoded: it is committed, and its output written (R131).  DESIGN CHOICE: Table 04.7 gives LEN for a compress and a
decompress; the entry of a VERIFY has the original's length too (assumption 155). -/
def jobGood (j : Job) (a : Nat) (d : Decoded) (s : State) : Job × State :=
  let s0 := if j.reread then codecCheckRec j a stOk verTransient 1 s else s
  let j0 := { j with reread := false, injected := false }
  let n := 16 + d.hdr.payLen
  if j.d.op = 2 then
    transFeed (j0.passed n) (blockVals d.hdr.enc.fmt d.hdr.enc.bscale d.data) false s0
  else
    let commit : Except Stop State := match j.decStream with
      | some k => commitDecode j.via k d s0
      | none => .ok s0
    match commit with
    | .error e => (j0.bar e, countFault j.part e.st s0)
    | .ok s1 =>
      let out := if j.d.op = 1 then j.output d else []
      let placed : Except Stop (Job × State) := if out = [] then .ok (j0, s1) else placeOut j0 out.length s1
      match placed with
      | .error e => (j0.stopPlace e, countFault j.part e.st s1)
      | .ok (j1, s2) =>
        let wrote : Except Stop (Job × State) := if out = [] then .ok (j1, s2) else writeOut j1 out s2
        match wrote with
        | .error e => (j1.bar e, countFault j.part e.st s2)
        | .ok (j2, s3) =>
          let h := d.hdr
          match listEntry j2 (blockEntry (if j.d.op = 1 then j1.out else a) (h.orig + 1) h.seq 0 false h.flushed j2.chained h.last
              false false h.dcrc) s3 with
          | .error e => (j2.bar e, countFault j.part e.st s3)
          | .ok (j3, s4) => (({ j3 with nblocks := j3.nblocks + 1, index := j3.index + 1 }.passed n).listStop, s4)

/-- The block at `a` has been read and decoded: what becomes of the job.  `glitch`: the engine's own fault spoils the original. -/
def decodedNext (j next : Job) (a : Nat) (glitch : Bool) (bs : List PByte) (res : Except DecErr Decoded) (s : State) : Job × State :=
  let u := engineKey (j.engine.getD 0)
  let strike := match res with | .ok _ => armed s u 6 && !j.injected | .error _ => false
  let s1 := if strike then takeInject u 6 s else s
  let j1 := { next with injected := j.injected || strike }
  match res with
  | .ok d =>
    if !(glitch || j1.injected) then jobGood j1 a d s1
    else if !j.reread then ({ j with injected := j1.injected, reread := true }, bump cntCheckRefetch u s1)
    else jobFail j1 a 0 { code := errCheck, hdr := some d.hdr } true s1
  | .error e =>
    if e.code = errCheck ∧ j.reread = false then ({ j with reread := true }, bump cntCheckRefetch u s1)
    else jobFail j1 a (firstBad bs) e false s1

/-- One source block of a DECOMPRESS, VERIFY or TRANSCODE (R129 to R131). -/
def decodeNext (j : Job) (glitch : Bool) (s : State) : Job × State :=
  match nextSource j s with
  | .error e => (j.bar e, countFault j.part e.st s)
  | .ok (src, s1) =>
    if src.bad then
      (j.stop stPoisonConsumed, poisonConsumed j.part (engineKey (j.engine.getD 0)) (devAddr s1 j.part (j.d.src + 16 * j.src)) 0xFFFF s1)
    else match src.at_ with
      | none => if j.d.op = 2 then transEnd src.job s1 else (src.job.finishPass, s1)
      | some (a, room) =>
        match jobDecIn j s1 with
        | .error e => (j.bar e, countFault j.part e.st s1)
        | .ok (di, s2) =>
          match readBlock j di a room s2 with
          | .error e => (j.bar e, countFault j.part e.st s2)
          | .ok (bs, s3) => decodedNext j src.job a glitch bs (decodeBlock di bs) s3

/-! ### Sizing (R128) -/

/-- What the headers of a decoding job's source give, each as `f` reads it, added up. -/
def headerSum (f : Hdr → Nat) : Nat → Job → State → Nat
  | 0, _, _ => 0
  | fuel + 1, j, s =>
    match nextSource j s with
    | .error _ => 0
    | .ok (src, s1) =>
      match src.at_ with
      | none => 0
      | some (a, room) =>
        match readMarked j.via j.part a (min 16 room) s1 with
        | .error _ => 0
        | .ok (h, s2) =>
          match checkHeader h with
          | .error _ => 0
          | .ok hd => f hd + headerSum f fuel (src.job.passed (16 + hd.payLen)) s2

/-- Fuel for the headers of a job's source. -/
def Job.blocksAtMost (j : Job) : Nat := j.d.srclen / 16 + j.d.srclen + 2

/-- The bytes of an original that a decompress writes. -/
def Job.written (j : Job) (hd : Hdr) : Nat :=
  hd.origLen - (if j.d.padkeep then 0 else if hd.enc.bscale then hd.enc.padLen hd.origLen else hd.padb)

/-- The elements of a block (R88, R89). -/
def Hdr.elements (hd : Hdr) : Nat :=
  if hd.enc.bscale then 32 * hd.enc.groups hd.origLen else 8 * (hd.origLen - hd.padb) / fmtBits hd.enc.fmt

/-- Units of converted output that a TRANSCODE's source gives, from its headers. -/
def transUnits (j : Job) (s : State) : Nat :=
  let n := headerSum Hdr.elements j.blocksAtMost j s
  if j.d.cbscale then (n + 31) / 32 * groupSize j.d.cfmt else if j.d.toSix then n else (n * fmtBits j.d.cfmt + 7) / 8

/-- The worst case of `total` bytes, or units of a TRANSCODE, in blocks of an encoding: 16 + 16 × (ORIG_LEN + 1) each. -/
def encodeBound (x : Ctx) (units flush : Bool) (total : Nat) : Nat :=
  let n := if units then unitsPerBlock x.enc x.blklen else dataPerBlock x.enc x.blklen
  let tail := if flush then flushTake x.enc (total % n) else 0
  let bytes := if units && x.enc.six then (6 * tail + 7) / 8 else tail
  total / n * (16 + 16 * (x.blklen + 1)) + (if tail = 0 then 0 else 16 + bytes + padTo16 bytes)

/-- The worst-case bound of an ATOMIC job. -/
def jobBound (j : Job) (s : State) : Nat :=
  let x := jobCtx s j
  match j.d.op with
  | 0 => encodeBound x false (j.flushes x) (x.pend + j.d.srclen)
  | 1 => headerSum Hdr.origLen j.blocksAtMost j s
  | 2 => encodeBound x true (j.flushes x) (j.waiting s + transUnits j s)
  | _ => 0

/-! ### Starting (R108, R114, R171) -/

/-- The status that ends a job when its context has been acquired, or 0. -/
def jobUseStatus (s : State) (j : Job) : Nat :=
  if !j.d.ordered then 0
  else
    let x := tget s.ctxs j.d.stream
    let st := x.useStatus j.part j.encodes
    if st ≠ 0 then st
    else if j.d.op == 0 && x.bscale && !x.pendok && j.d.srclen % groupSize x.fmt != 0 then stParamRange
    else if j.d.op == 2 && (j.d.cfmt != x.fmt || j.d.cbscale != x.bscale) then stStreamFormat
    else 0

/-- A job starts on its engine: its context is checked, and it runs directly or with a sizing pass first, which counts where it encodes
(R128). -/
def jobStart (j : Job) (s : State) : Job × State :=
  let st := jobUseStatus s j
  let j0 := j.rewind
  if st = stPoisonConsumed then
    (j0.stop st, poisonConsumed j.part (unitId 0x09 0) (s.cm.base.getD 0 + 64 * j.d.stream) 0xFFFF s)
  else if st ≠ 0 then (j0.stop st, s)
  else
    let j1 := { j0 with pass := .direct, saved := if j.d.ordered then tget s.ctxs j.d.stream else j.ownCtx }
    if j.d.atomic && j.d.writes && decide (j.d.dstlen < jobBound j1 s) then
      ({ j1 with pass := .sizing, didSize := true }, if j.encodes then bump cntCodecSizing (engineKey (j.engine.getD 0)) s else s)
    else (j1, s)

/-! ### Slices (R121) -/

/-- A job may take a slice on an engine. -/
def Job.mayRun (j : Job) (e : Nat) : Bool :=
  match j.engine with
  | some k => k == e
  | none => j.d.engine == 0xF || j.d.engine == e

/-- A job is under way on an engine. -/
def onEngine (s : State) (j : Job) : Bool := s.engines.any (fun x => x.2.job == some j.id)

/-- The first job of a partition that an engine may take: program-issued jobs first, in acceptance order. -/
def jobFor (s : State) (e part : Nat) : Option Job :=
  let js := s.jobs.filter (fun j => j.part == part && j.mayRun e && !onEngine s j)
  (js.find? (fun j => j.prog.isSome)).orElse (fun _ => js.head?)

/-- The job of an engine's next slice: partitions in round-robin order. -/
def sliceFor (s : State) (e : Nat) : Option Job :=
  (List.range 64).findSome? (fun i => jobFor s e (((tget s.engines e).lastPart + 1 + i) % 64))

/-- No lower engine that is free would take the job. -/
def lowestFree (s : State) (e : Nat) (j : Job) : Bool :=
  (List.range e).all (fun k => (tget s.engines k).job.isSome || (sliceFor s k).map (·.id) != some j.id)

/-- A job keeps its context from its sizing pass to the end of its writing pass (R128). -/
def Job.pinned (j : Job) : Bool := j.d.ordered && j.didSize

/-- A sized job's context passes from one key to another. -/
def passHold (u v n : Nat) (s : State) : State :=
  if holdsCtx s u n then { s with cm := { s.cm with holder := tset s.cm.holder n (some v) } } else s

/-- A job takes its place on an engine; at its start a single-mode job captures the generation of its slot (R119). -/
def Job.onto (j : Job) (e : Nat) (s : State) : Job :=
  { j with engine := some e, old := []
           tgen := if j.pass = .queued then ((slotTable s j.part j.d.tslot).map Prod.fst).getD 0 else j.tgen }

/-- CODEC_SLICE_START (R121). -/
def codecSliceStartEffect (e : Nat) (s : State) : State :=
  if 8 ≤ e ∨ (tget s.engines e).job.isSome = true then s
  else match sliceFor s e with
    | none => s
    | some j =>
      if !lowestFree s e j then s
      else
        let s1 := putJob (j.onto e s) { s with engines := tset s.engines e { job := some j.id, slice := 0, lastPart := j.part } }
        if holdsCtx s1 (jobKey j.id) j.d.stream && j.pinned then passHold (jobKey j.id) (engineKey e) j.d.stream s1
        else if j.d.ordered then askCtx (engineKey e) j.d.stream (fillCtx j.d.stream s1)
        else s1

/-- CODEC_SLICE_START. -/
def execCodecSliceStart (engine : Nat) (s : State) : Host.Outcome State Fault Refusal := .next (codecSliceStartEffect engine s)

/-- The end of a block: the slice counts it, and the context goes to those who wait (R110, R121). -/
def blockBoundary (e : Nat) (j : Job) (s : State) : State :=
  let n := (tget s.engines e).slice + 1
  if j.ending.isSome || j.reread || decide (j.pass = .sized) then s
  else if 256 ≤ n then
    let s1 := { s with engines := tmod s.engines e (fun x => { x with job := none, slice := 0 }) }
    if j.pinned then passHold (engineKey e) (jobKey j.id) j.d.stream s1
    else
      let s2 := putJob { j with engine := none } s1
      if j.d.ordered then releaseCtx (engineKey e) j.d.stream s2 else s2
  else
    let s1 := { s with engines := tmod s.engines e (fun x => { x with slice := n }) }
    if j.d.ordered && !j.pinned then boundaryCtx (engineKey e) j.d.stream s1 else s1

/-- An engine can work on its job's next block. -/
def blockReady (s : State) (e : Nat) (j : Job) : Bool :=
  j.ending.isNone && decide (j.pass ≠ .sized) && (!j.d.ordered || holdsCtx s (engineKey e) j.d.stream)

/-- Work on the next block. -/
def blockWork (j : Job) (glitch : Bool) (s : State) : Job × State :=
  if j.d.op = 0 then compressBlock j s
  else if j.d.op = 1 ∧ j.pass = .sizing then ({ j with need := headerSum j.written j.blocksAtMost j s, pass := .sized }, s)
  else if j.d.op = 2 ∧ transDue j s = true then transForm j s
  else decodeNext j glitch s

/-- A block of a job is done; one that a fence turned away is tried again, at most 16 times (R254). -/
def blockDone (e : Nat) (j : Job) (r : Job × State) (s : State) : State :=
  match ({ st := 0, fence := r.1.fence } : Stop).again j.tries with
  | some f => putJob { j with tries := j.tries + 1 } (turnedAway j.via (some j.part) f s)
  | none =>
    let s1 := match r.1.fence with | some f => turnedAway j.via (some j.part) f r.2 | none => r.2
    let j1 := { r.1 with fence := none, tries := 0, old := [] }
    blockBoundary e j1 (putJob j1 s1)

/-- CODEC_BLOCK_DONE (R131). -/
def codecBlockDoneEffect (e : Nat) (glitch : Bool) (s : State) : State :=
  match (tget s.engines e).job.bind (jobOf s) with
  | none => s
  | some j =>
    if !blockReady s e j then s
    else
      let st := if j.pass = .queued then jobStart j s else (j, s)
      blockDone e j (if st.1.ending.isSome then st else blockWork st.1 glitch st.2) s

/-- CODEC_BLOCK_DONE. -/
def execCodecBlockDone (engine : Nat) (glitch : Bool) (s : State) : Host.Outcome State Fault Refusal :=
  .next (codecBlockDoneEffect engine glitch s)

/-- SIZING_PASS_DONE (R128): the job ends for want of space, or its writing pass begins. -/
def sizingPassDoneEffect (e : Nat) (s : State) : State :=
  match (tget s.engines e).job.bind (jobOf s) with
  | none => s
  | some j =>
    if j.pass ≠ .sized then s
    else if j.d.dstlen < j.need then putJob { j with ending := some stOutputFull, aux := j.need } s
    else putJob { j.rewind with pass := .writing, saved := if j.d.ordered then j.saved else j.ownCtx } s

/-- SIZING_PASS_DONE. -/
def execSizingPassDone (engine : Nat) (s : State) : Host.Outcome State Fault Refusal := .next (sizingPassDoneEffect engine s)

/-! ### Contexts (R110 to R112) -/

/-- CONTEXT_FILL: a context that a unit waits for is brought into the cache (R111). -/
def contextFillEffect (n : Nat) (s : State) : State := if hasWaiters s n && streamsOpen s then fillCtx n s else s

/-- CONTEXT_FILL. -/
def execContextFill (stream : Nat) (s : State) : Host.Outcome State Fault Refusal := .next (contextFillEffect stream s)

/-- CONTEXT_ACQUIRE: the unit that has waited longest for a free, resident context takes it; a queued flush runs first. -/
def contextAcquireEffect (u n : Nat) (found : EccFinding) (s : State) : State :=
  match s.cm.waiting.find? (fun w => w.2 == n) with
  | some w =>
    if w.1 = u ∧ (tget s.cm.holder n).isNone = true ∧ resident s n = true then
      takeCtx u n (ctxEcc n stPoisonConsumed (some (tget s.ctxs n).owner) found false (runFlush n s))
    else s
  | none => s

/-- CONTEXT_ACQUIRE. -/
def execContextAcquire (unit stream : Nat) (found : EccFinding) (s : State) : Host.Outcome State Fault Refusal :=
  .next (contextAcquireEffect unit stream found s)

/-- CONTEXT_BASE_COMPLETE: every context is zero, and stream operations are possible (R112). -/
def contextBaseCompleteEffect (s : State) : State :=
  match s.cm.clearing, s.cm.base with
  | some t, some b =>
    let s1 := zeroRange b 0x400000 s
    post t stOk [] { s1 with ctxs := [], cm := { s1.cm with clearing := none, resident := [] } }
  | _, _ => s

/-- CONTEXT_BASE_COMPLETE. -/
def execContextBaseComplete (s : State) : Host.Outcome State Fault Refusal := .next (contextBaseCompleteEffect s)

end Sys2Proof.Machine
end

