-- ==== Sys2Proof/Machine/Tiles.lean ====
section
/-! DEFINITION. The sequencer and the MOVE unit of a tile at work: bundle issue, checkpoints and replay, signals, MOVEs, tokens and
the watchdog (R150, R151, R157 to R159, R166 to R176, R178, R182, R185, R186, R248; chapters 05 and 07). -/

namespace Sys2Proof.Machine

/-! ### Signals (R151, R158, R292) -/

/-- The request that carries a signal to a tile of the program, or to a link channel. -/
def signalPkt (s : State) (t : Nat) (b : Bundle) : NocPkt :=
  let n := b.f 1 27 25 + 1
  if b.t 1 14 then
    let r := (tget s.tiles t).remotes.getD (b.f 1 20 15) {}
    { typ := 0x03, dest := pelocRouter (r.channel / 16), dport := 2, src := tileRouter t, sport := 0, part := tilePart s t
      addr := r.channel + 2 ^ 8 * r.rtile, tcnt := r.rcnt, tval := n - 1 }
  else tokenPkt (tileRouter t) 0 (tilePart s t) (b.f 1 20 15) (b.f 1 24 21) n

/-- Change a tile's tallies. -/
def onTally (t : Nat) (f : Tally → Tally) (s : State) : State := onTile t (fun x => { x with tally := f x.tally }) s

/-- The signal of bundle number `i` is sent, or counted and not sent in a replay (R176). -/
def sendSignal (t i : Nat) (b : Bundle) (s : State) : State :=
  let x := tget s.tiles t
  let s1 := onTally t (fun y => { y with signals := y.signals + 1 }) s
  if x.behind (·.signals) then s1 else sendReq (signalPkt s t b) (.signal t i) s1

/-- The event that SAFTER names has come (Table 05.9). -/
def signalAfter (k t i : Nat) (b : Bundle) (s : State) : State := if b.t 1 13 && b.f 1 30 28 == k then sendSignal t i b s else s

/-! ### Address registers (R150) -/

/-- Addresses have 48 bits. -/
def wrap48 (a : Int) : Nat := unsigned 48 a

/-- Change a register. -/
def onReg (t r : Nat) (f : AReg → AReg) (s : State) : State := onTile t (fun x => { x with a := tmod x.a r f }) s

/-- Advance a register by bytes. -/
def AReg.advance (a : AReg) (n : Int) : AReg := { a with val := wrap48 (a.val + n) }

/-- A register whose advance is known again. -/
def AReg.settle (a : AReg) (n : Nat) : AReg := { (a.advance n) with busy := a.busy - 1 }

/-- The increments of a bundle that issues: strides at once; an EXPAND's and a PACK's advance are not known yet. -/
def stepRegs (b : Bundle) (pack : Bool) (x : Tile) : Tile :=
  let inc := fun (on : Bool) (r : Nat) (a : Tab AReg) => if on then tmod a r (fun y => y.advance y.stride) else a
  let wait := fun (on : Bool) (r : Nat) (a : Tab AReg) => if on then tmod a r (fun y => { y with busy := y.busy + 1 }) else a
  let a1 := inc (b.cop == 5 && b.t 0 8) b.creg x.a
  let a2 := inc (b.moveOp != 0 && b.t 2 11) b.dreg (inc (b.moveOp != 0 && b.t 2 6) b.sreg a1)
  { x with a := wait (pack && b.pen && b.pdinc) b.pdreg (wait (b.eop != 0 && b.t 4 6) b.treg a2) }

/-! ### Incidents of outputs, checkpoints and replay (R175, R176, R434) -/

/-- A confirmation falls due on a tile (R443). -/
def needConfirm (t : Nat) (incident : LRec) (forced : Bool) (runs : List Nat) (s : State) : State :=
  { s with integ := { s.integ with confirms := s.integ.confirms ++ [{ tile := t, incident := incident, forced := forced, left := runs }] } }

/-- Kernel runs lo to hi on a tile. -/
def kernelRuns (t lo hi : Nat) : List Nat := (List.range (hi + 1 - lo)).map (fun i => 32 * t + lo + i)

/-- A failure that replays have cured is recorded, with the replays that failures of its kind needed. -/
def cured (injected : Bool) (f : Option (LRec × Nat)) (s : State) : State :=
  match f with
  | some (r, n) => judge { r with verdict := verTransient, count := n, time := s.timebase } injected s
  | none => s

/-- A window that replays have cured ends: its record (R434); failures that were injected and those that were not have one each (R459). -/
def cureRecord (t : Nat) (s : State) : State :=
  let x := tget s.tiles t
  onTile t (fun y => { y with lastFail := none, lastInj := none, failing := none, replays := 0 }) (cured true x.lastInj (cured false x.lastFail s))

/-- One tile's part of a checkpoint (R175). -/
def saveTile (t : Nat) (s : State) : State :=
  onTile t (fun x => { x with
    cp := { pc := x.pc, loops := x.loops, regs := x.a, packNo := x.packNo }
    cpTaken := true, tally := {}, goal := none, packLens := [], sent := [] }) (cureRecord t s)

/-- The gang of a tile takes a checkpoint. -/
def takeCheckpoint (t : Nat) (s : State) : State := (membersOf s t).foldl (fun u m => saveTile m u) s

/-- The greater of two tallies, kind by kind. -/
def Tally.max (a b : Tally) : Tally :=
  { moves := Nat.max a.moves b.moves, signals := Nat.max a.signals b.signals, waits := Nat.max a.waits b.waits
    packs := Nat.max a.packs b.packs, codecs := Nat.max a.codecs b.codecs, periods := Nat.max a.periods b.periods }

/-- A tile back at its checkpoint, its queues and slots empty (R176). -/
def Tile.rewind (x : Tile) : Tile :=
  { x with
    goal := some ((x.goal.getD {}).max x.tally), tally := {}
    mq := [], eq := [], maq := [], pq := [], mv := none, exW := none, exA := none, mc := none, pk := none, frees := [], idle := none
    due := none, ctries := 0, w := [], s := [], pc := x.cp.pc, loops := x.cp.loops, a := x.cp.regs, packNo := x.cp.packNo, halted := false
    cpTaken := Bundle.cop (x.bundles.getD x.cp.pc []) == 3 }

/-- A multicast that a replay starts again is given up without a report. -/
def dropSend (t : Nat) (s : State) : State :=
  match (tget s.tiles t).send with
  | some m => sendPkt (abortPkt m (tileRouter t) 0 m.mask) (onTile t (fun x => { x with send := none }) s)
  | none => s

/-- One tile of a replay; signals that have been counted still go. -/
def rewindTile (t : Nat) (s : State) : State :=
  let s1 := orphanReqs (Purpose.ofMove t) (releaseAll (fun _ => false) t (dropSend t s))
  (pairOf s1 t).foldl (fun u k => onTile k (fun x => if k = t then x.rewind else { x with w := [], s := [] }) u) s1

/-- A failed output is noted in its window, beside the count of those of its kind. -/
def OutFail.note (f : OutFail) (x : Tile) : Tile :=
  let put := fun (o : Option (LRec × Nat)) => some (f.rec_, match o with | some p => p.2 + 1 | none => 1)
  { x with replays := x.replays + 1
           lastFail := if f.injected then x.lastFail else put x.lastFail
           lastInj := if f.injected then put x.lastInj else x.lastInj }

/-- A tile's window is replayed for a failed output (R176, R434). -/
def replayWindow (t : Nat) (f : OutFail) (s : State) : State :=
  let s1 := bump cntReplay (unitId 0x01 t) (onTile t f.note s)
  let s2 := match (tget s.tiles t).prog with
    | some k => { s1 with progs := tmod s1.progs k (fun p => { p with replays := p.replays + 1 }) }
    | none => s1
  (membersOf s2 t).foldl (fun u m => rewindTile m u) s2

/-! ### Idle windows (R38, R178) -/

/-- Background work on a tile stops, which is counted as a stall. -/
def abortKernel (t : Nat) (s : State) : State :=
  match (tget s.tiles t).kernel with
  | some k => if k.why = .background then bump cntSelftestStall (unitId 0x01 t) (onTile t (fun x => { x with kernel := none }) s) else s
  | none => s

/-- An idle window closes: every slot EMPTY and every accumulator 0. -/
def closeIdle (t : Nat) (s : State) : State := onPair t Tile.clean (onTile t (fun x => { x with idle := none }) (abortKernel t s))

/-! ### The CTRL slot (Table 05.8) -/

/-- MAC operations with numbers below `n` that are queued or under way and read a slot of a tile: its leader's (R181). -/
def macsOn (s : State) (t : Nat) (act : Bool) (k n : Nat) : Bool :=
  let x := tget s.tiles (leaderOf s t)
  let on := fun (o : UOp) => decide (o.no < n) && (if act then o.b.aslot == k else o.b.wslot == k)
  x.maq.any on || (match x.mc with | some m => on m.op | none => false)

/-- The number below which a leader's operations are queued when a tile issues a bundle, the bundle's own MAC included. -/
def queuedMacs (s : State) (t : Nat) : Nat := (tget s.tiles (leaderOf s t)).issued + b2n (leaderOf s t == t)

/-- Slots whose FREE has come due are EMPTY (R157). -/
def applyFrees (t : Nat) (s : State) : State :=
  let due := (tget s.tiles t).frees.filter (fun f => !macsOn s t f.2.1 f.1 f.2.2)
  due.foldl (fun u f => onPair t (fun y => y.onSlot f.2.1 f.1 (fun o => { o with st := .empty })) u)
    (onTile t (fun y => { y with frees := y.frees.filter (fun f => !due.contains f) }) s)

/-- A CODEC bundle submits the descriptor at `a`, its register's value before any increment (R150, R172). -/
def issueCodec (t : Nat) (b : Bundle) (a : Nat) (s : State) : State :=
  let x := tget s.tiles t
  let part := tilePart s t
  let s0 := onTally t (fun y => { y with codecs := y.codecs + 1 }) s
  if x.behind (·.codecs) then
    (if x.sent.contains x.tally.codecs then onTally t (fun y => { y with signals := y.signals + 1 }) s0 else s0)
  else
    let g := partRead (viaTile t) part a 48 s0
    if g.st ≠ 0 then faultTile t g.st slotCtrl x.pc g.s
    else match g.bad with
      | i :: _ =>
        endTileAt t (unitId 0x01 t) stPoisonConsumed slotCtrl x.pc 0 (poisonMet part (unitId 0x01 t) (devAddr g.s part (a + 16 * i)) x.pc g.s)
      | [] =>
        let d : Desc := bytesDw g.bytes
        let v := descCheck g.s part d
        if v.status ≠ 0 then endTile t v.status slotCtrl x.pc 0 (v.counts.foldl (fun u k => bump k.1 k.2 u) g.s)
        else addJob { part := part, desc := d, prog := x.prog.map (·, t), token := if b.t 0 13 then some (b.f 0 12 9) else none
                      descAddr := a, descBundle := x.pc, order := x.tally.codecs } g.s

/-- A PERIOD bundle marks a load period to Kestrel (R182, R486). -/
def issuePeriod (t : Nat) (s : State) : State :=
  let x := tget s.tiles t
  let s1 := onTally t (fun y => { y with periods := y.periods + 1 }) s
  if x.behind (·.periods) then s1
  else { s1 with loops := tmap (fun _ (l : KLoop) => if l.teacher.isSome && l.teacher == x.prog then { l with markDue := true } else l) s1.loops }

/-- What the CTRL slot does at issue; `a`: the value of the register it names as the bundle issues. -/
def issueCtrl (t : Nat) (b : Bundle) (a : Nat) (s : State) : State :=
  match b.cop with
  | 1 => onTile t (fun y => { y with loops := (b.f 0 23 4 + 1, y.pc + 1) :: y.loops }) s
  | 4 => onTile t (fun y => { y with idle := some (16 * b.f 0 23 4), idleAt := s.aclk.cycles }) s
  | 5 => issueCodec t b a s
  | 6 => issuePeriod t s
  | 8 => onReg t b.creg (fun a => a.advance (16 * signed 24 (b.f 0 31 8))) s
  | 9 => onReg t b.creg (fun a => { a with val := a.init }) s
  | 0xA => onTile t (fun y => { y with halted := true }) s
  | 0xB =>
    let act := b.t 0 4
    let k := b.f 0 8 5
    if macsOn s t act k (queuedMacs s t) then onTile t (fun y => { y with frees := y.frees ++ [(k, act, queuedMacs s t)] }) s
    else onPair t (fun y => y.onSlot act k (fun o => { o with st := .empty })) s
  | _ => s

/-! ### Issue (R167, R173) -/

/-- The tile's place after a bundle: the next one, or the body again (R173). -/
def Tile.advance (x : Tile) (b : Bundle) : Tile :=
  let y := { x with issued := x.issued + 1, ctries := 0 }
  if b.cop = 2 then
    match y.loops with
    | (n, start) :: r => if 2 ≤ n then { y with pc := start, loops := (n - 1, start) :: r } else { y with pc := y.pc + 1, loops := r }
    | [] => { y with pc := y.pc + 1 }
  else { y with pc := y.pc + 1 }

/-- The wait of a bundle that issues (R151). -/
def takeWait (t : Nat) (b : Bundle) (s : State) : State :=
  if !b.t 1 0 then s
  else
    let sup := (tget s.tiles t).behind (·.waits)
    onTile t (fun x => { x with
      tally := { x.tally with waits := x.tally.waits + 1 }
      c := if sup then x.c else tset x.c (b.f 1 4 1) (tget x.c (b.f 1 4 1) - (b.f 1 12 5 + 1)) }) s

/-- A MOVE that a replay counts and does not perform. -/
def skipMove (t : Nat) (b : Bundle) (s : State) : State :=
  signalAfter 1 t (tget s.tiles t).pc b (onTally t (fun y => { y with moves := y.moves + 1 }) s)

/-- A PACK that a replay counts and does not perform: its register advances as it did (R150, R176). -/
def skipPack (t : Nat) (b : Bundle) (s : State) : State :=
  let x := tget s.tiles t
  let n := x.packLens.getD x.tally.packs 0
  let s1 := onTile t (fun y => { y with
    tally := { y.tally with packs := y.tally.packs + 1 }
    packNo := if (y.streams.getD b.psidx (0, 0)).2 = 0xFF then y.packNo else y.packNo + 1
    a := if b.pdinc then tmod y.a b.pdreg (fun r => r.advance n) else y.a }) s
  signalAfter 4 t x.pc b s1

/-- A bundle's operations join their queues (R167). -/
def enqueue (b : Bundle) (move pack : Bool) (x : Tile) : Tile :=
  let op : UOp := { no := x.issued, bundle := x.pc, w := b }
  let reg := fun r => (tget x.a r).val
  { x with
    mq := if move then x.mq ++ [{ op with a1 := wrap48 (reg b.sreg + 16 * b.f 3 15 4), a2 := wrap48 (reg b.dreg + 16 * b.f 3 27 16) }] else x.mq
    eq := if b.eop ≠ 0 then x.eq ++ [{ op with a1 := reg b.treg }] else x.eq
    maq := if b.macOp ≠ 0 then x.maq ++ [op] else x.maq
    pq := if pack then x.pq ++ [{ op with a1 := reg b.pdreg }] else x.pq }

/-- A tile issues its next bundle. -/
def issueBundle (t : Nat) (s : State) : State :=
  let b := (tget s.tiles t).next
  let s0 := if (tget s.tiles t).idle.isSome && b.closes then closeIdle t s else s
  let s1 := if b.cop = 3 ∧ (tget s0.tiles t).cpTaken = false then takeCheckpoint t s0 else s0
  let s2 := takeWait t b (onTile t (fun x => { x with cpTaken := false }) s1)
  let x := tget s2.tiles t
  let move := b.moveOp != 0 && !x.behind (·.moves)
  let pack := b.pen && !x.behind (·.packs)
  let s3 := onTile t (fun y => stepRegs b pack (enqueue b move pack y)) s2
  let s4 := issueCtrl t b (tget x.a b.creg).val s3
  let s5 := if b.moveOp ≠ 0 ∧ move = false then skipMove t b s4 else s4
  let s6 := if b.pen = true ∧ pack = false then skipPack t b s5 else s5
  let s7 := onTile t (fun y => y.advance b) s6
  signalAfter 0 t x.pc b s7

/-- A fence turns away the descriptor's read of a CODEC bundle, which asks again (R254): the bundle waits. -/
def codecFence (t : Nat) (s : State) : Option Fenced :=
  let x := tget s.tiles t
  if needsPlace s t then (partRead (viaTile t) (tilePart s t) (tget x.a x.next.creg).val 48 s).stop.again x.ctries else none

/-- BUNDLE_ISSUE (R167). -/
def bundleIssueEffect (t : Nat) (found : EccFinding) (s : State) : State :=
  if canIssue s t && !isShadow s t then
    let s1 := countEcc (unitId 0x01 t) found s
    if fatalEcc found then arrayDies t (unitId 0x01 t) 0 (tget s.tiles t).pc s1
    else match codecFence t s1 with
      | some f => onTile t (fun x => { x with ctries := x.ctries + 1 }) (turnedAway (viaTile t) (some (tilePart s t)) f s1)
      | none => issueBundle t s1
  else if (lateOf s t).isSome && fatalEcc found then
    arrayDies t (unitId 0x01 t) 0 (tget s.tiles t).pc (countEcc (unitId 0x01 t) found s)
  else s

/-- BUNDLE_ISSUE. -/
def execBundleIssue (tile : Nat) (found : EccFinding) (s : State) : Host.Outcome State Fault Refusal := .next (bundleIssueEffect tile found s)

/-! ### MOVE: COPY and MCAST (R159, R240, R248) -/

/-- The MOVE unit is free, its tile is not stalled (R29), and its next operation has this MOP. -/
def nextMove (s : State) (t mop : Nat) : Option UOp :=
  let x := tget s.tiles t
  if x.mv.isSome || x.send.isSome || x.stalled then none
  else match x.mq with
    | o :: _ => if o.b.moveOp = mop then some o else none
    | [] => none

/-- The source of every granule that a MOVE brings into a tile store, as a device address plus 1 (R29). -/
def noteSource (c : Chunk) (s : State) : State :=
  match levelOf c.dst with
  | .tile u =>
    onTile u (fun x => { x with moveSrc := (List.range (c.len / 16)).foldl (fun m i =>
      tset m (((c.dst - tileBase) % pageSize) / 16 + i) (c.src + 16 * i + 1)) x.moveSrc }) s
  | _ => s

/-- The tile whose store holds a device address. -/
def tileAt (a : Nat) : Option Nat := match levelOf a with | .tile u => some u | _ => none

/-- A COPY starts: every byte passes the window check, and its reads go out. -/
def startCopy (t : Nat) (o : UOp) (s : State) : State :=
  let b := o.b
  let part := tilePart s t
  let s0 := onTile t (fun x => { x with mq := x.mq.tail }) s
  match xlate s0 part false o.a1 b.moveLen, xlate s0 part true o.a2 b.moveLen with
  | .error e, _ => faultTile t e slotMove o.bundle s0
  | _, .error e => faultTile t e slotMove o.bundle s0
  | .ok src, .ok dst =>
    let cs := copyChunks src dst
    let s1 := dst.foldl (fun u p => countSpill part true p u) (src.foldl (fun u p => countSpill part false p u) s0)
    let s2 := onTile t (fun x => { x with mv := some { op := o, active := cs.length, dest := dst.head?.bind (fun p => tileAt p.dev) } }) s1
    cs.foldl (fun u c => sendReq (rdPkt (tileRouter t) 0 part false c.src c.len) (.moveRead t c) (noteSource c u)) s2

/-- COPY (R159). -/
def copyEffect (t : Nat) (s : State) : State :=
  match nextMove s t 1 with
  | some o => startCopy t o s
  | none => s

/-- COPY. -/
def execCopy (tile : Nat) (s : State) : Host.Outcome State Fault Refusal := .next (copyEffect tile s)

/-- Source runs with their offsets in the multicast. -/
def withOffsets : Nat → List (Nat × Nat) → List (Nat × Nat × Nat)
  | _, [] => []
  | o, (a, n) :: r => (o, a, n) :: withOffsets (o + n) r

/-- A multicast's MC_RESERVE (R250). -/
def reservePkt (r q : Nat) (m : McSend) : NocPkt :=
  { typ := 0x10, vn := 2, src := r, sport := q, part := m.part, tag := m.tag, len := min m.total 256, addr := m.off, mask := m.mask
    mtotal := m.total }

/-- What an MCAST reads, or ST_WINDOW_FAULT where its destination runs past a store (R159, R194). -/
def mcastSource (s : State) (part : Nat) (o : UOp) : Except Nat (List Piece) :=
  if storeSize < o.a2 + o.b.moveLen then .error stWindowFault else xlate s part false o.a1 o.b.moveLen

/-- An MCAST starts: the reserve goes out, and the source is read into the send buffer. -/
def startMcast (t : Nat) (o : UOp) (s : State) : State :=
  let b := o.b
  let part := tilePart s t
  match mcastSource s part o, freeTag s (tileRouter t) 0 with
  | .error e, _ => faultTile t e slotMove o.bundle (onTile t (fun x => { x with mq := x.mq.tail }) s)
  | _, none => s
  | .ok src, some tag =>
    let runs := withOffsets 0 (cutRuns src)
    let m : McSend := { tag := tag, part := part, mask := (progOf s t).msets.getD (b.f 2 15 12) 0, off := o.a2, total := b.moveLen / 16
                        op := o, active := runs.length, runs := runs }
    let s1 := src.foldl (fun u p => countSpill part false p u) (onTile t (fun x => { x with mq := x.mq.tail, send := some m }) s)
    runs.foldl (fun u c =>
      sendReq (rdPkt (tileRouter t) 0 part false c.2.1 c.2.2) (.mcRead t { src := c.2.1, len := c.2.2 } c.1) u)
      (sendPkt (reservePkt (tileRouter t) 0 m) s1)

/-- MCAST (R248). -/
def mcastEffect (t : Nat) (s : State) : State :=
  match nextMove s t 2 with
  | some o => startMcast t o s
  | none => s

/-- MCAST. -/
def execMcast (tile : Nat) (s : State) : Host.Outcome State Fault Refusal := .next (mcastEffect tile s)

/-- A MOVE's completion: its tally, and the signal that waits for it. -/
def endMove (t : Nat) (o : UOp) (s : State) : State :=
  signalAfter 1 t o.bundle o.b (onTally t (fun y => { y with moves := y.moves + 1 }) s)

/-- The completion token of a COPY: to the tile whose store received the data, else to the issuing tile (R169). -/
def copyToken (t : Nat) (m : MoveOp) (s : State) : State :=
  let b := m.op.b
  if !b.t 2 28 then s
  else
    let d := m.dest.getD t
    if d = t then addTokens t (b.f 3 3 0) 1 s else sendReq (tokenPkt (tileRouter t) 0 (tilePart s t) d (b.f 3 3 0) 1) (.signal t m.op.bundle) s

/-- The delivered tiles of a multicast. -/
def McSend.delivered (m : McSend) : List Nat := (maskTiles m.mask).filter (fun i => tget m.results i == 1)

/-- The reason of a tile in the report. -/
def McSend.reason (m : McSend) (i : Nat) : Nat :=
  if tget m.results i ≠ 0 then tget m.results i - 1 else if 1 < tget m.grants i then tget m.grants i - 1 else reasonTimeout

/-- Every grant is in. -/
def McSend.granted (m : McSend) : Bool := (maskTiles m.mask).all (fun i => tget m.grants i != 0)

/-- Every result that is awaited is in. -/
def McSend.finished (m : McSend) : Bool :=
  m.granted && m.active == 0 && (maskTiles m.mask).all (fun i => tget m.grants i != 1 || (m.sent && tget m.results i != 0))

/-- An MCAST whose results are all in: MC_TOKEN to the delivered tiles, the report if one is missing (R169, R248, R251). -/
def endMcast (t : Nat) (m : McSend) (s : State) : State :=
  let b := m.op.b
  let ds := m.delivered
  let s1 := onTile t (fun x => { x with send := none }) s
  let s2 := if b.t 2 28 && ds != [] then
      sendPkt { typ := 0x13, vn := 2, src := tileRouter t, sport := 0, part := m.part, mask := tilesMask ds, tcnt := b.f 3 3 0 } s1
    else s1
  let s3 := endMove t m.op s2
  if tilesMask ds = m.mask then s3
  else endTile t stMcastPartial slotMove m.op.bundle 0 (partialMcast m.part m.mask m.reason s3)

/-- MOVE_COMPLETE (R169). -/
def moveCompleteEffect (t : Nat) (s : State) : State :=
  let x := tget s.tiles t
  match x.mv, x.send with
  | some m, _ => if m.active = 0 then endMove t m.op (copyToken t m (onTile t (fun y => { y with mv := none }) s)) else s
  | none, some m => if m.finished then endMcast t m s else s
  | none, none => s

/-- MOVE_COMPLETE. -/
def execMoveComplete (tile : Nat) (s : State) : Host.Outcome State Fault Refusal := .next (moveCompleteEffect tile s)

/-! ### Tokens and the watchdog (R151, R174, R185, R186) -/

/-- TOKEN_ARRIVAL: a token signal from within the tile's own sequencer reaches a counter (R151). -/
def tokenArrivalEffect (t c n : Nat) (s : State) : State :=
  if t < 64 ∧ c < 16 ∧ 1 ≤ n ∧ n ≤ 8 then addTokens t c n s else s

/-- TOKEN_ARRIVAL. -/
def execTokenArrival (tile counter count : Nat) (s : State) : Host.Outcome State Fault Refusal :=
  .next (tokenArrivalEffect tile counter count s)

/-- WATCHDOG: a running tile that has not finished and cannot issue has waited WDLIM × 1,024 ACLK cycles (R174, R186).  DESIGN CHOICE:
once HALT has issued no bundle waits, and the result names the index after it (assumption 156). -/
def watchdogEffect (t : Nat) (s : State) : State :=
  let x := tget s.tiles t
  if x.running && !finished s t && !canIssue s t && !isShadow s t then endTile t stWatchdog 0 x.pc 0 s else s

/-- WATCHDOG. -/
def execWatchdog (tile : Nat) (s : State) : Host.Outcome State Fault Refusal := .next (watchdogEffect tile s)

/-! ### A codec job's end (R116, R121, R172) -/

/-- What the end of a program's job does to the program: its token, its signal, and the end of the run unless it is done. -/
def jobEndTile (j : Job) (k t st : Nat) (s : State) : State :=
  let b : Bundle := (tget s.tiles t).bundles.getD j.descBundle []
  let s1 := match j.token with | some c => addTokens t c 1 s | none => s
  let count := fun (y : Tally) => { y with signals := y.signals + 1 }
  let s2 := if b.t 1 13 && b.f 1 30 28 == 5 then
      sendReq (signalPkt s1 t b) (.signal t j.descBundle)
        (onTile t (fun x => { x with tally := count x.tally, goal := x.goal.map count, sent := x.sent ++ [j.order] }) s1)
    else s1
  if st < 0x0100 then s2 else endRun k { status := st, tile := t, tvalid := true, err := j.failed, slotk := slotCtrl, bundle := j.descBundle } s2

/-- The result of a program's job is to be written; what comes of it. -/
def resultGot (j : Job) (s : State) : Got :=
  if j.prog.isSome then partWrite j.via j.part (j.descAddr + 48) (dwBytes j.result) [] s else { s := s }

/-- The status of a job whose result has been written: one that would have been done ends with the failure of that write (R246, R254). -/
def resultStatus (j : Job) (st : Nat) (s : State) : Nat := if st < 0x0100 ∧ (resultGot j s).st ≠ 0 then (resultGot j s).st else st

/-- CODEC_JOB_END (R116). -/
def codecJobEndEffect (e : Nat) (s : State) : State :=
  match (tget s.engines e).job.bind (jobOf s) with
  | none => s
  | some j =>
    match j.ending with
    | none => s
    | some st0 =>
      match (resultGot j s).stop.again j.tries with
      | some f => putJob { j with tries := j.tries + 1 } (turnedAway j.via (some j.part) f s)
      | none =>
        let st := resultStatus j st0 s
        let s1 := closeJob false j st s
        match j.prog with
        | some (k, t) => jobEndTile j k t st s1
        | none => s1

/-- CODEC_JOB_END. -/
def execCodecJobEnd (engine : Nat) (s : State) : Host.Outcome State Fault Refusal := .next (codecJobEndEffect engine s)

end Sys2Proof.Machine
end

