-- ==== Sys2Proof/Machine/LmcCore.lean ====
section
/-! DEFINITION. Link multicasts at a node: what a node keeps, answers and relays, the landing in its memory and tiles, and the root's
report (R277, R278, R296, R297, R308, R309; Tables 08.12, 08.12a and 08.17). -/

namespace Sys2Proof.Machine

/-! ### Nodes and ports -/

/-- Child ports of a group. -/
def Group.children (g : Group) : List Nat := (List.range 16).filter (fun p => g.child.testBit p)

/-- Every bit of `a` is in `b`. -/
def maskIn (a b : Nat) : Bool := a &&& b == a

/-- The nodes of a mask. -/
def maskNodes (m : Nat) : List Nat := (List.range 32).filter (fun n => m.testBit n)

/-- Change a group. -/
def onGroup (k : Nat) (f : Group → Group) (s : State) : State := { s with groups := tmod s.groups k f }

/-- Change the multicast in flight of a group. -/
def onRun (k : Nat) (f : LmcRun → LmcRun) (s : State) : State := onGroup k (fun g => { g with run := g.run.map f }) s

/-- Reasons of Table 08.12 beside those of Table 07.6: NOT_OWNED 1, FENCED 2, RANGE 3, TIMEOUT 4, ABORTED 5. -/
def lmcNoGroup : Nat := 6
/-- BUSY. -/
def lmcBusy : Nat := 7
/-- UPSTREAM. -/
def lmcUpstream : Nat := 8
/-- PARTIAL_TILES. -/
def lmcPartial : Nat := 9

/-- LMC_GRANT for the nodes of a mask. -/
def sendGrant (p l k nmask reason : Nat) (s : State) : State :=
  sendTx p { ttype := ttGrant, lch := l, rtile := k, nmask := nmask, reason := reason } s

/-- LMC_ABORT for the nodes of a mask on each child port. -/
def sendAborts (k nmask : Nat) (s : State) : State :=
  let g := tget s.groups k
  g.children.foldl (fun u p => sendTx p { ttype := ttAbort, lch := g.lch, rtile := k, nmask := nmask } u) s

/-- LMC_DATA: the segments of `total` granules on one port. -/
def sendSegments (p k total : Nat) (data : List Byte) (bad : List Nat) (s : State) : State :=
  let g := tget s.groups k
  let n := (total + 255) / 256
  (List.range n).foldl (fun u i =>
    let m := min 256 (total - 256 * i)
    sendTx p
      { ttype := ttLmcData, lch := g.lch, rtile := k, rcnt := i, slast := i + 1 == n, len := m
        pmask := toLink ((bad.filter (fun j => decide (256 * i ≤ j) && decide (j < 256 * i + m))).map (· - 256 * i))
        data := (data.drop (4096 * i)).take (16 * m) } u) s

/-! ### The landing at a node (step 5) -/

/-- The part of the node's own answer that its tiles give. -/
def lmcReason (g : Group) (b : LmcBuf) (delivered : BitVec 64) : Nat :=
  if g.mem && b.memFail then reasonRange else if delivered != g.tiles then lmcPartial else 0

/-- A node's answer goes up: LMC_RESULT with the delivered tiles; its buffer is free (R297). -/
def lmcAnswer (p : Nat) (delivered : BitVec 64) (s : State) : State :=
  match (tget s.pel p).lmc with
  | none => s
  | some b =>
    let g := tget s.groups b.group
    let own := 2 ^ g.node
    let s1 := sendTx p
      { ttype := ttResult, lch := g.lch, rtile := b.group, nmask := own, reason := lmcReason g b delivered, len := 1
        data := leBytes 8 delivered.toNat ++ List.replicate 8 0 } (onPel p (fun x => { x with lmc := none }) s)
    onGroup b.group (fun h => { h with run := match h.run with
      | some r =>
        let r1 := { r with answered := r.answered ||| own }
        if maskIn r1.granted r1.answered then none else some r1
      | none => none }) s1

/-- The tiles of a landing have all answered. -/
def lmcLanded (p : Nat) (s : State) : State :=
  match (tget s.pel p).send with
  | some m => if m.finished then lmcAnswer p (tilesMask m.delivered) (onPel p (fun x => { x with send := none }) s) else s
  | none => s

/-- The bytes of a held multicast. -/
def LmcBuf.bytes (b : LmcBuf) : List Byte := (List.range (16 * b.total)).map (tget b.data)

/-- The whole data lie in the buffer: memory at MADDR, then the granted children from there, then the tiles (Table 08.17). -/
def lmcLand (p tag : Nat) (b : LmcBuf) (s : State) : State :=
  let g := tget s.groups b.group
  let landed : Bool × State :=
    if g.maddr = 0 then (true, s)
    else
      let w := partWrite (viaPeloc p) g.owner g.maddr b.bytes b.pois s
      (decide (w.st = 0), w.s)
  let b1 := { b with whole := true, memFail := !landed.1 }
  let s1 := onPel p (fun x => { x with lmc := some b1 }) landed.2
  let ports := match g.run with | some r => r.ports | none => []
  let s2 := if landed.1 then ports.foldl (fun u q => sendSegments q b.group b.total b.bytes b.pois u) s1 else s1
  if g.tiles = 0 then lmcAnswer p 0 s2
  else
    let m : McSend := { tag := tag, part := g.owner, mask := g.tiles, off := 16 * g.toff, total := b.total
                        data := putBytes [] 0 b.bytes, pois := b.pois }
    sendPkt (reservePkt (pelocRouter p) 2 m) (onPel p (fun x => { x with send := some m }) s2)

/-! ### The root (R278, R296, R297) -/

/-- The root's report, as the multicast leaves it; `missing` is the reason of nodes that never answered. -/
def LmcRun.report (r : LmcRun) (expected missing : Nat) : Tab LmcEntry :=
  (maskNodes (expected ||| r.granted ||| r.refused)).foldl (fun m n =>
    let e := tget r.ents n
    tset m n (if r.answered.testBit n || r.refused.testBit n then e
      else { e with reason := if r.lost.testBit n then reasonTimeout else missing })) []

/-- A multicast ends at its root: the report, the counter, the final status. -/
def lmcClose (k st missing : Nat) (s : State) : State :=
  let g := tget s.groups k
  match g.run with
  | none => s
  | some r =>
    let ok := maskIn g.subtree r.delivered
    let final := if st ≠ 0 then st else if ok then stOk else stMcastPartial
    let s1 := onGroup k (fun h => { h with
      run := none, repExpected := g.subtree, repDelivered := r.delivered, repTotal := r.total, report := r.report g.subtree missing }) s
    let s2 := if ok then s1 else bump cntMcastPartial g.owner s1
    post r.ticket final [dw r.delivered, dw g.subtree] s2

/-- Steps 4 and 6 at the root, as far as the answers allow. -/
def lmcProceed (k : Nat) (s : State) : State :=
  let g := tget s.groups k
  match g.run with
  | none => s
  | some r =>
    if r.root = false ∨ maskIn g.subtree (r.granted ||| r.refused) = false then s
    else if r.dataSent then (if maskIn r.granted r.answered then lmcClose k 0 reasonTimeout s else s)
    else if r.granted = 0 then lmcClose k 0 reasonTimeout s
    else
      let w := partRead (viaPeloc (r.ports.headD 0)) g.owner r.src (16 * r.total) s
      if w.st ≠ 0 then lmcClose k w.st reasonAborted (sendAborts k g.subtree w.s)
      else r.ports.foldl (fun u p => sendSegments p k r.total w.bytes w.bad u) (onRun k (fun q => { q with dataSent := true }) w.s)

/-! ### Giving up (R308, R309, Table 08.17) -/

/-- The ports whose buffer holds a multicast of a group. -/
def lmcPorts (s : State) (k : Nat) : List Nat :=
  (List.range 16).filter (fun p => match (tget s.pel p).lmc with | some b => b.group == k | none => false)

/-- A node's landing in its tiles is given up: MC_ABORT to those that granted or have not answered (R258). -/
def abandonTiles (p : Nat) (s : State) : State :=
  match (tget s.pel p).send with
  | none => s
  | some m =>
    let hit := (maskTiles m.mask).filter (fun i => tget m.grants i ≤ 1 && tget m.results i == 0)
    let s1 := onPel p (fun x => { x with send := none }) s
    if hit = [] then s1 else sendPkt (abortPkt m (pelocRouter p) 2 (tilesMask hit)) s1

/-- A node's multicast is freed: one whose landing has not begun (Table 08.17); or, at the reset of its owner (`reset`), any, which is
answered with ABORTED (R309). -/
def lmcDrop (reset : Bool) (k : Nat) (s : State) : State :=
  (lmcPorts s k).foldl (fun u p =>
    match (tget u.pel p).lmc with
    | some b =>
      if b.whole && !reset then u
      else
        let g := tget u.groups k
        let v := abandonTiles p (onPel p (fun x => { x with lmc := none }) u)
        let v1 := if reset then
            sendTx p { ttype := ttResult, lch := g.lch, rtile := k, nmask := 2 ^ g.node, reason := reasonAborted, len := 1
                       data := List.replicate 16 0 } v
          else v
        onGroup k (fun h => { h with run := none }) v1
    | none => u) s

/-- The multicasts of a partition's groups are abandoned: at the root with LMC_ABORT for all nodes and a final status, at a
node with ABORTED (R309). -/
def abandonLmc (part st : Nat) (s : State) : State :=
  ((s.groups.filter (fun e => e.2.owner == part && e.2.run.isSome)).map Prod.fst).foldl (fun u k =>
    match (tget u.groups k).run with
    | some r => if r.root then lmcClose k st reasonAborted (sendAborts k (tget u.groups k).subtree u) else lmcDrop true k u
    | none => u) s

end Sys2Proof.Machine
end

