-- ==== Sys2Proof/Machine/TileUnits.lean ====
section
/-! DEFINITION. The expander, the array, the checker and the packer of a tile at work (R28 to R31, R144 to R149, R160 to R162, R168,
R170, R171, R176, R179, R181, R434 to R437; chapters 05 and 12). -/

namespace Sys2Proof.Machine

/-! ### EXPAND (R149, R160, R170) -/

/-- The EXPAND that is under way on a port. -/
def Tile.expander (x : Tile) (act : Bool) : Option ExpOp := if act then x.exA else x.exW

/-- Replace it. -/
def Tile.setExpander (x : Tile) (act : Bool) (e : Option ExpOp) : Tile := if act then { x with exA := e } else { x with exW := e }

/-- The unit identifier of a tile's expander. -/
def expUnit (t : Nat) : Nat := unitId 0x02 t

/-- The next EXPAND of a tile may start: its port is free, its slot is EMPTY or being filled, and no FREE of it is due. -/
def expandReady (s : State) (t : Nat) : Option UOp :=
  let x := tget s.tiles t
  match x.eq with
  | [] => none
  | o :: _ =>
    let b := o.b
    let st := (x.slot b.expAct b.eslot).st
    if !x.stalled && (x.expander b.expAct).isNone && (st == .empty || st == .filling) && !x.frees.any (fun f => f.1 == b.eslot && f.2.1 == b.expAct)
    then some o else none

/-- An EXPAND starts: its slot is FILLING, and an ordered one asks for its context. -/
def startExpand (t : Nat) (o : UOp) (s : State) : State :=
  let b := o.b
  let s0 := onTile t (fun x => { x with eq := x.eq.tail }) s
  if tileAt o.a1 ≠ some t then faultTile t stWindowFault slotExpand o.bundle s0
  else
    let s1 := onPair t (fun x => x.onSlot b.expAct b.eslot (fun k => { k with st := .filling })) s0
    let s2 := onTile t (fun x => x.setExpander b.expAct (some { op := o, addr := o.a1, off := 16 * b.boff })) s1
    match expStream (tget s2.tiles t) b with
    | none => s2
    | some n =>
      if streamsOpen s2 then askCtx (portKey (expUnit t) b.expAct) n (fillCtx n s2)
      else endTile t stCtxTableUnset slotExpand o.bundle 0 s2

/-- EXPAND (R160). -/
def expandEffect (t : Nat) (s : State) : State :=
  match expandReady s t with
  | some o => startExpand t o s
  | none => s

/-- EXPAND. -/
def execExpand (tile : Nat) (s : State) : Host.Outcome State Fault Refusal := .next (expandEffect tile s)

/-- Bytes of a tile store, with their marks. -/
def readStore (a n : Nat) (s : State) : List PByte × State :=
  let r := readPiece none { dev := a, len := n } s
  (withMarks r.1 r.2.1, r.2.2)

/-- A tile's copy of the block in hand: its bytes, and what its decoder makes of them. -/
structure Copy where
  tile : Nat := 0
  bytes : List PByte := []
  res : Except DecErr Decoded := .error {}

/-- Read and decode the stored block at a device address of a tile's store; none where it runs past the store's end, which only a header
that passes its checks can say (R68, R194). -/
def decodeCopy (di : DecIn) (u a : Nat) (s : State) : Option Copy × State :=
  let h := readStore a 16 s
  match checkFront di h.1 with
  | none => (some { tile := u, bytes := h.1, res := decodeBlock di h.1 }, h.2)
  | some hd =>
    if storeSize < (a - tileBase) % pageSize + 16 + hd.payLen then (none, h.2)
    else
      let p := readStore (a + 16) hd.payLen h.2
      (some { tile := u, bytes := h.1 ++ p.1, res := decodeBlock di (h.1 ++ p.1) }, p.2)

/-- The places of a block at `a` in a tile's store and its shadow's (R437). -/
def copyPlaces (us : List Nat) (a : Nat) : List (Nat × Nat) := us.zipIdx.map (fun x => (x.1, a + x.2 * pageSize))

/-- Every copy of the block in hand: the tile's own and its shadow's, each with its place (R437). -/
def decodeCopies (di : DecIn) : List (Nat × Nat) → State → Option (List Copy) × State
  | [], s => (some [], s)
  | (u, a) :: r, s =>
    let c := decodeCopy di u a s
    let q := decodeCopies di r c.2
    (match c.1, q.1 with | some x, some xs => some (x :: xs) | _, _ => none, q.2)

/-- What the decoder of an EXPAND holds, or why it has nothing to hold (R108, R34, R254). -/
def expDecIn (t part : Nat) (n : Option Nat) (old : OldSlots) (s : State) : Except Stop (DecIn × State) :=
  match n with
  | none => .ok ({ slots := slotsUnder s part old }, s)
  | some k =>
    let x := tget s.ctxs k
    let st := x.useStatus part false
    if st ≠ 0 then .error { st := st }
    else match readHist (viaTile t) x s with
      | .error e => .error e
      | .ok (h, s1) => .ok (x.decIn h (slotsUnder s1 part old), s1)

/-- Where the last MOVE into a place of a tile's store read from; the place itself where no MOVE filled it (R29). -/
def sourceOf (s : State) (t a : Nat) : Nat :=
  match tget (tget s.tiles t).moveSrc ((a - tileBase) % pageSize / 16) with
  | 0 => a
  | src + 1 => src

/-- The incident of a CRC-32C mismatch in the expander of tile `u`, with its block's source (Table 12.4). -/
def expRec (s : State) (t u st : Nat) (e : ExpOp) (ver : Nat) : LRec :=
  let d := checkDetail (sourceOf s t e.addr) e.op.bundle
  mkRec s kindCheck ver (expUnit u) st 1 (some (tilePart s t)) d.1 d.2

/-- An EXPAND's last block is consumable: its register advances, its slot is READY under FIN, its signal goes. -/
def endExpand (t : Nat) (e : ExpOp) (s : State) : State :=
  let b := e.op.b
  let s1 := onTile t (fun x => x.setExpander b.expAct none) s
  let s2 := if b.t 4 6 then onReg t b.treg (fun a => a.settle (e.addr - e.op.a1)) s1 else s1
  let s3 := if b.fin then onPair t (fun x => x.onSlot b.expAct b.eslot (fun k => { k with st := .ready })) s2 else s2
  let s4 := match expStream (tget s3.tiles t) b with
    | some n => releaseCtx (portKey (expUnit t) b.expAct) n s3
    | none => s3
  signalAfter 2 t e.op.bundle b s4

/-- Bytes put in a slot. -/
def fillSlot (t : Nat) (act : Bool) (k off : Nat) (data : List Byte) (s : State) : State :=
  plantWord t { act := act, slot := some k, off := off } (onTile t (fun x =>
    { x.onSlot act k (fun o => { o with data := putBytes o.data off data }) with bad := x.bad.filter (fun w => !w.inSlot act k off data.length) }) s)

/-- An access of an EXPAND or of its context cannot be made: a fence is asked again (R254), anything else ends the job. -/
def stopExpand (t : Nat) (e : ExpOp) (x : Stop) (s : State) : State :=
  match x.fence, x.again e.tries with
  | _, some f =>
    onTile t (fun y => y.setExpander e.op.b.expAct (some { e with tries := e.tries + 1 })) (turnedAway (viaTile t) (some (tilePart s t)) f s)
  | some f, none => faultTile t x.st slotExpand e.op.bundle (turnedAway (viaTile t) (some (tilePart s t)) f s)
  | none, none =>
    if x.st = stPoisonConsumed then
      endTileAt t (unitId 0x09 0) x.st slotExpand e.op.bundle 0
        (poisonMet (tilePart s t) (unitId 0x09 0) (s.cm.base.getD 0 + 64 * (expStream (tget s.tiles t) e.op.b).getD 0) e.op.bundle s)
    else faultTile t x.st slotExpand e.op.bundle s

/-- The originals of a block would pass the end of its slot (R170). -/
def overruns (e : ExpOp) (cs : List Copy) : Bool :=
  cs.any (fun c => match c.res with | .ok d => decide (slotSize e.op.b.expAct < e.off + d.orig.length) | .error _ => false)

/-- A block of an EXPAND is consumable (R28): the originals of the tile's copy and of its shadow's go to their slots; copies that were
fetched again are recorded (R442). -/
def goodBlock (t : Nat) (e e0 : ExpOp) (cs : List Copy) (s : State) : State :=
  let b := e.op.b
  let ds := cs.filterMap (fun c => match c.res with | .ok d => some (c.tile, d) | .error _ => none)
  let d := (ds.headD (0, default)).2
  let s0 := e.again.foldl (fun u k => judge (expRec u t k stOk e verTransient) (e.hit.contains k) u) s
  if overruns e cs then endTile t stSlotOverrun slotExpand e.op.bundle 0 s0
  else
    let s1 := ds.foldl (fun u x => fillSlot x.1 b.expAct b.eslot e.off x.2.orig u) s0
    let n := expStream (tget s1.tiles t) b
    let done : Except Stop State := match n with | some k => commitDecode (viaTile t) k d s1 | none => .ok s1
    match done with
    | .error x => stopExpand t e0 x s
    | .ok s2 =>
      let e1 : ExpOp := { op := e.op, addr := e.addr + 16 + d.hdr.payLen, blk := e.blk + 1, off := e.off + d.orig.length }
      if b.eblocks ≤ e1.blk then endExpand t e1 s2
      else
        let s3 := onTile t (fun x => x.setExpander b.expAct (some e1)) s2
        match n with
        | some k => boundaryCtx (portKey (expUnit t) b.expAct) k s3
        | none => s3

/-- A copy is spoilt: its CRC-32C does not match, or a fault has spoilt its original after decoding. -/
def Copy.spoilt (e : ExpOp) (c : Copy) : Bool :=
  match c.res with
  | .ok _ => e.hit.contains c.tile || e.spoilt.contains c.tile
  | .error x => x.code == errCheck

/-- The error with which a copy of a block has failed for good, if it has (Table 04.10, R29, R31). -/
def Copy.failure (e : ExpOp) (c : Copy) : Option Nat :=
  if c.spoilt e then (if e.again.contains c.tile then some errCheck else none)
  else match c.res with
    | .ok _ => none
    | .error x => some x.code

/-- A tile's copy of a block has failed for good, which ends the job of tile `t`: the failure is charged to the expander of that copy
(R191, R437).  `first`: no other copy of the block has failed. -/
def badBlock (t : Nat) (e : ExpOp) (first : Bool) (c : Copy) (code : Nat) (s : State) : State :=
  let u := c.tile
  let s1 := failDecode (expUnit u) (if first then expStream (tget s.tiles t) e.op.b else none) code s
  let s2 :=
    if code = errCheck then needConfirm u (expRec s1 t u stCheckFailed e verData) (e.hit.contains u) (kernelRuns u 0 7) s1
    else if code = errPoison then poisonMet (tilePart s t) (expUnit u) (e.addr + (u - t) * pageSize + firstBad c.bytes) e.op.bundle s1
    else s1
  match (tget s2.tiles t).prog with
  | some k => endRun k { status := errStatus code, err := code, unit := expUnit u, tile := u, tvalid := true, slotk := slotExpand, bundle := e.op.bundle } s2
  | none => s2

/-- The copies of a block that have failed for good end the job, each with its incident. -/
def badBlocks (t : Nat) (e : ExpOp) : Bool → List (Copy × Nat) → State → State
  | _, [], s => s
  | first, f :: r, s => badBlocks t e false r (badBlock t e first f.1 f.2 s)

/-- The injected faults of the expanders strike the copies of a block that decode (Table 12.7), once: a block fetched again stays struck. -/
def strikeCopies (e : ExpOp) (cs : List Copy) (s : State) : ExpOp × State :=
  if !e.again.isEmpty then (e, s)
  else cs.foldl (fun st c =>
    match c.res with
    | .ok _ => if armed st.2 (expUnit c.tile) 6 then ({ st.1 with hit := st.1.hit ++ [c.tile] }, takeInject (expUnit c.tile) 6 st.2) else st
    | .error _ => st) (e, s)

/-- What follows the decoding of every copy of a block: it is consumable, fails, or is fetched once more. -/
def decodedBlock (t : Nat) (e0 : ExpOp) (cs : List Copy) (s : State) : State :=
  let q := strikeCopies e0 cs s
  let e := q.1
  match cs.filterMap (fun c => (c.failure e).map (fun k => (c, k))) with
  | [] =>
    match (cs.filter (·.spoilt e)).map (·.tile) with
    | [] => goodBlock t e e0 cs q.2
    | us => onTile t (fun x => x.setExpander e.op.b.expAct (some { e with refetch := us, spoilt := [] })) q.2
  | fs => badBlocks t e true fs q.2

/-- The copies of the block in hand, or why there are none. -/
def blockCopies (t : Nat) (e : ExpOp) (s : State) : Except Stop (List Copy × State) :=
  if tileAt e.addr ≠ some t then .error { st := stWindowFault }
  else match expDecIn t (tilePart s t) (expStream (tget s.tiles t) e.op.b) e.old s with
    | .error x => .error x
    | .ok (di, s1) =>
      match decodeCopies di (copyPlaces (pairOf s1 t) e.addr) s1 with
      | (some cs, s2) => .ok (cs, s2)
      | (none, _) => .error { st := stWindowFault }

/-- The expander's own fault spoils the original. -/
def ExpOp.glitched (e : ExpOp) (t : Nat) (glitch : Bool) : ExpOp := if glitch then { e with spoilt := t :: e.spoilt } else e

/-- Work on the block in hand of an EXPAND. -/
def expandBlock (t : Nat) (e : ExpOp) (s : State) : State :=
  match blockCopies t e s with
  | .error x => stopExpand t e x s
  | .ok (cs, s1) => decodedBlock t e cs s1

/-- A multicast's commit holds the EXPAND reads of a block (R249). -/
def commitHolds (s : State) (t a : Nat) : Bool :=
  match (tget s.tiles t).landing with
  | some l =>
    let o := (a - tileBase) % pageSize
    let n := 16 + (parseHdr (memBytes s a 16)).payLen
    l.whole && decide (o < l.off + 16 * l.total) && decide (l.off < o + n)
  | none => false

/-- The EXPAND on a port whose next block can be worked on. -/
def blockAt (s : State) (t : Nat) (act : Bool) : Option ExpOp :=
  let x := tget s.tiles t
  match x.expander act with
  | none => none
  | some e => if !x.stalled && hasBlock s (portKey (expUnit t) act) (expStream x e.op.b) && !commitHolds s t e.addr then some e else none

/-- The EXPAND on a port that had a block in hand when the tile's run ended in this cycle. -/
def Late.expander (l : Late) (act : Bool) : Option ExpOp := if act then l.exA else l.exW

/-- The failures of a block in the cycle in which the tile's run ended (R187, R452). -/
def lateBlock (t : Nat) (act : Bool) (e : ExpOp) (s : State) : State :=
  match blockCopies t e s with
  | .error _ => s
  | .ok (cs, s1) =>
    let q := strikeCopies e cs s1
    match cs.filterMap (fun c => (c.failure q.1).map (fun k => (c, k))) with
    | [] => if overruns q.1 cs then endTile t stSlotOverrun slotExpand e.op.bundle 0 s else s
    | fs =>
      badBlocks t q.1 true fs (onTile t (fun x => { x with
        late := x.late.map (fun l => if act then { l with exA := none } else { l with exW := none }) }) q.2)

/-- A shadow's expander spoils the original of the block that its leader has in hand (R437). -/
def shadowGlitch (u : Nat) (act : Bool) (s : State) : State :=
  onTile (u - 1) (fun x => x.setExpander act ((x.expander act).map (fun e => { e with spoilt := u :: e.spoilt }))) s

/-- BLOCK_CONSUMABLE (R28).  `glitch`: the expander's own fault spoils the original; of a shadow, which works with its leader, nothing
else is told. -/
def blockConsumableEffect (t : Nat) (act glitch : Bool) (s : State) : State :=
  if isShadow s t then (if glitch then shadowGlitch t act s else s)
  else match blockAt s t act, (lateOf s t).bind (·.expander act) with
    | some e, _ => expandBlock t (e.glitched t glitch) s
    | none, some e => if e.refetch.isEmpty then lateBlock t act (e.glitched t glitch) s else s
    | none, none => s

/-- BLOCK_CONSUMABLE. -/
def execBlockConsumable (tile : Nat) (act glitch : Bool) (s : State) : Host.Outcome State Fault Refusal :=
  .next (blockConsumableEffect tile act glitch s)

/-- The runs of a block's bytes that MOVEs brought: where they came from, and where in the store they lie (R29). -/
def movedRuns (src : Tab Nat) (g : Nat) : Nat → List Chunk
  | 0 => []
  | n + 1 =>
    match tget src g, movedRuns src (g + 1) n with
    | 0, r => r
    | a + 1, c :: r => if c.src = a + 16 ∧ c.dst = 16 * g + 16 then { src := a, dst := 16 * g, len := c.len + 16 } :: r else { src := a, dst := 16 * g, len := 16 } :: c :: r
    | a + 1, [] => [{ src := a, dst := 16 * g, len := 16 }]

/-- A tile's copy of a block is written again from where it came (R29); what lies in spilled pages is counted (R36, R214). -/
def fetchAgain (t u : Nat) : List Chunk → State → Except Stop State
  | [], s => .ok s
  | c :: r, s =>
    let g := readPieces (viaTile u) (some (tilePart s t)) [pieceFor s (tilePart s t) c.src c.len] s
    if g.st ≠ 0 then .error g.stop else fetchAgain t u r (storeWrite (storeAddr u c.dst) g.bytes g.bad g.s)

/-- Every copy that failed is fetched again. -/
def fetchCopies (t : Nat) (runs : List Chunk) : List Nat → State → Except Stop State
  | [], s => .ok s
  | u :: r, s =>
    match fetchAgain t u runs s with
    | .error x => .error x
    | .ok s1 => fetchCopies t runs r s1

/-- The re-fetches of a block are counted (Table 05.14, Table 12.2). -/
def countRefetch (t : Nat) (us : List Nat) (s : State) : State :=
  us.foldl (fun v u =>
    let w := bump cntCheckRefetch (expUnit u) v
    match (tget w.tiles t).prog with
    | some k => { w with progs := tmod w.progs k (fun p => { p with refetch := p.refetch + 1 }) }
    | none => w) s

/-- A block's copies that failed have been fetched once more. -/
def fetched (t : Nat) (e : ExpOp) (s : State) : Except Stop State :=
  let hd := parseHdr (memBytes s e.addr 16)
  let g := (e.addr - tileBase) % pageSize / 16
  match fetchCopies t (movedRuns (tget s.tiles t).moveSrc g (1 + (hd.payLen + 15) / 16)) e.refetch s with
  | .error x => .error x
  | .ok s1 => .ok (countRefetch t e.refetch s1)

/-- An EXPAND whose failed copies are in place again. -/
def ExpOp.renewed (e : ExpOp) : ExpOp := { e with refetch := [], again := e.again ++ e.refetch }

/-- The limit of a window's replays is reached, or the window is replayed: a failed output (R434).  During a re-fetch of the tile's blocks
a replay waits (R40). -/
def outputFailed (t : Nat) (f : OutFail) (s : State) : State :=
  let x := tget s.tiles t
  if x.replays < 3 then (if x.stalled then onTile t (fun y => { y with due := some f }) s else replayWindow t f s)
  else
    let runs := kernelRuns t 8 27 ++ (if f.dual then kernelRuns (t + 1) 8 27 else [])
    let s1 := needConfirm t { f.rec_ with verdict := verData, status := stOutputImplausible, count := 3 } f.injected runs
      (cured (!f.injected) (if f.injected then x.lastFail else x.lastInj) s)
    endTile t stOutputImplausible slotPack f.bundle 0 s1

/-- A replay that waited for a re-fetch starts (R40). -/
def runDue (t : Nat) (s : State) : State :=
  let x := tget s.tiles t
  match x.due with
  | some f => if x.running && !x.stalled then outputFailed t f (onTile t (fun y => { y with due := none }) s) else s
  | none => s

/-- BLOCK_REFETCH (R29): the copies of the block in hand that failed are fetched and expanded once more. -/
def blockRefetchEffect (t : Nat) (act glitch : Bool) (s : State) : State :=
  match (tget s.tiles t).expander act, (lateOf s t).bind (·.expander act) with
  | some e, _ =>
    if e.refetch.isEmpty then s
    else match fetched t e s with
      | .error x => stopExpand t e x s
      | .ok s1 => runDue t (expandBlock t (e.renewed.glitched t glitch) (onTile t (fun x => x.setExpander act (some e.renewed)) s1))
  | none, some e =>
    if e.refetch.isEmpty then s
    else match fetched t e s with
      | .error _ => s
      | .ok s1 => lateBlock t act (e.renewed.glitched t glitch) s1
  | none, none => s

/-- BLOCK_REFETCH. -/
def execBlockRefetch (tile : Nat) (act glitch : Bool) (s : State) : Host.Outcome State Fault Refusal :=
  .next (blockRefetchEffect tile act glitch s)

/-! ### MAC (R144 to R146, R149, R168, R181) -/

/-- The tiles whose slots a leader's MAC reads: its gang and, under DUAL, the shadows. -/
def macTiles (s : State) (t : Nat) : List Nat := (membersOf s t).flatMap (pairOf s)

/-- Two lists of rows share one. -/
def shareRow (a b : List Nat) : Bool := a.any (fun r => b.contains r)

/-- A tile of a gang is stalled (R29). -/
def gangStalled (s : State) (t : Nat) : Bool := (membersOf s t).any (fun m => (tget s.tiles m).stalled)

/-- The next MAC of a tile may start (R149, R168). -/
def macReady (s : State) (t : Nat) : Option UOp :=
  let x := tget s.tiles t
  match x.mc, x.maq with
  | none, o :: _ =>
    let b := o.b
    let slots := (macTiles s t).all (fun u =>
      let y := tget s.tiles u
      decide ((y.slot false b.wslot).st = .ready) && decide ((y.slot true b.aslot).st = .ready))
    let packs := x.pq.all (fun p => decide (o.no ≤ p.no) || !shareRow p.b.packRows b.macRows)
    if slots && packs && !gangStalled s t then some o else none
  | _, _ => none

/-- Both slots of a MAC take a state on every tile that it reads. -/
def macSlots (t : Nat) (b : Bundle) (w a : SlotState) (s : State) : State :=
  (macTiles s t).foldl (fun u k =>
    onTile k (fun x => (x.onSlot false b.wslot (fun o => { o with st := w })).onSlot true b.aslot (fun o => { o with st := a })) u) s

/-- The bad words that a tile's MAC reads, on every tile that it reads. -/
def macBad (s : State) (t : Nat) (b : Bundle) : List (Nat × BadWord) :=
  (macTiles s t).flatMap (fun u => (macReads (tget s.tiles u) b ((pairOf s t).contains u)).map (fun w => (u, w)))

/-- An operation of a tile whose run ended in this cycle reads a word that its code finds uncorrectable (R452). -/
def lateEcc (t unit slotk : Nat) (o : Option UOp) (found : EccFinding) (s : State) : State :=
  match o with
  | some p => if fatalEcc found then arrayDies t unit slotk p.bundle (arrayEcc t (tilePart s t) [] found s) else s
  | none => s

/-- MAC: it starts reading its slots (R145, R149); an uncorrectable word ends its job (Table 12.8).  `found`: what the code finds. -/
def macEffect (t : Nat) (found : EccFinding) (s : State) : State :=
  match macReady s t with
  | none => lateEcc t (unitId 0x01 t) slotMac ((lateOf s t).bind (·.maq.head?)) found s
  | some o =>
    let ws := macBad s t o.b
    let s1 := arrayEcc t (tilePart s t) ws found s
    if arrayFatal ws found then arrayDies t (unitId 0x01 t) slotMac o.bundle s1
    else macSlots t o.b .inUse .inUse (onTile t (fun x => { x with maq := x.maq.tail, mc := some { op := o } }) s1)

/-- MAC. -/
def execMac (tile : Nat) (found : EccFinding) (s : State) : Host.Outcome State Fault Refusal := .next (macEffect tile found s)

/-- One row's result on one column of tiles: the accumulators are the leader's (R181). -/
def macResult (leader : Nat) (ms : List Nat) (b : Bundle) (i : Nat) (s : State) : State :=
  let r := macRow (ms.map (tget s.tiles)) (tget s.tiles leader).acc b i
  let row := b.maccr + i * b.mstep
  bumpBy cntAccSaturate (unitId 0x01 leader) r.2 (plantWord leader { off := 64 * row }
    (onTile leader (fun x => { x with acc := r.1, bad := x.bad.filter (fun w => !w.inRow row) }) s))

/-- A MAC has ended: its slots return to READY or, released, to EMPTY; the frees that waited for it act; its signal goes. -/
def endMac (t : Nat) (o : UOp) (s : State) : State :=
  let b := o.b
  let s1 := macSlots t b (if b.wrel then .empty else .ready) (if b.arel then .empty else .ready)
    (onTile t (fun x => { x with mc := none }) s)
  signalAfter 3 t o.bundle b ((membersOf s1 t).foldl (fun u m => applyFrees m u) s1)

/-- Errors of the array's logic in a row's results, as (column, what is added); nothing detects them here. -/
def spoilRow (t row : Nat) (es : List (Nat × Int)) (s : State) : State :=
  let add := fun (a : Acc) (e : Int) => { a with raw := match a.kind with | .fp32 => (a.raw + e) % 2 ^ 32 | k => (a.raw + e) % k.limit }
  es.foldl (fun u e => if e.1 < 64 then onTile t (fun x => { x with acc := tmod x.acc (64 * row + e.1) (fun a => add a e.2) }) u else u) s

/-- The errors of one tile of a pair. -/
def errorsOf (shadow : Bool) (wrong : List (Bool × Nat × Int)) : List (Nat × Int) := (wrong.filter (·.1 == shadow)).map Prod.snd

/-- ROW_RESULT_WRITTEN (R146).  `wrong`: what the array's logic gets wrong, on the tile and on its shadow (`true`). -/
def rowResultWrittenEffect (t : Nat) (wrong : List (Bool × Nat × Int)) (s : State) : State :=
  match (tget s.tiles t).mc.filter (fun _ => !gangStalled s t) with
  | none => s
  | some m =>
    let b := m.op.b
    let ms := membersOf s t
    let row := b.maccr + m.row * b.mstep
    let s1 := spoilRow t row (errorsOf false wrong) (macResult t ms b m.row s)
    let s2 := match shadowOf s t with
      | some u => spoilRow u row (errorsOf true wrong) (macResult u (ms.map (· + 1)) b m.row s1)
      | none => s1
    if m.row + 1 < b.mrows then onTile t (fun x => { x with mc := some { m with row := m.row + 1 } }) s2 else endMac t m.op s2

/-- ROW_RESULT_WRITTEN. -/
def execRowResultWritten (tile : Nat) (wrong : List (Bool × Nat × Int)) (s : State) : Host.Outcome State Fault Refusal :=
  .next (rowResultWrittenEffect tile wrong s)

/-! ### PACK and the checker (R162, R168, R179, R434 to R437) -/

/-- The next PACK of a tile may read its rows. -/
def packReady (s : State) (t : Nat) : Option UOp :=
  let x := tget s.tiles t
  match x.pk, x.pq with
  | none, o :: _ =>
    let clear := fun (m : UOp) => decide (o.no < m.no) || !shareRow m.b.macRows o.b.packRows
    if !x.stalled && x.maq.all clear && (match x.mc with | some m => clear m.op | none => true) then some o else none
  | _, _ => none

/-- The bound entry of a PACK; none for no check. -/
def packBound (x : Tile) (b : Bundle) : Option Nat :=
  let i := (x.streams.getD b.psidx (0, 0)).2
  if i = 0xFF then none else some i

/-- A PACK is tested for plausibility under a check mode (Table 12.9, R436). -/
def packTested (p : Prog) (packNo : Nat) : Bool :=
  match p.mode with
  | .off => false
  | .sampled => packNo % 2 ^ p.log2n == 0
  | .dual => true

/-- The bad words that a tile's PACK reads, its shadow's included. -/
def packBad (s : State) (t : Nat) (b : Bundle) : List (Nat × BadWord) :=
  (pairOf s t).flatMap (fun u => (packReads (tget s.tiles u) b).map (fun w => (u, w)))

/-- A PACK's rows are read and converted; under DUAL they are compared with the shadow's.  DESIGN CHOICE: the elements that saturate or
lose a NaN are counted here, for a PACK that then fails and is discarded as well, and again at its replay (R98, R176, assumption 157). -/
def packRead (t : Nat) (o : UOp) (s : State) : State :=
  let x := tget s.tiles t
  let b := o.b
  let p := progOf s t
  let c := packConv x b
  let bd := packBound x b
  let k0 : PackOp := match bd with | some i => packFindings b (x.bounds.getD i {}) c | none => { bytes := c.bytes, elems := c.elems.map (fun e => BitVec.ofNat 8 e.x) }
  let tested := bd.isSome && packTested p x.packNo
  let differs := match shadowOf s t with
    | some u => firstDiff 0 c.bytes (packConv (tget s.tiles u) b).bytes
    | none => none
  let k := { k0 with op := o, tested := tested, differs := differs, passed := !tested && p.mode != .dual }
  countConv (unitId 0x03 t) c (onTile t (fun y => { y with
    pq := y.pq.tail, pk := some k, packNo := if bd.isSome then y.packNo + 1 else y.packNo }) s)

/-- PACK: the rows are read and converted (R162); an uncorrectable word ends the job (Table 12.8).  `found`: what the code finds. -/
def packEffect (t : Nat) (found : EccFinding) (s : State) : State :=
  match packReady s t with
  | none => lateEcc t (unitId 0x03 t) slotPack ((lateOf s t).bind (·.pq.head?)) found s
  | some o =>
    let ws := packBad s t o.b
    let s1 := arrayEcc t (tilePart s t) ws found s
    if arrayFatal ws found then arrayDies t (unitId 0x03 t) slotPack o.bundle s1 else packRead t o s1

/-- PACK. -/
def execPack (tile : Nat) (found : EccFinding) (s : State) : Host.Outcome State Fault Refusal := .next (packEffect tile found s)

/-- The PLAUSIBILITY record of a PACK (Table 12.4). -/
def plausRec (s : State) (t : Nat) (k : PackOp) : LRec :=
  let i := (packBound (tget s.tiles t) k.op.b).getD 0
  mkRec s kindPlaus verTransient (unitId 0x01 t) stOk 0 (some (tilePart s t)) k.op.bundle
    (i + 2 ^ 8 * min k.outs 255 + 2 ^ 16 * b2n (k.nans != 0) + 2 ^ 17 * b2n (k.infs != 0) + 2 ^ 18 * b2n (k.sats != 0))

/-- The DUAL_MISMATCH record of a PACK. -/
def dualRec (s : State) (t : Nat) (k : PackOp) : LRec :=
  mkRec s kindDual verTransient (unitId 0x01 t) stOk 0 (some (tilePart s t)) k.op.bundle (t + 1 + 2 ^ 8 * (k.differs.getD 0 / 64 % 256))

/-- What the checker decides of a PACK, with the state after its counts and the faults it took: the failure, if it fails (R179, R437,
R453, Table 12.7).  An injected plausibility failure strikes the same PACK at every replay; an injected mismatch strikes once. -/
def decidePack (t : Nat) (k : PackOp) (glitch : Bool) (s : State) : Option OutFail × State :=
  let x := tget s.tiles t
  let u := unitId 0x05 t
  let v := unitId 0x01 t
  let bd := match packBound x k.op.b with | some i => x.bounds.getD i {} | none => {}
  let again := decide (x.failing = some x.tally.packs)
  let plausInj := k.tested && (again || armed s u 7)
  let s1 := if plausInj && !again then takeInject u 7 (onTile t (fun y => { y with failing := some y.tally.packs }) s) else s
  let dualInj := decide ((progOf s t).mode = .dual) && armed s1 v 8
  let s2 := if dualInj then takeInject v 8 s1 else s1
  let real := k.tested && (k.implausible bd || glitch)
  let s3 := if k.tested then bump cntPlausChecked u s2 else s2
  let s4 := if real || plausInj then bump cntPlausFail u s3 else s3
  let s5 := if k.differs.isSome || dualInj then bump cntDualMismatch v s4 else s4
  if k.differs.isSome || dualInj then (some { bundle := k.op.bundle, rec_ := dualRec s5 t k, injected := k.differs.isNone, dual := true }, s5)
  else if real || plausInj then (some { bundle := k.op.bundle, rec_ := plausRec s5 t k, injected := !real }, s5)
  else (none, s5)

/-- The checker decides in the cycle in which the tile's run ended: only a fourth failure is an incident there (R452). -/
def lateDecision (t : Nat) (l : Late) (glitch : Bool) (s : State) : State :=
  match l.pk with
  | none => s
  | some k =>
    if k.passed || decide (l.replays < 3) then s
    else
      let r := decidePack t k glitch s
      match r.1 with
      | some f => outputFailed t f (onTile t (fun x => { x with replays := 3, late := some { l with pk := none } }) r.2)
      | none => s

/-- PLAUSIBILITY_DECISION (R179, R437, R453).  `glitch`: the checker's own logic fails a tested PACK. -/
def plausibilityDecisionEffect (t : Nat) (glitch : Bool) (s : State) : State :=
  let x := tget s.tiles t
  match x.pk, lateOf s t with
  | some k, _ =>
    if k.passed || x.due.isSome then s
    else
      let r := decidePack t k glitch s
      match r.1 with
      | some f => outputFailed t f r.2
      | none => onTile t (fun y => { y with pk := some { k with passed := true } }) r.2
  | none, some l => lateDecision t l glitch s
  | none, none => s

/-- PLAUSIBILITY_DECISION. -/
def execPlausibilityDecision (tile : Nat) (glitch : Bool) (s : State) : Host.Outcome State Fault Refusal :=
  .next (plausibilityDecisionEffect tile glitch s)

/-! ### Packing (R109, R134, R162, R171) -/

/-- A packer's unit identifier and key. -/
def packUnit (t : Nat) : Nat := unitId 0x03 t

/-- Granules of a store that no MOVE brought: `n` from `g`. -/
def Tile.dropSources (g n : Nat) (x : Tile) : Tile :=
  { x with moveSrc := tfilter (fun i _ => decide (i < g) || decide (g + n ≤ i)) x.moveSrc }

/-- Write a block for a tile's packer; what lands in a tile's store comes from no MOVE. -/
def packWrite (t part a : Nat) (data : List Byte) (s : State) : Except Stop State :=
  match xlate s part true a data.length with
  | .error e => .error { st := e }
  | .ok ps =>
    let g := writePieces (viaTile t) (some part) ps data [] s
    if g.st ≠ 0 then .error g.stop
    else .ok (ps.foldl (fun u p =>
      match tileAt p.dev with
      | some k => onTile k (Tile.dropSources ((p.dev - tileBase) % pageSize / 16) (p.len / 16)) u
      | none => u) g.s)

/-- Units of a stream's block that is not full yet: in the pending area, or in the packer (R109, R134). -/
def packPending (t n : Nat) (s : State) : Except Stop (List PByte × State) :=
  let x := tget s.ctxs n
  if x.pendok then
    match readPending (viaTile t) x s with
    | .error e => .error e
    | .ok (ps, s1) => .ok (pendingUnits s1 n x ps, s1)
  else .ok ((tget (tget s.tiles t).partials n).map (·, false), s)

/-- Keep them. -/
def packKeep (t n : Nat) (us : List PByte) (s : State) : Except Stop State :=
  if (tget s.ctxs n).pendok then setPendingUnits (viaTile t) n us s
  else .ok (onTile t (fun x => { x with partials := tset x.partials n (us.map Prod.fst) }) s)

/-- Form one block at an address: the bytes written, or why it cannot be. -/
def packBlock (t n a : Nat) (r : FormReq) (s : State) : Except Stop (Nat × State) :=
  match formBlock (viaTile t) (tget s.ctxs n) r s with
  | .error e => .error e
  | .ok (b, poison, s1) =>
    match packWrite t (tilePart s t) a b.bytes s1 with
    | .error e => .error e
    | .ok s2 =>
      match commitEncode (viaTile t) n b poison s2 with
      | .error e => .error e
      | .ok s3 =>
        let s4 := if b.hdr.raw then bump cntCodecRaw (packUnit t) s3 else s3
        .ok (b.bytes.length, match (tget s4.tiles t).prog with
          | some k => { s4 with progs := tmod s4.progs k (fun p => { p with poisoned := p.poisoned + b2n poison }) }
          | none => s4)

/-- A PACK has been written: its register advances, its tally and length are kept, its signal goes, and its context is released unless a
block of it has begun (R110). -/
def endPack (t n : Nat) (o : UOp) (len : Nat) (rest : Bool) (s : State) : State :=
  let b := o.b
  let s1 := onTile t (fun x => { x with
    pk := none
    tally := { x.tally with packs := x.tally.packs + 1 }
    packLens := x.packLens ++ [len]
    a := if b.pdinc then tmod x.a b.pdreg (fun r => r.settle len) else x.a }) s
  signalAfter 4 t o.bundle b (if rest then s1 else releaseCtx (packUnit t) n s1)

/-- An access of a packer cannot be made: a fence is asked again (R254), anything else ends the job. -/
def stopPack (t : Nat) (k : PackOp) (x : Stop) (s : State) : State :=
  match x.fence, x.again k.tries with
  | _, some f => onTile t (fun y => { y with pk := some { k with tries := k.tries + 1 } }) (turnedAway (viaTile t) (some (tilePart s t)) f s)
  | some f, none => faultTile t x.st slotPack k.op.bundle (turnedAway (viaTile t) (some (tilePart s t)) f s)
  | none, none => faultTile t x.st slotPack k.op.bundle s

/-- The packer forms the full blocks that a PACK's units make, and the flushed one, and keeps the rest (R134, R162); at each block's end
the context goes to those who wait (R110), and the PACK goes on when it has the context again. -/
def packBlocks : Nat → Nat → Nat → PackOp → State → State
  | 0, _, _, _, s => s
  | f + 1, t, n, k, s =>
    let x := tget s.ctxs n
    let us := k.todo.getD []
    let m := unitsPerBlock x.enc x.blklen
    let full := decide (m ≤ us.length) && m != 0
    let j := if full then m else if k.op.b.pflush then flushTake x.enc us.length else 0
    if j = 0 then
      match packKeep t n us s with
      | .error e => stopPack t k e s
      | .ok s1 => endPack t n k.op k.len (!us.isEmpty) s1
    else match packBlock t n (k.op.a1 + k.len) { data := unitBytes x.enc (us.take j), flushed := !full } s with
      | .error e => stopPack t k e s
      | .ok (w, s1) =>
        let k1 := { k with todo := some (us.drop j), len := k.len + w, tries := 0 }
        let s2 := boundaryCtx (packUnit t) n (onTile t (fun y => { y with pk := some k1 }) s1)
        if holdsCtx s2 (packUnit t) n then packBlocks f t n k1 s2 else s2

/-- A PACK's units join those that wait on its stream. -/
def packGather (t n : Nat) (k : PackOp) (s : State) : State :=
  match k.todo with
  | some us => packBlocks (us.length + 2) t n k s
  | none =>
    match packPending t n s with
    | .error e => stopPack t k e s
    | .ok (p, s1) =>
      let x := tget s1.ctxs n
      let k1 := { k with todo := some (p ++ (if x.enc.six then k.elems else k.bytes).map (·, false)) }
      let s2 := setCtx n x.unpend { s1 with cm := { s1.cm with pendElems := tdel s1.cm.pendElems n } }
      packBlocks ((k1.todo.getD []).length + 2) t n k1
        (onTile t (fun y => { y with pk := some k1, partials := tdel y.partials n }) s2)

/-- The packer holds the context of a passed PACK: its bytes go into it (R171). -/
def writePack (t n : Nat) (k : PackOp) (s : State) : State :=
  let part := tilePart s t
  let b := k.op.b
  let x := tget s.ctxs n
  let st := x.useStatus part true
  if st = stPoisonConsumed then
    endTileAt t (unitId 0x09 0) st slotPack k.op.bundle 0 (poisonMet part (unitId 0x09 0) (s.cm.base.getD 0 + 64 * n) k.op.bundle s)
  else if st ≠ 0 then endTile t st slotPack k.op.bundle 0 s
  else if b.cfmt ≠ x.fmt ∨ b.cbs ≠ x.bscale then endTile t stStreamFormat slotPack k.op.bundle 0 s
  else packGather t n k s

/-- A passed PACK asks for its context, and with it writes its output. -/
def packOut (t : Nat) (k : PackOp) (s : State) : State :=
  let n := ((tget s.tiles t).streams.getD k.op.b.psidx (0, 0)).1
  if !streamsOpen s then endTile t stCtxTableUnset slotPack k.op.bundle 0 s
  else
    let s1 := askCtx (packUnit t) n (fillCtx n s)
    if holdsCtx s1 (packUnit t) n then writePack t n k s1 else s1

/-- PACK_OUTPUT_WRITTEN (R171).  `found`: what the code of the staging buffer finds (R431). -/
def packOutputWrittenEffect (t : Nat) (found : EccFinding) (s : State) : State :=
  let x := tget s.tiles t
  match x.pk, (lateOf s t).bind (·.pk) with
  | some k, _ =>
    if !k.passed || x.stalled then s
    else
      let s1 := countEcc (unitId 0x01 t) found s
      if fatalEcc found then arrayDies t (packUnit t) slotPack k.op.bundle s1 else packOut t k s1
  | none, some k =>
    if k.passed && fatalEcc found then arrayDies t (packUnit t) slotPack k.op.bundle (countEcc (unitId 0x01 t) found s) else s
  | none, none => s

/-- PACK_OUTPUT_WRITTEN. -/
def execPackOutputWritten (tile : Nat) (found : EccFinding) (s : State) : Host.Outcome State Fault Refusal :=
  .next (packOutputWrittenEffect tile found s)

end Sys2Proof.Machine
end

