-- ==== Sys2Proof/Machine/Noc.lean ====
section
/-! DEFINITION. Packets of the on-chip network arriving at their endpoints, multicasts landing, timers and fence retries (R232,
R240 to R246, R248 to R261; chapter 07). -/

namespace Sys2Proof.Machine

/-! ### Arrival (R244, R245) -/

/-- A packet that has arrived, with the damage the endpoint finds and the part of it that was injected; `came`: it has arrived. -/
structure Arrived where
  k : NocPkt := {}
  real : Damage := {}
  forced : Damage := {}
  came : Bool := true

/-- The links that the copies of a packet have crossed, each once. -/
def pathOf (ts : List Transit) : List Crossing := (ts.flatMap (·.path)).eraseDups

/-- A packet arrives, observed on its way.  One that the network holds is carried there by the mesh, with everything else that moves
meanwhile, and brings the damage that an injection did to it; another is from outside the model's units. -/
def arrive (k : NocPkt) (d : Damage) (s : State) : Arrived × State :=
  if !carries s then ({ k := k, came := false }, s)
  else if !netHolds s k then ({ k := k, real := d }, observePkt k s)
  else
    let n := runMesh k (meshFuel s) (s.flights, s.mesh)
    let ts := n.2.arrived k
    let t := { s with flights := n.1, mesh := { n.2 with out := n.2.out.filter (fun u => !ts.contains u) } }
    match ts with
    | [] => ({ k := k, came := false }, t)
    | x :: _ => ({ k := k, real := d, forced := x.d }, observeOn k (pathOf ts) t)

/-- An endpoint at router `r` takes a packet: a damaged header discards it, damaged sectors are poisoned. -/
def receive (r : Nat) (a : Arrived) (act : NocPkt → State → State) (s : State) : State :=
  if a.real.header || a.forced.header then
    dropPkt r (parityRec a.k r 0 (!a.real.header) s)
  else
    let n := (a.k.data.length + 31) / 32
    let bad := a.real.sectors.filter (· < n)
    let inj := a.forced.sectors.filter (fun i => decide (i < n) && !bad.contains i)
    act { a.k with pois := (a.k.pois ++ bad ++ inj).eraseDups } (countParity a.k r true inj (countParity a.k r false bad s))

/-- A unicast packet of type `t` arrives where its header says; one that names no endpoint ends at local port 0 of the router that has no
output for it, and one of no assigned type, or with a bad header, is discarded (R232, R245). -/
def unicast (t : Nat) (k : NocPkt) (d : Damage) (act : NocPkt → State → State) (s : State) : State :=
  if k.typ ≠ t ∧ typeAssigned k.typ = true then s
  else
    let a := arrive k d s
    if !a.1.came then a.2
    else if 99 < k.dest then dropPkt k.src (bump cntNocMisroute (routerUnit k.src) a.2)
    else if !localPort k.dest k.dport then dropPkt k.dest (bump cntNocMisroute (routerUnit k.dest) a.2)
    else if badHeader k then dropPkt k.dest a.2
    else receive k.dest a.1 act a.2

/-- A multicast packet of type `t` arrives at every tile of its mask (R237). -/
def multicast (t : Nat) (k : NocPkt) (d : Damage) (act : Nat → NocPkt → State → State) (s : State) : State :=
  if k.typ ≠ t ∧ typeAssigned k.typ = true then s
  else
    let a := arrive k d s
    if !a.1.came then a.2
    else (maskTiles k.mask).foldl (fun u i => if badHeader k then dropPkt (tileRouter i) u else receive (tileRouter i) a.1 (act i) u) a.2

/-! ### Requests at their targets (R232, R243, R253) -/

/-- A refusal. -/
def nackPkt (k : NocPkt) (st hint : Nat) (s : State) : State := sendPkt (answerPkt k 0x0A st hint [] []) s

/-- A refusal by a fence, counted at the requester's router (R253, R254, Table 12.2). -/
def fenceNack (k : NocPkt) (hint : Nat) (s : State) : State :=
  nackPkt k stDomainFenced hint (bump cntNocFenceNack (routerUnit k.src) s)

/-- The domain of an endpoint (R252). -/
def domainOf (r q : Nat) : Option Nat :=
  match routerTile r with
  | some t => if q = 0 then some (quadOf t) else none
  | none => if q = 2 then (routerPeloc r).map (0x10 + ·) else none

/-- The fence before an endpoint. -/
def fenceBefore (s : State) (k : NocPkt) : Option Nat := (domainOf k.dest k.dport).bind (fenceOf s)

/-- A memory endpoint carries out a read or a write at a device address; the host interface reads host memory as bus master and answers
when the read has ended, and an access that it cannot send fails (R212, R215). -/
def serveMem (k : NocPkt) (s : State) : State :=
  if k.typ = 0x01 then
    match levelOf k.addr, s.hostSpill with
    | .host, some r =>
      if noTransport s k.addr then readFailed k s else hostRead r.fn (r.base + (k.addr - hostBase)) (16 * k.len) (.noc k) s
    | .host, none => readFailed k s
    | _, _ =>
      let r := readPiece none { dev := k.addr, len := 16 * k.len } s
      sendPkt (answerPkt k 0x08 0 0 r.1 (toSectors r.2.1)) r.2.2
  else
    let s1 := storeWrite k.addr k.data (toGranules k.pois) s
    sendPkt (answerPkt k 0x09 0 0 [] []) (if noTransport s k.addr then accessFailed k s1 else s1)

/-- A tile endpoint's checks (R243, R437): the status of the first that fails, or 0. -/
def tileCheck (s : State) (t : Nat) (k : NocPkt) : Nat :=
  if isShadow s t then stTileBusy
  else if !k.sys && (tget s.tiles t).owner != some k.part then stTileNotOwned
  else if k.typ = 0x03 then 0
  else if levelOf k.addr = .tile t ∧ (k.len = 0 ∨ levelOf (k.addr + 16 * k.len - 1) = .tile t) then 0
  else stWindowFault

/-- A tile endpoint takes an RD, WR or TOKEN. -/
def serveTile (t : Nat) (k : NocPkt) (s : State) : State :=
  let st := tileCheck s t k
  if st ≠ 0 then nackPkt k st 0 s
  else if k.typ = 0x03 then addTokens t k.tcnt (k.tval + 1) (sendPkt (answerPkt k 0x09 0 0 [] []) s)
  else serveMem k s

/-- A target takes an RD, WR or TOKEN: a tile, a Peloc port, the host interface, a memory.  An endpoint that serves no such request refuses
it with ST_WINDOW_FAULT (R232; the status is the model's, assumption 144). -/
def serveReq (k : NocPkt) (s : State) : State :=
  match fenceBefore s k with
  | some h => fenceNack k h s
  | none =>
    match routerTile k.dest with
    | some t => serveTile t k s
    | none =>
      match (if k.dport = 2 then routerPeloc k.dest else none) with
      | some p => chipToPort p k s
      | none =>
        if k.typ ≠ 0x03 ∧ placeOf k.addr = (k.dest, k.dport) ∧ levelOf k.addr ≠ .nothing then serveMem k s
        else nackPkt k stWindowFault 0 s

/-- RD (R240). -/
def rdEffect (k : NocPkt) (d : Damage) (s : State) : State := unicast 0x01 k d serveReq (spoilWords d.ecc s)
/-- RD. -/
def execRd (k : NocPkt) (d : Damage) (s : State) : Host.Outcome State Fault Refusal := .next (rdEffect k d s)

/-- WR (R240). -/
def wrEffect (k : NocPkt) (d : Damage) (s : State) : State := unicast 0x02 k d serveReq s
/-- WR. -/
def execWr (k : NocPkt) (d : Damage) (s : State) : Host.Outcome State Fault Refusal := .next (wrEffect k d s)

/-- TOKEN (R232). -/
def tokenEffect (k : NocPkt) (d : Damage) (s : State) : State := unicast 0x03 k d serveReq s
/-- TOKEN. -/
def execToken (k : NocPkt) (d : Damage) (s : State) : Host.Outcome State Fault Refusal := .next (tokenEffect k d s)

/-- The key of a configuration byte of an endpoint. -/
def cfgKey (k : NocPkt) (i : Nat) : Nat := 2 ^ 48 * (8 * k.dest + k.dport) + k.addr + i

/-- A configuration byte as it reads: what was written last, or, where nothing was, a free value (assumption 3). -/
def cfgByte (s : State) (k : NocPkt) (i : Nat) : Byte := (tget s.mesh.cfg (cfgKey k i)).getD ((Config.freeValue (s.freeCtr + i)).truncate 8)

/-- A configuration write. -/
def cfgPut (k : NocPkt) (s : State) : State :=
  { s with mesh := { s.mesh with cfg := k.data.zipIdx.foldl (fun m x => tset m (cfgKey k x.2) (some x.1)) s.mesh.cfg } }

/-- A configuration access: SYS alone has one; what a unit's configuration holds before it is written is open (R232, assumption 144). -/
def serveCfg (k : NocPkt) (s : State) : State :=
  match fenceBefore s k with
  | some h => fenceNack k h s
  | none =>
    if !k.sys then nackPkt k stWindowFault 0 s
    else if k.typ = 0x04 then
      sendPkt (answerPkt k 0x08 0 0 ((List.range (16 * k.len)).map (cfgByte s k)) []) { s with freeCtr := s.freeCtr + 16 * k.len }
    else sendPkt (answerPkt k 0x09 0 0 [] []) (cfgPut k s)

/-- CFG_RD (R232). -/
def cfgRdEffect (k : NocPkt) (d : Damage) (s : State) : State := unicast 0x04 k d serveCfg s
/-- CFG_RD. -/
def execCfgRd (k : NocPkt) (d : Damage) (s : State) : Host.Outcome State Fault Refusal := .next (cfgRdEffect k d s)

/-- CFG_WR (R232). -/
def cfgWrEffect (k : NocPkt) (d : Damage) (s : State) : State := unicast 0x05 k d serveCfg s
/-- CFG_WR. -/
def execCfgWr (k : NocPkt) (d : Damage) (s : State) : Host.Outcome State Fault Refusal := .next (cfgWrEffect k d s)

/-! ### Inbound Peloc transactions on the chip (R290, R292, R294) -/

/-- Change an inbound transaction. -/
def onInb (p id : Nat) (f : InTx → InTx) (s : State) : State :=
  onPel p (fun x => { x with inb := x.inb.map (fun i => if i.id = id then f i else i) }) s

/-- The response of an inbound transaction whose on-chip requests have all been answered. -/
def InTx.response (i : InTx) : PelTx :=
  if i.status ≠ 0 then { ttype := ttNack, lch := i.tx.lch, tag := i.tx.tag, status := i.status, hint := i.hint }
  else if i.tx.ttype = ttRd then
    { ttype := ttRdData, lch := i.tx.lch, tag := i.tx.tag, len := i.tx.len, pmask := toLink i.pois
      data := (List.range (16 * i.tx.len)).map (tget i.data) }
  else { ttype := ttAck, lch := i.tx.lch, tag := i.tx.tag }

/-- A request of an inbound transaction still waits for a tag or for room. -/
def inbWaits (s : State) (p id : Nat) : Bool :=
  s.netq.any (fun x => match x.2 with | .pelocIn q i _ => q == p && i == id | _ => false)

/-- An inbound transaction gives its flits of the receive buffer back once its last request has left: until then it presses back on the
link (R287). -/
def payCredit (p id : Nat) (s : State) : State :=
  match (tget s.pel p).inb.find? (fun i => i.id == id) with
  | some i =>
    if i.owed = 0 ∨ inbWaits s p id = true then s
    else freeFlits p i.tx.vc i.owed (onInb p id (fun j => { j with owed := 0 }) s)
  | none => s

/-- Once nothing is awaited, the response goes out. -/
def settleInb (p id : Nat) (s : State) : State :=
  let t := payCredit p id s
  match (tget t.pel p).inb.find? (fun i => i.id == id) with
  | some i => if i.left = 0 then sendTx p i.response (onPel p (fun x => { x with inb := x.inb.erase i }) t) else t
  | none => t

/-- One on-chip answer to an inbound transaction. -/
def inbAnswer (p id : Nat) (f : InTx → InTx) (s : State) : State :=
  settleInb p id (onInb p id (fun i => { f i with left := i.left - 1 }) s)

/-! ### Multicasts at their sender (R248, R250, R251) -/

/-- The MC_DATA packets of a multicast.  DEDUCED: MASK names the tiles that granted, as step 3 of Table 07.11 and the chapter's example
have it, where R250 says that every packet carries the MASK of the MC_RESERVE (assumption 160). -/
def mcDataPkts (r q : Nat) (m : McSend) : List NocPkt :=
  let mask := tilesMask ((maskTiles m.mask).filter (fun i => tget m.grants i == 1))
  (List.range ((m.total + 255) / 256)).map (fun i =>
    let n := min 256 (m.total - 256 * i)
    { typ := 0x11, vn := 2, src := r, sport := q, part := m.part, tag := m.tag, len := n, addr := m.off + 4096 * i, mask := mask
      data := (List.range (16 * n)).map (fun j => tget m.data (4096 * i + j))
      pois := toSectors ((m.pois.filter (fun g => decide (256 * i ≤ g) && decide (g < 256 * i + n))).map (· - 256 * i)) })

/-- With every grant and all source data in, the data go out (step 3 of Table 07.11). -/
def tryMcData (r q : Nat) (s : State) : State :=
  match sendAt s r q with
  | none => s
  | some m =>
    if m.active = 0 ∧ m.granted = true ∧ m.sent = false ∧ (maskTiles m.mask).any (fun i => tget m.grants i == 1) = true then
      (mcDataPkts r q m).foldl (fun u k => sendPkt k u) (setSend r q (some { m with sent := true }) s)
    else s

/-- Change the multicast of an endpoint with a tag, and go on with it. -/
def onMc (r q tag : Nat) (f : McSend → McSend) (s : State) : State :=
  match sendAt s r q with
  | none => s
  | some m =>
    if m.tag = tag then
      let t := tryMcData r q (setSend r q (some (f m)) s)
      match routerPeloc r with
      | some p => if q = 2 then lmcLanded p t else t
      | none => t
    else s

/-! ### Responses at their requester (R242, R246, R254) -/

/-- A response without an outstanding request (R246). -/
def lateResponse (k : NocPkt) (s : State) : State := bump cntNocLate (routerUnit k.dest) s

/-- Marks of a payload as granules of `n` bytes. -/
def payloadMarks (k : NocPkt) (n : Nat) : List Nat := (toGranules k.pois).filter (fun g => decide (16 * g < n))

/-- A tile's read has come: the data of a COPY go on to their destination, those of an MCAST into the send buffer. -/
def readCame (x : NocReq) (data : List Byte) (marks : List Nat) (s : State) : State :=
  match x.why with
  | .moveRead t c => sendReq (wrPkt (tileRouter t) 0 x.pkt.part false c.dst data (toSectors marks)) (.moveWrite t) s
  | .mcRead t _ off =>
    match sendAt s (tileRouter t) 0 with
    | some m => onMc (tileRouter t) 0 m.tag (fun m => { m with
        data := putBytes m.data off data, pois := m.pois ++ marks.map (· + off / 16), active := m.active - 1 }) s
    | none => s
  | .tailRead t c => sendReq (wrPkt (tileRouter t) 0 x.pkt.part false c.dst data (toSectors marks)) (.tailWrite t) s
  | .pelocIn p id off => inbAnswer p id (fun i => { i with data := putBytes i.data off data, pois := i.pois ++ marks.map (· + off / 16) }) s
  | _ => s

/-- One run of a COPY has landed. -/
def moveLanded (t : Nat) (s : State) : State :=
  onTile t (fun x => { x with mv := x.mv.map (fun m => { m with active := m.active - 1 }) }) s

/-- An acknowledgement has come. -/
def ackCame (x : NocReq) (s : State) : State :=
  match x.why with
  | .moveWrite t => moveLanded t s
  | .pelocIn p id _ => inbAnswer p id (fun i => i) s
  | .owl rs => owlWritten rs s
  | _ => s

/-- The bundle of a tile's MOVE that is under way. -/
def moveBundle (s : State) (t : Nat) : Nat :=
  let x := tget s.tiles t
  match x.mv, x.send with
  | some m, _ => m.op.bundle
  | none, some m => m.op.bundle
  | none, none => x.pc

/-- A request ends for good without success: the issuing job ends with the status (R243, R246, R254). -/
def failReq (x : NocReq) (st hint : Nat) (s : State) : State :=
  match x.why with
  | .moveRead t _ => endTile t st slotMove (moveBundle s t) 0 s
  | .moveWrite t => endTile t st slotMove (moveBundle s t) 0 s
  | .mcRead t _ _ => endTile t st slotMove (moveBundle s t) 0 s
  | .signal t i => endTile t st slotSync i 0 s
  | .pelocIn p id _ => inbAnswer p id (fun i => if i.status = 0 then { i with status := st, hint := hint } else i) s
  | .owl rs => owlFailed rs s
  | .tailRead _ _ => s
  | .tailWrite _ => s
  | .system => s

/-- RD_DATA (R242). -/
def rdDataEffect (k : NocPkt) (d : Damage) (s : State) : State :=
  unicast 0x08 k d (fun k s =>
    match reqOf s k.dest k.dport k.tag with
    | none => lateResponse k s
    | some x =>
      if x.pkt.typ = 0x01 ∨ x.pkt.typ = 0x04 then readCame x k.data (payloadMarks k k.data.length) (dropReq k.dest k.dport k.tag s)
      else lateResponse k s) s
/-- RD_DATA. -/
def execRdData (k : NocPkt) (d : Damage) (s : State) : Host.Outcome State Fault Refusal := .next (rdDataEffect k d s)

/-- WR_ACK (R232). -/
def wrAckEffect (k : NocPkt) (d : Damage) (s : State) : State :=
  unicast 0x09 k d (fun k s =>
    match reqOf s k.dest k.dport k.tag with
    | none => lateResponse k s
    | some x =>
      if x.pkt.typ = 0x02 ∨ x.pkt.typ = 0x03 ∨ x.pkt.typ = 0x05 then ackCame x (dropReq k.dest k.dport k.tag s) else lateResponse k s) s
/-- WR_ACK. -/
def execWrAck (k : NocPkt) (d : Damage) (s : State) : Host.Outcome State Fault Refusal := .next (wrAckEffect k d s)

/-- NACK (R243, R254): a fence with a return in view is tried again, at most 16 times; anything else ends the job. -/
def nackEffect (k : NocPkt) (d : Damage) (s : State) : State :=
  unicast 0x0A k d (fun k s =>
    match reqOf s k.dest k.dport k.tag with
    | none => lateResponse k s
    | some x =>
      if k.status = stDomainFenced ∧ k.hint ≠ 0xFFFF ∧ x.attempts < 16 then
        { s with reqs := s.reqs.map (fun y => if y = x then { y with backoff := some k.hint } else y) }
      else failReq x k.status k.hint (dropReq k.dest k.dport k.tag s)) s
/-- NACK. -/
def execNack (k : NocPkt) (d : Damage) (s : State) : Host.Outcome State Fault Refusal := .next (nackEffect k d s)

/-- REQUEST_TIMEOUT of a multicast: grants that have not come count as TIMEOUT, with an MC_ABORT to those tiles; then results
that have not come. -/
def mcTimeout (r q : Nat) (m : McSend) (s : State) : State :=
  let ts := maskTiles m.mask
  if !m.granted then
    let late := ts.filter (fun i => tget m.grants i == 0)
    let s1 := bumpBy cntNocTimeout (routerUnit r) late.length s
    let s2 := sendPkt (abortPkt m r q (tilesMask late)) s1
    onMc r q m.tag (fun m => { m with grants := late.foldl (fun g i => tset g i (reasonTimeout + 1)) m.grants }) s2
  else if m.sent then
    let late := ts.filter (fun i => tget m.grants i == 1 && tget m.results i == 0)
    onMc r q m.tag (fun m => { m with results := late.foldl (fun g i => tset g i (reasonTimeout + 1)) m.results })
      (bumpBy cntNocTimeout (routerUnit r) late.length s)
  else s

/-- REQUEST_TIMEOUT (R246): a read delivers poisoned bytes, anything else ends with ST_NOC_TIMEOUT. -/
def requestTimeoutEffect (r q tag : Nat) (s : State) : State :=
  match reqOf s r q tag with
  | some x =>
    if !timed x.pkt || x.backoff.isSome then s
    else
      let s1 := bump cntNocTimeout (routerUnit r) (dropReq r q tag s)
      if x.pkt.typ = 0x01 then
        readCame x (List.replicate (16 * x.pkt.len) 0) (List.range x.pkt.len) s1
      else failReq x stNocTimeout 0 s1
  | none =>
    match sendAt s r q with
    | some m => if m.tag = tag then mcTimeout r q m s else s
    | none => s
/-- REQUEST_TIMEOUT. -/
def execRequestTimeout (router port tag : Nat) (s : State) : Host.Outcome State Fault Refusal :=
  .next (requestTimeoutEffect router port tag s)

/-- FENCE_RETRY (R254): the request goes out again. -/
def fenceRetryEffect (r q tag : Nat) (s : State) : State :=
  match reqOf s r q tag with
  | some x =>
    if x.backoff.isSome && !srcFenced s x.pkt then
      sendPkt x.pkt { s with reqs := s.reqs.map (fun y => if y = x then { y with backoff := none, attempts := y.attempts + 1 } else y) }
    else s
  | none => s
/-- FENCE_RETRY. -/
def execFenceRetry (router port tag : Nat) (s : State) : Host.Outcome State Fault Refusal := .next (fenceRetryEffect router port tag s)

/-! ### Multicasts at their receivers (R248 to R251, R256 to R258) -/

/-- MC_RESERVE (R248): granted, refused, or queued behind another multicast. -/
def mcReserveEffect (k : NocPkt) (d : Damage) (s : State) : State :=
  multicast 0x10 k d (fun t k s =>
    if reserveReason s t k = 0 ∧ (tget s.tiles t).landing.isSome = true then
      bump cntMcastWait (unitId 0x01 t) (onTile t (fun x => { x with landq := x.landq ++ [k] }) s)
    else answerReserve t k s) s
/-- MC_RESERVE. -/
def execMcReserve (k : NocPkt) (d : Damage) (s : State) : Host.Outcome State Fault Refusal := .next (mcReserveEffect k d s)

/-- MC_GRANT (R248): the sender notes a tile's answer. -/
def mcGrantEffect (k : NocPkt) (d : Damage) (s : State) : State :=
  unicast 0x0B k d (fun k s =>
    match sendAt s k.dest k.dport, routerTile k.src with
    | some m, some t =>
      if m.tag = k.tag ∧ m.mask.getLsbD t = true ∧ tget m.grants t = 0 then
        onMc k.dest k.dport k.tag (fun m => { m with grants := tset m.grants t (k.reason + 1) }) s
      else lateResponse k s
    | _, _ => lateResponse k s) s
/-- MC_GRANT. -/
def execMcGrant (k : NocPkt) (d : Damage) (s : State) : Host.Outcome State Fault Refusal := .next (mcGrantEffect k d s)

/-- MC_RESULT (R248): the sender notes a tile's outcome. -/
def mcResultEffect (k : NocPkt) (d : Damage) (s : State) : State :=
  unicast 0x0C k d (fun k s =>
    match sendAt s k.dest k.dport, routerTile k.src with
    | some m, some t =>
      if m.tag = k.tag ∧ tget m.grants t = 1 ∧ tget m.results t = 0 then
        onMc k.dest k.dport k.tag (fun m => { m with results := tset m.results t (k.reason + 1) }) s
      else lateResponse k s
    | _, _ => lateResponse k s) s
/-- MC_RESULT. -/
def execMcResult (k : NocPkt) (d : Damage) (s : State) : Host.Outcome State Fault Refusal := .next (mcResultEffect k d s)

/-- A reservation is the packet's. -/
def Landing.of (l : Landing) (k : NocPkt) : Bool := l.src == k.src && l.sport == k.sport && l.tag == k.tag && l.part == k.part

/-- MC_DATA (R250): the packet's granules land in the buffer; one that has no place there is discarded. -/
def mcDataEffect (k : NocPkt) (d : Damage) (s : State) : State :=
  multicast 0x11 k d (fun t k s =>
    match (tget s.tiles t).landing with
    | none => dropPkt (tileRouter t) s
    | some l =>
      let g0 := (k.addr - l.off) / 16
      let gs := (List.range k.len).map (· + g0)
      if !l.of k || decide (k.addr < l.off) || decide (l.total < g0 + k.len) || gs.any (fun g => l.got.contains g) then
        dropPkt (tileRouter t) s
      else
        let got := gs.foldl sput l.got
        onTile t (fun x => { x with landing := some { l with
          got := got, data := putBytes l.data (16 * g0) k.data, pois := l.pois ++ (payloadMarks k (16 * k.len)).map (· + g0)
          whole := got.length == l.total } }) s) s
/-- MC_DATA. -/
def execMcData (k : NocPkt) (d : Damage) (s : State) : Host.Outcome State Fault Refusal := .next (mcDataEffect k d s)

/-- The source of a landed granule, as its sender's MOVE read it. -/
def landedFrom (s : State) (l : Landing) (g : Nat) : Nat :=
  match sendAt s l.src l.sport with
  | some m =>
    if m.tag = l.tag then
      match m.runs.find? (fun r => decide (r.1 ≤ 16 * g) && decide (16 * g < r.1 + r.2.2)) with
      | some r => r.2.1 + (16 * g - r.1) + 1
      | none => 0
    else 0
  | none => 0

/-- A whole landing is written into the store. -/
def commitLanding (t : Nat) (l : Landing) (s : State) : State :=
  let data := (List.range (16 * l.total)).map (tget l.data)
  let s1 := onTile t (fun x => { x with moveSrc := (List.range l.total).foldl (fun m g => tset m (l.off / 16 + g) (landedFrom s l g)) x.moveSrc }) s
  storeWrite (storeAddr t l.off) data l.pois s1

/-- MCAST_COMMIT_DONE (R249, R256, R257): the store holds the data, or ownership has changed and it holds none. -/
def mcastCommitDoneEffect (t : Nat) (s : State) : State :=
  match (tget s.tiles t).landing with
  | none => s
  | some l =>
    if !l.whole then s
    else
      let ok := decide ((tget s.tiles t).owner = some l.part)
      let s1 := if ok then commitLanding t l s else s
      sendPkt (mcAnswer t 0x0C (if ok then 0 else reasonNotOwned) l.src l.sport l.part l.tag l.sys) (freeLanding t s1)
/-- MCAST_COMMIT_DONE. -/
def execMcastCommitDone (tile : Nat) (s : State) : Host.Outcome State Fault Refusal := .next (mcastCommitDoneEffect tile s)

/-- MCAST_LANDING_TIMEOUT (R251): an incomplete landing is given up. -/
def mcastLandingTimeoutEffect (t : Nat) (s : State) : State :=
  match (tget s.tiles t).landing with
  | some l => if l.whole then s else freeLanding t s
  | none => s
/-- MCAST_LANDING_TIMEOUT. -/
def execMcastLandingTimeout (tile : Nat) (s : State) : Host.Outcome State Fault Refusal := .next (mcastLandingTimeoutEffect tile s)

/-- MC_ABORT (R258): a reservation whose commit has not begun goes, a queued reserve is forgotten. -/
def mcAbortEffect (k : NocPkt) (d : Damage) (s : State) : State :=
  multicast 0x12 k d (fun t k s =>
    let s1 := onTile t (fun x => { x with landq := x.landq.filter (fun q => !(q.src == k.src && q.sport == k.sport && q.tag == k.tag)) }) s
    match (tget s1.tiles t).landing with
    | some l => if l.of k && !l.whole then freeLanding t s1 else s1
    | none => s1) s
/-- MC_ABORT. -/
def execMcAbort (k : NocPkt) (d : Damage) (s : State) : Host.Outcome State Fault Refusal := .next (mcAbortEffect k d s)

/-- MC_TOKEN (R232): tokens for each delivered tile, without a response. -/
def mcTokenEffect (k : NocPkt) (d : Damage) (s : State) : State :=
  multicast 0x13 k d (fun t k s => if (tget s.tiles t).owner = some k.part then addTokens t k.tcnt (k.tval + 1) s else s) s
/-- MC_TOKEN. -/
def execMcToken (k : NocPkt) (d : Damage) (s : State) : Host.Outcome State Fault Refusal := .next (mcTokenEffect k d s)

end Sys2Proof.Machine
end

