-- ==== Sys2Proof/Machine/PelocEv.lean ====
section
/-! DEFINITION. The link layer of a Peloc port at work: flits, link-control messages, training, replay, lanes, sleep and recalibration
(R264, R268 to R270, R273, R276, R279, R282 to R286, R298 to R300, R303, R306, R307; chapter 08). -/

namespace Sys2Proof.Machine

/-! ### Flits (R284 to R286) -/

/-- A flit arrives at a port that takes flits: it is counted, and a good one of the kind is acted on, a bad one otherwise. -/
def flitArrives (kind p : Nat) (raw : List Byte) (d : FecResult) (good : Flit → State → State) (bad : State → State) (s : State) : State :=
  if !listens s p then s
  else
    let s1 := countFlit p (flitBad raw d) d s
    if flitBad raw d then bad s1
    else if (parseFlit raw).kind ≠ kind then s1
    else good (parseFlit raw) s1

/-- FLIT_IDLE (R284). -/
def flitIdleEffect (p : Nat) (raw : List Byte) (d : FecResult) (s : State) : State := flitArrives 0 p raw d (takeAck p) id s

/-- FLIT_IDLE. -/
def execFlitIdle (port : Nat) (raw : List Byte) (d : FecResult) (s : State) : Host.Outcome State Fault Refusal :=
  .next (flitIdleEffect port raw d s)

/-- What is in force for a link channel of a port (R305, R310). -/
def gateOf (s : State) (p lch : Nat) : Gate := { chan := tget s.chans (16 * p + lch), fence := fenceOf s (0x10 + p) }

/-- A whole transaction joins the receive buffer; one with a reserved type or bit is refused at once (R272). -/
def landTx (p vc : Nat) (a : Asm) (s : State) : State :=
  let t := { PelTx.parse a.bytes with gate := a.gate }
  let s1 := onPel p (fun x => { x with asm := tdel x.asm vc }) s
  if t.rsvd then refuseTx p t stParamReserved 0 (freeFlits p vc (flitsFor a.bytes.length) s1)
  else onPel p (fun x => { x with rx := x.rx ++ [t] }) s1

/-- The transaction to which a DATA flit belongs, with the flit's bytes: a head flit begins one, under what is in force then. -/
def asmOf (s : State) (p : Nat) (f : Flit) : Asm :=
  match (if f.head then none else tget (tget s.pel p).asm f.vc) with
  | some a => { a with bytes := a.bytes ++ f.body }
  | none => { bytes := f.body, gate := gateOf s p ((f.body.getD 1 0).toNat % 16) }

/-- The bytes of an accepted DATA flit. -/
def takeData (p : Nat) (f : Flit) (s : State) : State :=
  let a := asmOf s p f
  if f.tail then landTx p f.vc a s else onPel p (fun x => { x with asm := tset x.asm f.vc (some a) }) s

/-- A sequenced flit: accepted, and acknowledged with the next flit that leaves; met with a NAK; or discarded (R285). -/
def takeSequenced (p : Nat) (act : Flit → State → State) (f : Flit) (s : State) : State :=
  let t := takeAck p f s
  match (tget t.pel p).arrival f.seq with
  | .expected => catchUp p (act f (onPel p (fun x => { x with rxSeq := f.seq, nakSent := false }) t))
  | .ahead => sendNak p t
  | .duplicate => t

/-- FLIT_DATA (R285). -/
def flitDataEffect (p : Nat) (raw : List Byte) (d : FecResult) (s : State) : State :=
  flitArrives 1 p raw d (takeSequenced p (takeData p)) (sendNak p) s

/-- FLIT_DATA. -/
def execFlitData (port : Nat) (raw : List Byte) (d : FecResult) (s : State) : Host.Outcome State Fault Refusal :=
  .next (flitDataEffect port raw d s)

/-- A link-control message joins those to be acted on; an unknown one is ignored (Table 08.8). -/
def takeCtrl (p : Nat) (body : List Byte) (s : State) : State :=
  let c := (body.headD 0).toNat
  if 1 ≤ c ∧ c ≤ 7 then onPel p (fun x => { x with ctrl := x.ctrl ++ [body] }) s else s

/-- FLIT_CTRL (R273). -/
def flitCtrlEffect (p : Nat) (raw : List Byte) (d : FecResult) (s : State) : State :=
  flitArrives 3 p raw d (takeSequenced p (fun f => takeCtrl p f.body)) (sendNak p) s

/-- FLIT_CTRL. -/
def execFlitCtrl (port : Nat) (raw : List Byte) (d : FecResult) (s : State) : Host.Outcome State Fault Refusal :=
  .next (flitCtrlEffect port raw d s)

/-- A replay is due: of everything unacknowledged, or none, with the port DOWN, after 16 without progress (R286). -/
def replayDue (p : Nat) (s : State) : State :=
  let x := tget s.pel p
  if x.replay = [] then s else if 16 ≤ x.replays then portDown p downRetry false s else replayAll p s

/-- A NAK: its ACK and credits, then a replay from ACK + 1, unless that very replay is under way (R286, R303). -/
def takeNak (p : Nat) (f : Flit) (s : State) : State :=
  let t := onPel p (fun x => { x.acked f.ack with txCredit := tset x.txCredit f.crvc f.crtot }) s
  pump p (if replayingFrom t p ((f.ack + 1) % 4096) then t else replayDue p t)

/-- FLIT_NAK (R286). -/
def flitNakEffect (p : Nat) (raw : List Byte) (d : FecResult) (s : State) : State := flitArrives 2 p raw d (takeNak p) id s

/-- FLIT_NAK. -/
def execFlitNak (port : Nat) (raw : List Byte) (d : FecResult) (s : State) : Host.Outcome State Fault Refusal :=
  .next (flitNakEffect port raw d s)

/-- REPLAY_TIMER (R286). -/
def replayTimerEffect (p : Nat) (s : State) : State := if listens s p then replayDue p s else s

/-- REPLAY_TIMER. -/
def execReplayTimer (port : Nat) (s : State) : Host.Outcome State Fault Refusal := .next (replayTimerEffect port s)

/-! ### Link-control messages (Table 08.8) -/

/-- Take the front message if it is of a type. -/
def frontCtrl (s : State) (p c : Nat) : Option (List Byte) :=
  match (tget s.pel p).ctrl with
  | m :: _ => if (m.headD 0).toNat = c then some m else none
  | [] => none

/-- The front message is acted on. -/
def withCtrl (p c : Nat) (act : List Byte → State → State) (s : State) : State :=
  match frontCtrl s p c with
  | some m => act m (onPel p (fun x => { x with ctrl := x.ctrl.tail }) s)
  | none => s

/-- HELLO or HELLO_ACK as this device sends it. -/
def helloMsg (s : State) (p c : Nat) : List Byte :=
  [BitVec.ofNat 8 c, 0] ++ leBytes 2 0x1F6C ++ leBytes 2 0x0520 ++ [0xB0, BitVec.ofNat 8 p, BitVec.ofNat 8 (b2n (tget s.pel p).live.wmin)] ++
  leBytes 2 64 ++ leBytes 2 512 ++ leBytes 2 512 ++ leBytes 2 192 ++ leBytes 2 512 ++ List.replicate 5 0 ++
  leBytes 8 Config.fuseSerial.toNat

/-- A two-byte field of a message. -/
def field2 (m : List Byte) (i : Nat) : Nat := leNat ((m.drop i).take 2)

/-- The receive credits that a HELLO announces. -/
def helloCredits (m : List Byte) : List Nat := [field2 m 9, field2 m 11, field2 m 13, field2 m 15]

/-- The AK520 accepts the peer of a HELLO (R283). -/
def helloOk (m : List Byte) : Bool :=
  (field2 m 2 == 0x1F6C && field2 m 4 == 0x0520 && helloCredits m == [64, 512, 512, 192]) ||
  Config.acceptsPeer (field2 m 2) (field2 m 4) (helloCredits m)

/-- A port exchanges HELLOs (step T4). -/
def inHello (s : State) (p : Nat) : Bool := let x := tget s.pel p; decide (x.st = .training) && x.step == 4

/-- HELLO (R282, R283). -/
def helloEffect (p : Nat) (s : State) : State :=
  if !inHello s p then s
  else withCtrl p 1 (fun m t =>
    if helloOk m then sendCtrl p (helloMsg t p 2) (onPel p (fun x => { x with peer := m }) t)
    else trainFail p stLinkTrainFailed downTrain true t) s

/-- HELLO. -/
def execHello (port : Nat) (s : State) : Host.Outcome State Fault Refusal := .next (helloEffect port s)

/-- LINK_TRAIN's final result (Table 10.11). -/
def trainResult (x : Peloc) : List Dword :=
  let m := x.peer
  let serial := leNat ((m.drop 24).take 8)
  [dw (x.txWidth + 2 ^ 2 * x.rxWidth), dw (field2 m 2 + 2 ^ 16 * field2 m 4),
   dw ((m.getD 6 0).toNat + 2 ^ 8 * ((m.getD 7 0).toNat % 16)), dw serial, dw (serial / 2 ^ 32)]

/-- A trained port is up (Table 08.15). -/
def linkUp (p : Nat) (s : State) : State :=
  let x := tget s.pel p
  let s1 := linkChange p (onPel p (fun y => { y with st := .active, step := 0, trainTk := none }) s)
  pump p (match x.trainTk with | some t => post t stOk (trainResult x) s1 | none => s1)

/-- HELLO_ACK (R282, R283). -/
def helloAckEffect (p : Nat) (s : State) : State :=
  if !inHello s p then s
  else withCtrl p 2 (fun m t =>
    if helloOk m then linkUp p (onPel p (fun x => { x with peer := m }) t) else trainFail p stLinkTrainFailed downTrain true t) s

/-- HELLO_ACK. -/
def execHelloAck (port : Nat) (s : State) : Host.Outcome State Fault Refusal := .next (helloAckEffect port s)

/-- A message without a body. -/
def bareMsg (c : Nat) : List Byte := [BitVec.ofNat 8 c]

/-- Nothing sequenced is unacknowledged and no transaction is outstanding (R299). -/
def portQuiet (s : State) (p : Nat) : Bool :=
  let x := tget s.pel p
  x.replay.isEmpty && x.out.isEmpty && x.inb.isEmpty && x.outq.isEmpty && x.held.isEmpty && x.rx.isEmpty && x.pushes.isEmpty && x.lmc.isNone

/-- The transmitter sends one IDLE flit and stops; a transaction that came meanwhile wakes the port at once (R299, R306). -/
def enterSleep (p : Nat) (s : State) : State :=
  let s1 := onPel p (fun x => { x with st := .sleep, sleepReq := false, frameLock := false, waking := false }) (wireFlit p idleFlit s)
  if (tget s.pel p).outq = [] then s1 else wakePort p s1

/-- SLEEP_REQ (R299, R306, R307): both asked at once: the request stands for the answer; otherwise a quiet port whose SLEEPIDLE
allows it agrees. -/
def sleepReqEffect (p : Nat) (s : State) : State :=
  if (tget s.pel p).st ≠ .active then s
  else withCtrl p 3 (fun _ t =>
    let x := tget t.pel p
    if x.sleepReq then enterSleep p t
    else if x.cfg.sleepidle ≠ 0 ∧ x.degRx.isNone = true ∧ portQuiet t p = true then enterSleep p (sendCtrl p (bareMsg 4) t)
    else sendCtrl p (bareMsg 5) t) s

/-- SLEEP_REQ. -/
def execSleepReq (port : Nat) (s : State) : Host.Outcome State Fault Refusal := .next (sleepReqEffect port s)

/-- SLEEP_ACK (R299). -/
def sleepAckEffect (p : Nat) (s : State) : State :=
  if (tget s.pel p).st ≠ .active then s
  else withCtrl p 4 (fun _ t => if (tget t.pel p).sleepReq then enterSleep p t else t) s

/-- SLEEP_ACK. -/
def execSleepAck (port : Nat) (s : State) : Host.Outcome State Fault Refusal := .next (sleepAckEffect port s)

/-- SLEEP_NAK (R299). -/
def sleepNakEffect (p : Nat) (s : State) : State := withCtrl p 5 (fun _ t => onPel p (fun x => { x with sleepReq := false }) t) s

/-- SLEEP_NAK. -/
def execSleepNak (port : Nat) (s : State) : Host.Outcome State Fault Refusal := .next (sleepNakEffect port s)

/-- DEGRADE (R298, R307): the sender's receive direction, which is this port's transmit direction, goes to four lanes. -/
def degradeEffect (p : Nat) (s : State) : State :=
  if (tget s.pel p).st ≠ .active then s
  else withCtrl p 6 (fun m t =>
    let w := (m.getD 1 0).toNat
    if w = 1 ∨ w = 2 then onPel p (fun x => { x with degTx := some (w, (m.getD 2 0).toNat) }) t else t) s

/-- DEGRADE. -/
def execDegrade (port : Nat) (s : State) : Host.Outcome State Fault Refusal := .next (degradeEffect port s)

/-- DOWN_NOTICE (R302). -/
def downNoticeEffect (p : Nat) (s : State) : State :=
  withCtrl p 7 (fun _ t => trainFail p stLinkTrainFailed downPeer false t) s

/-- DOWN_NOTICE. -/
def execDownNotice (port : Nat) (s : State) : Host.Outcome State Fault Refusal := .next (downNoticeEffect port s)

/-! ### Training (R279, R282, R283, Table 08.15) -/

/-- Lanes of a half. -/
def halfLanes (h : Nat) : List Nat := [4 * h, 4 * h + 1, 4 * h + 2, 4 * h + 3]

/-- Every lane of a half satisfies `f`. -/
def Peloc.half (x : Peloc) (h : Nat) (f : Lane → Bool) : Bool := (halfLanes h).all (fun l => f (tget x.lanes l))

/-- The width at which a port can go on once `f` says which lanes have done a step: all eight; or one whole half if a lane of the
other has failed and WMIN allows it (R283). -/
def Peloc.widthBy (x : Peloc) (f : Lane → Bool) : Option Nat :=
  let ok := fun l : Lane => f l && !l.failed
  if x.half 0 ok && x.half 1 ok then some 0
  else if x.live.wmin && x.half 0 ok && !x.half 1 (fun l => !l.failed) then some 1
  else if x.live.wmin && x.half 1 ok && !x.half 0 (fun l => !l.failed) then some 2
  else none

/-- No width is left: a lane of each half has failed, or one has and eight are required. -/
def Peloc.hopeless (x : Peloc) : Bool :=
  let bad := fun h => !x.half h (fun l => !l.failed)
  if x.live.wmin then bad 0 && bad 1 else bad 0 || bad 1

/-- A lane is locked (T1). -/
def laneLocked (l : Lane) : Bool := l.seen && l.locked
/-- A lane shows RX_READY at both ends (T2). -/
def laneReady (l : Lane) : Bool := laneLocked l && l.ready && l.peerReady

/-- A request for a tap, within the range of its signed byte (R279). -/
def stepTap (t : Int) (r : Nat) : Int := if r = 1 then min (t + 1) 127 else if r = 2 then max (t - 1) (-128) else t

/-- What becomes of a request for a tap: 0 none was made, 1 updated, 2 at its limit. -/
def tapDone (old new : Int) (r : Nat) : Nat := if r = 0 ∨ r = 3 then 0 else if old = new then 2 else 1

/-- A control word takes effect: the peer's requests for this port's taps and for precoding are met, and the status word says so (R263,
R279). -/
def Lane.obey (l : Lane) (w : BitVec 64) : Lane :=
  let taps := if w.getLsbD 6 then [0, 0, 0] else l.taps.zipIdx.map (fun e => stepTap e.1 (tapField w e.2))
  let done := [0, 1, 2].map (fun t => tapDone (l.taps.getD t 0) (taps.getD t 0) (tapField w t))
  { l with taps := taps, precode := w.getLsbD 7, onC := some w, sts := statusWord done l.ready (w.getLsbD 7) }

/-- A word that two consecutive frames have brought alike takes effect: the sender's lane at once, the requests and RX_READY from step T2
on; a request acts once for each time that its word takes effect (R279, assumption 166). -/
def Lane.effect (l : Lane) (step : Nat) (f : TrainFrame) : Lane :=
  let l1 := if l.heardC = some f.control then { l with from_ := wordLane f.control } else l
  let l2 := if l.heardC = some f.control ∧ 2 ≤ step ∧ l.onC ≠ some f.control then l1.obey f.control else l1
  if l.heardS = some f.status ∧ 2 ≤ step then { l2 with peerReady := wordReady f.status, onS := some f.status } else l2

/-- A training frame on lane `n` of port `p` at step `step`: the marker, the polarity and the lock, the words, and the words that this port
sends from now on (Table 08.15). -/
def Lane.hear (l : Lane) (p n step : Nat) (f : TrainFrame) : Lane :=
  let l1 := { l with
    seen := true, inverted := f.inverted, locked := f.locked && decide (1 ≤ step), ready := f.ready && decide (2 ≤ step)
    ctl := controlWord f.want f.preset f.precode n p }
  let l2 := l1.effect step f
  { l2 with heardC := some f.control, heardS := some f.status
            sts := statusWord [tapField l2.sts 0, tapField l2.sts 1, tapField l2.sts 2] l2.ready l2.precode }

/-- A training port goes on as far as its lanes allow. -/
def trainOn (p : Nat) (s : State) : State :=
  let x := tget s.pel p
  if x.hopeless then trainFail p stLinkTrainFailed downLanes false s
  else match x.step with
    | 0 => if x.half 0 (·.seen) || x.half 1 (·.seen) then onPel p (fun y => { y with step := 1 }) s else s
    | 1 => if (x.widthBy laneLocked).isSome then onPel p (fun y => { y with step := 2 }) s else s
    | 2 =>
      match x.widthBy laneReady with
      | some w => onPel p (fun y => { y with step := 3, txWidth := w, rxWidth := w }) s
      | none => s
    | _ => s

/-- TRAINING_FRAME (R279). -/
def trainingFrameEffect (p l : Nat) (f : TrainFrame) (s : State) : State :=
  let x := tget s.pel p
  if x.st = .training ∧ x.step ≤ 2 ∧ l < 8 then
    trainOn p (onPel p (fun y => { y with lanes := tmod y.lanes l (fun q => q.hear p l y.step f) }) s)
  else s

/-- TRAINING_FRAME. -/
def execTrainingFrame (port lane : Nat) (f : TrainFrame) (s : State) : Host.Outcome State Fault Refusal :=
  .next (trainingFrameEffect port lane f s)

/-- TRAINING_STEP_DEADLINE (R282, R283): in T1 and T2 the lanes that are behind have failed, and the port goes on at four lanes
where it may; otherwise the training fails. -/
def trainingStepDeadlineEffect (p : Nat) (s : State) : State :=
  let x := tget s.pel p
  if x.st ≠ .training ∨ x.step = 0 then s
  else
    let done := if x.step = 1 then laneLocked else laneReady
    let x1 := { x with lanes := (List.range 8).foldl (fun m l => tmod m l (fun q => if done q then q else { q with failed := true })) x.lanes }
    if x.step ≤ 2 ∧ x1.hopeless = false then trainOn p (onPel p (fun _ => x1) s)
    else trainFail p stLinkTrainFailed downTrain false s

/-- TRAINING_STEP_DEADLINE. -/
def execTrainingStepDeadline (port : Nat) (s : State) : Host.Outcome State Fault Refusal := .next (trainingStepDeadlineEffect port s)

/-- PEER_WAIT_EXPIRY (R282). -/
def peerWaitExpiryEffect (p : Nat) (s : State) : State :=
  let x := tget s.pel p
  if x.st = .training ∧ x.step = 0 then trainFail p stLinkNoPeer downNoPeer false s else s

/-- PEER_WAIT_EXPIRY. -/
def execPeerWaitExpiry (port : Nat) (s : State) : Host.Outcome State Fault Refusal := .next (peerWaitExpiryEffect port s)

/-- Every lane in use hears the peer's lane that `f` gives. -/
def Peloc.hears (x : Peloc) (f : Nat → Nat) : Bool :=
  (List.range 8).all (fun l => (tget x.lanes l).failed || (tget x.lanes l).from_ == f l)

/-- The order of the lanes, which T3 accepts if it is straight or reversed (R263, R282): whether it is reversed. -/
def Peloc.order (x : Peloc) : Option Bool :=
  if x.hears (fun l => l) then some false else if x.hears (fun l => 7 - l) then some true else none

/-- The other half. -/
def otherHalf (w : Nat) : Nat := if w = 1 then 2 else if w = 2 then 1 else 0

/-- Lanes in reverse order are numbered from now on as the peer numbers them. -/
def Peloc.renumber (x : Peloc) (rev : Bool) : Peloc :=
  if rev then
    { x with reversed := true, rxWidth := otherHalf x.rxWidth
             lanes := (List.range 8).foldl (fun m l => tset m l (tget x.lanes (7 - l))) [] }
  else x

/-- FRAME_LOCK (R268, R282, R299): training reaches T4, with SEQ and ACK 0, and sends HELLO; a waking port is ACTIVE again. -/
def frameLockEffect (p : Nat) (ws : List (List Byte)) (s : State) : State :=
  let x := tget s.pel p
  if !givesLock ws then s
  else if x.st = .training ∧ x.step = 3 then
    match x.order with
    | some rev =>
      sendCtrl p (helloMsg s p 1) (onPel p (fun y => { y.renumber rev with step := 4, frameLock := true, txSeq := 0, rxSeq := 0 }) s)
    | none => s
  else if x.st = .sleep ∧ x.waking = true then
    pump p (linkChange p (onPel p (fun y => { y with st := .active, waking := false, frameLock := true }) s))
  else s

/-- FRAME_LOCK. -/
def execFrameLock (frames : PortFrames) (s : State) : Host.Outcome State Fault Refusal :=
  .next (frameLockEffect frames.port frames.words s)

/-- FRAME_LOCK_LOSS (R268, R276). -/
def frameLockLossEffect (p : Nat) (ws : List (List Byte)) (s : State) : State :=
  if losesLock ws ∧ (tget s.pel p).st = .active then portDown p downFrame false s else s

/-- FRAME_LOCK_LOSS. -/
def execFrameLockLoss (frames : PortFrames) (s : State) : Host.Outcome State Fault Refusal :=
  .next (frameLockLossEffect frames.port frames.words s)

/-! ### Lanes (R298) -/

/-- A port's receive direction uses a lane. -/
def Peloc.usesLane (x : Peloc) (l : Nat) : Bool := if x.rxWidth = 0 then decide (l < 8) else l / 4 + 1 == x.rxWidth

/-- A lane is faulty: its lock is lost, or too many of its symbols have been corrected (R298). -/
def laneBad (s : State) (p l : Nat) (lost : Bool) : Bool :=
  let x := tget s.pel p
  lost || (tget x.lanes l).exceeds (s.timebase / msTicks) x.live.symlim

/-- The FCNT of a switch: a frame at least 16 ahead of frame `fcnt`, which one being open (R298, assumption 63). -/
def switchFrame (s : State) (fcnt : Nat) : Nat := (fcnt + 16 + freeBelow s 112) % 256

/-- LANE_FAULT (R298), found in frame `fcnt`: the receive direction is to go to the whole half, or the port goes DOWN. -/
def laneFaultEffect (p l : Nat) (lost : Bool) (fcnt : Nat) (s : State) : State :=
  let x := tget s.pel p
  if x.st ≠ .active ∨ x.usesLane l = false ∨ laneBad s p l lost = false then s
  else
    let x1 := { x with lanes := tmod x.lanes l (fun q => { q with failed := true }), sleepReq := false }
    let other := 1 - l / 4
    let s1 := onPel p (fun _ => x1) s
    if x.live.degauto && x.live.wmin && x.rxWidth == 0 && x1.half other (fun q => !q.failed) then
      if x.degRx.isSome then s1
      else
        let n := switchFrame s1 fcnt
        sendCtrl p [6, BitVec.ofNat 8 (other + 1), BitVec.ofNat 8 n] (drawFree (onPel p (fun y => { y with degRx := some (other + 1, n) }) s1))
    else portDown p downLanes false s1

/-- LANE_FAULT. -/
def execLaneFault (port : Nat) (finding : LaneFinding) (s : State) : Host.Outcome State Fault Refusal :=
  .next (laneFaultEffect port finding.lane finding.lost finding.fcnt s)

/-- A direction has switched: the counter, the attention and the record (R276, R298, Table 12.4). -/
def switched (p w : Nat) (s : State) : State := linkRec p 0xF w none (linkChange p (bump cntPelocDegrade (pelUnit p) s))

/-- WIDTH_SWITCH: frame `fcnt` of the transmit or receive direction begins, and the direction switches if it is the frame named (R298). -/
def widthSwitchEffect (p : Nat) (tx : Bool) (fcnt : Nat) (s : State) : State :=
  let x := tget s.pel p
  match if tx then x.degTx else x.degRx with
  | some (w, n) =>
    if n = fcnt then
      switched p w (onPel p (fun y => if tx then { y with txWidth := w, degTx := none } else { y with rxWidth := w, degRx := none }) s)
    else s
  | none => s

/-- WIDTH_SWITCH. -/
def execWidthSwitch (point : SwitchPoint) (s : State) : Host.Outcome State Fault Refusal :=
  .next (widthSwitchEffect point.port point.tx point.fcnt s)

/-! ### Sleep, wake and recalibration (R299, R300) -/

/-- SLEEP_IDLE_TIMER (R299). -/
def sleepIdleTimerEffect (p : Nat) (s : State) : State :=
  let x := tget s.pel p
  if x.st = .active ∧ x.cfg.sleepidle ≠ 0 ∧ x.sleepReq = false ∧ portQuiet s p = true then
    sendCtrl p (bareMsg 3) (onPel p (fun y => { y with sleepReq := true }) s)
  else s

/-- SLEEP_IDLE_TIMER. -/
def execSleepIdleTimer (port : Nat) (s : State) : Host.Outcome State Fault Refusal := .next (sleepIdleTimerEffect port s)

/-- WAKE (R299). -/
def wakeEffect (p : Nat) (s : State) : State := wakePort p s

/-- WAKE. -/
def execWake (port : Nat) (s : State) : Host.Outcome State Fault Refusal := .next (wakeEffect port s)

/-- WAKE_TIMEOUT (R299). -/
def wakeTimeoutEffect (p : Nat) (s : State) : State :=
  let x := tget s.pel p
  if x.st = .sleep ∧ x.waking = true then portDown p downWake false s else s

/-- WAKE_TIMEOUT. -/
def execWakeTimeout (port : Nat) (s : State) : Host.Outcome State Fault Refusal := .next (wakeTimeoutEffect port s)

/-- RECAL_STEP (R300). -/
def recalStepEffect (p : Nat) (s : State) : State :=
  let x := tget s.pel p
  if x.st = .active ∧ x.live.recal = true then bump cntPelocRecal (pelUnit p) s else s

/-- RECAL_STEP. -/
def execRecalStep (port : Nat) (s : State) : Host.Outcome State Fault Refusal := .next (recalStepEffect port s)

/-- LINK_RECAL_COMPLETE (R300): the steps it took are counted; how many is not stated (assumption 3). -/
def linkRecalCompleteEffect (p : Nat) (s : State) : State :=
  match (tget s.pel p).recalTks with
  | [] => s
  | t :: r =>
    post t stOk [] (bumpBy cntPelocRecal (pelUnit p) (1 + freeBelow s 4000) (drawFree (onPel p (fun x => { x with recalTks := r }) s)))

/-- LINK_RECAL_COMPLETE. -/
def execLinkRecalComplete (port : Nat) (s : State) : Host.Outcome State Fault Refusal := .next (linkRecalCompleteEffect port s)

end Sys2Proof.Machine
end

