-- ==== Sys2Proof/Machine/PelocTx.lean ====
section
/-! DEFINITION. Transactions of a Peloc port: inbound requests under Table 08.2, responses, block pushes, link multicasts between nodes,
and the completion timeout (R267, R272, R289 to R297, R304, R310; chapter 08). -/

namespace Sys2Proof.Machine

/-! ### Inbound requests (R267, R290, R292, R294) -/

/-- A page of HBM or the Loam lies in a window of a partition that INWIN opens, writable for a write (Table 08.2). -/
def pageOpen (s : State) (c : Chan) (wr : Bool) (pg : Nat) : Bool :=
  (windowsOf s c.owner).any (fun e =>
    c.inwin.testBit (e.1 % 16) && e.2.valid && !e.2.zeroing && (!wr || e.2.wr) && decide (e.2.region ≤ 1) &&
    e.2.ext.any (fun r => decide (r.1 ≤ pg) && decide (pg < r.1 + r.2)))

/-- Check 4 of Table 08.2. -/
def inboundOpen (s : State) (c : Chan) (wr : Bool) (a n : Nat) : Bool :=
  a % 16 == 0 && sameLevel a n &&
  (match levelOf a with
   | .tile t => c.intile && decide ((tget s.tiles t).owner = some c.owner)
   | .hbm => (runsOf pageSize (n / pageSize + 2) a n).all (fun r => pageOpen s c wr (r.1 / pageSize))
   | .loam => (runsOf pageSize (n / pageSize + 2) a n).all (fun r => pageOpen s c wr (r.1 / pageSize))
   | _ => false)

/-- A pushed block is well formed (R294). -/
def pushFormed (t : PelTx) : Bool :=
  let h := t.data.take 16
  h.length == 16 && crc8 (h.take 11) == (h.getD 11 0).toNat && t.len == (parseHdr h).pay + 2

/-- The checks of Table 08.2, as a status; a request above 256 granules is one that no window admits. -/
def inboundStatus (s : State) (t : PelTx) : Nat :=
  let c := t.gate.chan
  let mem := t.ttype == ttRd || t.ttype == ttWr || t.ttype == ttPush
  if t.gate.fence.isSome then stDomainFenced
  else if !c.valid then stChannelNotOwned
  else if (mem && !c.inen) || (t.ttype == ttToken && !c.tokenok) then stChannelNotOwned
  else if mem && (!inboundOpen s c (t.ttype != ttRd) t.addr (16 * t.len) || (t.ttype != ttPush && decide (256 < t.len))) then stPelocInbound
  else if t.ttype = ttToken ∧ (tget s.tiles t.rtile).owner ≠ some c.owner then stTileNotOwned
  else if t.ttype = ttPush ∧ pushFormed t = false then stBlockMalformed
  else 0

/-- The on-chip requests of an accepted transaction, with their offsets in it (R290). -/
def inboundReqs (p : Nat) (o : Nat) (t : PelTx) : List (NocPkt × Nat) :=
  let r := pelocRouter p
  if t.ttype = ttToken then [(tokenPkt r 2 o t.rtile t.rcnt (t.rval + 1), 0)]
  else
    let marks := ofLink t.pmask t.len
    (withOffsets 0 (cutRuns [{ dev := t.addr, len := 16 * t.len }])).map (fun e =>
      (if t.ttype = ttRd then rdPkt r 2 o false e.2.1 e.2.2
       else wrPkt r 2 o false e.2.1 ((t.data.drop e.1).take e.2.2)
         (toSectors ((marks.filter (fun g => decide (e.1 ≤ 16 * g) && decide (16 * g < e.1 + e.2.2))).map (· - e.1 / 16))), e.1))

/-- An accepted transaction goes on to the chip; its flits stay in the receive buffer until its requests have left. -/
def startInbound (p : Nat) (t : PelTx) (s : State) : State :=
  let rs := inboundReqs p t.gate.chan.owner t
  let k := s.nextId
  let s1 := takeId (onPel p (fun x => { x with inb := x.inb ++ [{ id := k, tx := t, left := rs.length, owed := t.flits }] }) s)
  settleInb p k (rs.foldl (fun u e => sendReq e.1 (.pelocIn p k e.2) u) s1)

/-- An inbound request of a type at the front of its virtual channel is performed or refused. -/
def inboundTx (tt p : Nat) (s : State) : State :=
  match frontTx s p tt with
  | none => s
  | some t =>
    let st := inboundStatus s t
    if st ≠ 0 then refuseTx p t st (if st = stDomainFenced then t.gate.fence.getD 0 else 0) (takeTx p t s)
    else startInbound p t (pullTx p t s)

/-- PELOC_RD (R290). -/
def pelocRdEffect (p : Nat) (s : State) : State := inboundTx ttRd p s
/-- PELOC_RD. -/
def execPelocRd (port : Nat) (s : State) : Host.Outcome State Fault Refusal := .next (pelocRdEffect port s)

/-- PELOC_WR (R290). -/
def pelocWrEffect (p : Nat) (s : State) : State := inboundTx ttWr p s
/-- PELOC_WR. -/
def execPelocWr (port : Nat) (s : State) : Host.Outcome State Fault Refusal := .next (pelocWrEffect port s)

/-- PELOC_TOKEN (R292). -/
def pelocTokenEffect (p : Nat) (s : State) : State := inboundTx ttToken p s
/-- PELOC_TOKEN. -/
def execPelocToken (port : Nat) (s : State) : Host.Outcome State Fault Refusal := .next (pelocTokenEffect port s)

/-- BLOCK_PUSH (R294). -/
def blockPushEffect (p : Nat) (s : State) : State := inboundTx ttPush p s
/-- BLOCK_PUSH. -/
def execBlockPush (port : Nat) (s : State) : Host.Outcome State Fault Refusal := .next (blockPushEffect port s)

/-! ### LINK_PUSH at its source (R293, Table 08.16) -/

/-- The next block of a push of port `p`, or why it stops: its bytes, and the granules that carry poison. -/
def nextPushed (p : Nat) (q : PushOp) (s : State) : Except Stop (List Byte × List Nat × State) :=
  let h := partRead (viaPeloc p) q.part q.src 16 s
  if h.st ≠ 0 then .error h.stop
  else if !h.bad.isEmpty then .error { st := stPoisonConsumed }
  else if crc8 (h.bytes.take 11) ≠ (h.bytes.getD 11 0).toNat then .error { st := stDecodeError }
  else
    let n := 16 + (parseHdr h.bytes).payLen
    if q.left < n then .error { st := stDecodeError }
    else
      let b := partRead (viaPeloc p) q.part q.src n h.s
      if b.st ≠ 0 then .error b.stop else .ok (if b.bad.isEmpty then b.bytes else poisonBlock b.bytes, b.bad, b.s)

/-- A push stops at its next block. -/
def stopPush (p : Nat) (q : PushOp) (st : Nat) (s : State) : State :=
  let s1 := if st = stPoisonConsumed then poisonConsumed q.part (pelUnit p) (devAddr s q.part q.src) 0 s else countFault q.part st s
  onPush p q.id (fun x => { x with failed := some x.next, status := st }) s1

/-- A push cannot read its next block: a fence is asked again with the push's next turn (R254), anything else stops it. -/
def barPush (p : Nat) (q : PushOp) (x : Stop) (s : State) : State :=
  match x.fence, x.again q.tries with
  | _, some f => onPush p q.id (fun y => { y with tries := y.tries + 1 }) (turnedAway (viaPeloc p) (some q.part) f s)
  | some f, none => stopPush p q x.st (turnedAway (viaPeloc p) (some q.part) f s)
  | none, none => stopPush p q x.st s

/-- A block of a push goes out with tag `t`. -/
def pushBlock (p t : Nat) (q : PushOp) (bs : List Byte) (marks : List Nat) (s : State) : State :=
  let tx : PelTx := { ttype := ttPush, lch := q.lch, tag := t, len := bs.length / 16, addr := q.dst, pmask := toLink marks, data := bs }
  let s1 := onPush p q.id (fun x => { x with
    src := x.src + bs.length, left := x.left - bs.length, dst := x.dst + bs.length, next := x.next + 1, flying := x.flying + 1
    poisoned := x.poisoned + b2n (!marks.isEmpty), tries := 0 }) s
  sendTx p tx (onPel p (fun x => { x with out := tset x.out t { live := true, ttype := ttPush, why := .push q.id q.next bs.length, lch := q.lch } }) s1)

/-- The next block of push `id` goes out if it can; whether it did. -/
def pushNext (p id : Nat) (s : State) : Bool × State :=
  match (tget s.pel p).pushes.find? (fun q => q.id == id) with
  | none => (false, s)
  | some q =>
    if q.failed.isSome || q.left == 0 || decide (64 ≤ q.flying) then (false, s)
    else if !portUp s p then (false, stopPush p q stLinkDown s)
    else match (tget s.pel p).freeTag with
      | none => (false, s)
      | some t =>
        match nextPushed p q s with
        | .error x => (false, barPush p q x s)
        | .ok (bs, marks, s1) => (true, pushBlock p t q bs marks s1)

/-- A push sends what it may: up to 64 blocks in flight. -/
def pushMore : Nat → Nat → Nat → State → State
  | 0, _, _, s => s
  | f + 1, p, id, s =>
    let r := pushNext p id s
    if r.1 then pushMore f p id r.2 else r.2

/-- Every push of a port goes on; a fenced port begins no block (Table 07.12, step 2). -/
def pumpPushes (p : Nat) (s : State) : State :=
  if (fenceOf s (0x10 + p)).isSome then s else (tget s.pel p).pushes.foldl (fun u q => pushMore 64 p q.id u) s

/-- LINK_PUSH_COMPLETE (R293): the blocks have all been answered. -/
def linkPushCompleteEffect (p : Nat) (s : State) : State :=
  match (tget s.pel p).pushes.find? (fun q => q.flying == 0 && (q.failed.isSome || q.left == 0)) with
  | none => s
  | some q =>
    let st := if q.failed.isSome then q.status else if q.poisoned ≠ 0 then stPoisonPropagated else stOk
    let s1 := onPel p (fun x => { x with pushes := x.pushes.erase q }) s
    post q.ticket st [dw q.pushed, dw q.bytes, dw (q.failed.getD 0xFFFFFFFF)] (poisonPropagated q.part q.poisoned s1)

/-- LINK_PUSH_COMPLETE. -/
def execLinkPushComplete (port : Nat) (s : State) : Host.Outcome State Fault Refusal := .next (linkPushCompleteEffect port s)

/-! ### Responses (R289, R291, R304) -/

/-- The outbound transaction that a response answers, if it is still outstanding and of one of the types. -/
def answered (s : State) (p : Nat) (t : PelTx) (types : List Nat) : Option OutTx :=
  let o := tget (tget s.pel p).out t.tag
  if o.live ∧ types.contains o.ttype = true then some o else none

/-- 32-byte sectors of marked link sectors. -/
def linkSectors (ms : List Nat) (n : Nat) : List Nat := (ms.flatMap (fun k => [2 * k, 2 * k + 1])).filter (fun i => decide (32 * i < n))

/-- RD_DATA answers an on-chip read, all of it poisoned if the page is (R215). -/
def readReturned (k : NocPkt) (t : PelTx) (s : State) : State :=
  let n := 16 * k.len
  let pois := if (tget s.pagePoison (k.addr / pageSize)).bad then allSectors n else linkSectors t.pmask n
  sendPkt (answerPkt k 0x08 0 0 (t.data ++ List.replicate (n - t.data.length) 0) pois) s

/-- PELOC_RD_DATA (R289). -/
def pelocRdDataEffect (p : Nat) (s : State) : State :=
  match frontTx s p ttRdData with
  | none => s
  | some t =>
    let s1 := takeTx p t s
    match answered s p t [ttRd] with
    | some o =>
      let s2 := dropOut p t.tag s1
      pumpPushes p (match o.why with | .chip k => readReturned k t s2 | _ => s2)
    | none => s1

/-- PELOC_RD_DATA. -/
def execPelocRdData (port : Nat) (s : State) : Host.Outcome State Fault Refusal := .next (pelocRdDataEffect port s)

/-- A write to a peer page has succeeded: it counts towards the page's being written again (R215). -/
def pageWritten (k : NocPkt) (s : State) : State :=
  if k.typ = 0x02 then
    { s with pagePoison := tmod s.pagePoison (k.addr / pageSize) (fun m => m.write (k.addr % pageSize) (16 * k.len)) }
  else s

/-- PELOC_ACK (R289). -/
def pelocAckEffect (p : Nat) (s : State) : State :=
  match frontTx s p ttAck with
  | none => s
  | some t =>
    let s1 := takeTx p t s
    match answered s p t [ttWr, ttToken, ttPush] with
    | some o =>
      let s2 := dropOut p t.tag s1
      pumpPushes p (match o.why with
        | .chip k => sendPkt (answerPkt k 0x09 0 0 [] []) (pageWritten k s2)
        | .push id _ n => onPush p id (fun q => { q with flying := q.flying - 1, pushed := q.pushed + 1, bytes := q.bytes + n }) s2
        | .nobody => s2)
    | none => s1

/-- PELOC_ACK. -/
def execPelocAck (port : Nat) (s : State) : Host.Outcome State Fault Refusal := .next (pelocAckEffect port s)

/-- PELOC_NACK (R289). -/
def pelocNackEffect (p : Nat) (s : State) : State :=
  match frontTx s p ttNack with
  | none => s
  | some t =>
    let s1 := takeTx p t s
    match answered s p t [ttRd, ttWr, ttToken, ttPush] with
    | some _ => pumpPushes p (failOut p t.tag t.status t.hint s1)
    | none => s1

/-- PELOC_NACK. -/
def execPelocNack (port : Nat) (s : State) : Host.Outcome State Fault Refusal := .next (pelocNackEffect port s)

/-- A response to an outbound transaction has arrived and waits to be taken up (R304). -/
def hasAnswer (s : State) (p tag : Nat) : Bool :=
  (tget s.pel p).rx.any (fun t => t.tag == tag && [ttRdData, ttAck, ttNack].contains t.ttype)

/-- PELOC_TIMEOUT (R291): a response that has arrived is taken instead (R304). -/
def pelocTimeoutEffect (p tag : Nat) (s : State) : State :=
  if (tget (tget s.pel p).out tag).live && !hasAnswer s p tag then pumpPushes p (failOut p tag stPelocTimeout 0 (bump cntPelocTimeout (pelUnit p) s)) else s

/-- PELOC_TIMEOUT. -/
def execPelocTimeout (port tag : Nat) (s : State) : Host.Outcome State Fault Refusal := .next (pelocTimeoutEffect port tag s)

/-! ### Link multicasts between nodes (Table 08.17) -/

/-- Why a node refuses a reserve, with Table 08.17's order; 0 if it grants. -/
def reserveRefusal (s : State) (p : Nat) (t : PelTx) : Nat :=
  let g := tget s.groups t.rtile
  let c := t.gate.chan
  if !g.valid || g.root || g.parent != p then lmcNoGroup
  else if !c.valid || c.owner != g.owner || !c.mcok || t.lch != g.lch ||
      (maskTiles g.tiles).any (fun k => decide ((tget s.tiles k).owner ≠ some g.owner)) then reasonNotOwned
  else if t.gate.fence.isSome then reasonFenced
  else if t.nmask == 0 || decide (4096 < t.nmask) || (g.maddr != 0 && !windowOk s g.owner true g.maddr (16 * t.nmask)) then reasonRange
  else if (tget s.pel p).lmc.isSome || g.run.isSome then lmcBusy
  else 0

/-- The refusal also counts as one of Table 08.2's checks 1 to 3. -/
def reserveCounts (t : PelTx) : Bool := t.gate.fence.isSome || !t.gate.chan.valid || !t.gate.chan.mcok

/-- LMC_RESERVE (R296, step 2). -/
def lmcReserveEffect (p : Nat) (s : State) : State :=
  match frontTx s p ttReserve with
  | none => s
  | some t =>
    let k := t.rtile
    let g := tget s.groups k
    let why := reserveRefusal s p t
    let s1 := takeTx p t s
    let own := 2 ^ g.node
    if why ≠ 0 then
      let s2 := if reserveCounts t then bump cntPelocInboundRefused (pelUnit p) s1 else s1
      let s3 := sendGrant p t.lch k own why s2
      let rest := g.subtree ^^^ (g.subtree &&& own)
      if rest = 0 then s3 else sendGrant p t.lch k rest lmcUpstream s3
    else
      let s2 := onPel p (fun x => { x with lmc := some { group := k, total := t.nmask } }) s1
      let s3 := onGroup k (fun h => { h with run := some { total := t.nmask, granted := own } }) s2
      g.children.foldl (fun u q => sendTx q { ttype := ttReserve, lch := g.lch, rtile := k, nmask := t.nmask } u)
        (sendGrant p t.lch k own 0 s3)

/-- LMC_RESERVE. -/
def execLmcReserve (port : Nat) (s : State) : Host.Outcome State Fault Refusal := .next (lmcReserveEffect port s)

/-- A grant at the root or on its way there, from a child port. -/
def LmcRun.grant (r : LmcRun) (p nmask reason : Nat) : LmcRun :=
  if reason = 0 then
    { r with granted := r.granted ||| nmask, ports := sput r.ports p, behind := tmod r.behind p (· ||| nmask)
             ents := (maskNodes nmask).foldl (fun m n => tset m n { covered := true }) r.ents }
  else
    { r with refused := r.refused ||| nmask
             ents := (maskNodes nmask).foldl (fun m n => tset m n { covered := true, reason := reason }) r.ents }

/-- A message from a child of a group whose multicast is in flight. -/
def fromChild (g : Group) (p : Nat) : Bool := g.valid && g.child.testBit p && g.run.isSome

/-- LMC_GRANT (steps 3 and 4): a node relays it; the root takes it. -/
def lmcGrantEffect (p : Nat) (s : State) : State :=
  match frontTx s p ttGrant with
  | none => s
  | some t =>
    let g := tget s.groups t.rtile
    let s1 := takeTx p t s
    if !fromChild g p then s1
    else
      let s2 := onRun t.rtile (fun r => r.grant p t.nmask t.reason) s1
      if g.root then lmcProceed t.rtile s2 else sendTx g.parent { t with tag := 0 } s2

/-- LMC_GRANT. -/
def execLmcGrant (port : Nat) (s : State) : Host.Outcome State Fault Refusal := .next (lmcGrantEffect port s)

/-- A segment in the buffer. -/
def LmcBuf.take (b : LmcBuf) (t : PelTx) : LmcBuf :=
  { b with
    data := putBytes b.data (4096 * t.rcnt) t.data, segs := sput b.segs t.rcnt, last := if t.slast then some t.rcnt else b.last
    pois := b.pois ++ (ofLink t.pmask t.len).map (· + 256 * t.rcnt) }

/-- Every segment has arrived. -/
def LmcBuf.full (b : LmcBuf) : Bool :=
  match b.last with
  | some n => (List.range (n + 1)).all (smem b.segs)
  | none => false

/-- Checks 1 and 2 of Table 08.2, which hold for a segment and an abort as for any inbound transaction: the status of the one that
fails. -/
def PelTx.barred (t : PelTx) : Nat := if t.gate.fence.isSome then stDomainFenced else if !t.gate.chan.valid then stChannelNotOwned else 0

/-- A barred transaction is refused (R267). -/
def refuseBarred (p : Nat) (t : PelTx) (s : State) : State := refuseTx p t t.barred (t.gate.fence.getD 0) (takeTx p t s)

/-- LMC_DATA (step 5). -/
def lmcDataEffect (p : Nat) (s : State) : State :=
  match frontTx s p ttLmcData with
  | none => s
  | some t =>
    if t.barred ≠ 0 then refuseBarred p t s
    else match (tget s.pel p).lmc with
    | none => takeTx p t s
    | some b =>
      if b.group ≠ t.rtile ∨ b.whole = true then takeTx p t s
      else
        let b1 := b.take t
        if !b1.full then onPel p (fun x => { x with lmc := some b1 }) (takeTx p t s)
        else match freeTag s (pelocRouter p) 2 with
          | none => s
          | some tag => lmcLand p tag b1 (takeTx p t s)

/-- LMC_DATA. -/
def execLmcData (port : Nat) (s : State) : Host.Outcome State Fault Refusal := .next (lmcDataEffect port s)

/-- A result at the root or on its way there. -/
def LmcRun.result (r : LmcRun) (t : PelTx) : LmcRun :=
  { r with
    answered := r.answered ||| t.nmask, delivered := if t.reason = 0 then r.delivered ||| t.nmask else r.delivered
    ents := (maskNodes t.nmask).foldl (fun m n =>
      tset m n { tiles := BitVec.ofNat 64 (leNat (t.data.take 8)), reason := t.reason, memok := t.reason == 0 || t.reason == lmcPartial
                 covered := true }) r.ents }

/-- LMC_RESULT (step 6): a node relays it, and is done once every granted node of its subtree has answered; the root takes it. -/
def lmcResultEffect (p : Nat) (s : State) : State :=
  match frontTx s p ttResult with
  | none => s
  | some t =>
    let g := tget s.groups t.rtile
    let s1 := takeTx p t s
    if !fromChild g p then s1
    else
      let s2 := onRun t.rtile (fun r => r.result t) s1
      if g.root then lmcProceed t.rtile s2
      else
        onGroup t.rtile (fun h => { h with run := match h.run with
          | some r => if maskIn r.granted r.answered then none else some r
          | none => none }) (sendTx g.parent { t with tag := 0 } s2)

/-- LMC_RESULT. -/
def execLmcResult (port : Nat) (s : State) : Host.Outcome State Fault Refusal := .next (lmcResultEffect port s)

/-- LMC_ABORT (R296): a node named frees its buffer unless its landing has begun, and forwards the abort. -/
def lmcAbortEffect (p : Nat) (s : State) : State :=
  match frontTx s p ttAbort with
  | none => s
  | some t =>
    let g := tget s.groups t.rtile
    let s1 := takeTx p t s
    if t.barred ≠ 0 then refuseBarred p t s
    else if !g.valid || g.parent != p || g.root then s1
    else sendAborts t.rtile t.nmask (if t.nmask.testBit g.node then lmcDrop false t.rtile s1 else s1)

/-- LMC_ABORT. -/
def execLmcAbort (port : Nat) (s : State) : Host.Outcome State Fault Refusal := .next (lmcAbortEffect port s)

/-- LMC_TIMEOUT (R296): at the root, nodes that have not answered count as TIMEOUT, with an abort to all before the data; at a node,
a multicast whose last segment has not come is dropped. -/
def lmcTimeoutEffect (k : Nat) (s : State) : State :=
  match (tget s.groups k).run with
  | none => s
  | some r =>
    if !r.root then
      (if (lmcPorts s k).any (fun p => match (tget s.pel p).lmc with | some b => b.whole | none => false) then s
       else onGroup k (fun h => { h with run := none }) (lmcDrop false k s))
    else if r.dataSent then lmcClose k 0 reasonTimeout s
    else
      let g := tget s.groups k
      let s1 := onRun k (fun q =>
        let near := (maskNodes q.granted).filter (fun n => !q.lost.testBit n)
        { q with
          ents := near.foldl (fun m n => tset m n { tget m n with reason := reasonAborted }) q.ents
          refused := q.refused ||| bitSum near }) s
      lmcClose k 0 reasonTimeout (sendAborts k g.subtree s1)

/-- LMC_TIMEOUT. -/
def execLmcTimeout (group : Nat) (s : State) : Host.Outcome State Fault Refusal := .next (lmcTimeoutEffect group s)

end Sys2Proof.Machine
end

