-- ==== Sys2Proof/Machine/CmdLinks.lean ====
section
/-! DEFINITION. Peloc Link ports, channels, pushes and link multicasts: the commands of group 0x07xx (R265, R274 to R278, R282, R293, R296,
R300, R302, R369). -/

namespace Sys2Proof.Machine

/-- The port that a command names. -/
def Cmd.pport (x : Cmd) : Nat := x.fld 4 3 0

/-! ### LINK_CONFIG -/

/-- LINK_CONFIG's check (Table 10.11). -/
def linkConfigCheck (_ : State) (x : Cmd) : Verdict := firstOf [(x.fld 6 11 0 == 0, stParamRange)]

/-- LINK_CONFIG's fields (Table 08.10). -/
def cfgOf (x : Cmd) : LinkCfg :=
  { wmin := bit (x.par 5) 0, degauto := bit (x.par 5) 1, recal := bit (x.par 5) 2, tolink := x.fld 6 11 0, sleepidle := x.fld 7 15 0
    symlim := x.fld 7 31 16 }

/-- LINK_CONFIG's effect. -/
def linkConfigApply (x : Cmd) (s : State) : State := onPel x.pport (fun q => { q with cfg := cfgOf x }) s

/-- LINK_CONFIG (R275). -/
def linkConfigEffect (c : Nat) (p : Packet) (s : State) : State := serve 0x0700 c p linkConfigCheck (actDo linkConfigApply) s

/-- LINK_CONFIG. -/
def execLinkConfig (c : Nat) (p : Packet) (s : State) : Host.Outcome State Fault Refusal := .next (linkConfigEffect c p s)

/-! ### LINK_TRAIN -/

/-- LINK_TRAIN's check (R282). -/
def linkTrainCheck (s : State) (x : Cmd) : Verdict :=
  firstOf [(x.fld 5 13 0 == 0 || decide (10000 < x.fld 5 13 0), stParamRange), (decide ((tget s.pel x.pport).st ≠ .down), stStateBusy)]

/-- LINK_TRAIN's work begins: step T0, under the configuration in force (R275, R282). -/
def linkTrainStart (x : Cmd) (ticket : Nat) (s : State) : State :=
  onPel x.pport (fun q => { q.cleared with
    st := .training, reason := downCommand, live := q.cfg, wait := x.fld 5 13 0, trainTk := some ticket, lanes := [], peer := []
    txWidth := 0, rxWidth := 0, reversed := false }) s

/-- LINK_TRAIN (R282). -/
def linkTrainEffect (c : Nat) (p : Packet) (s : State) : State :=
  serve 0x0701 c p linkTrainCheck (fun x t => pend x (linkTrainStart x) t) s

/-- LINK_TRAIN. -/
def execLinkTrain (c : Nat) (p : Packet) (s : State) : Host.Outcome State Fault Refusal := .next (linkTrainEffect c p s)

/-! ### LINK_DOWN -/

/-- LINK_DOWN checks nothing of its own. -/
def linkDownCheck (_ : State) (_ : Cmd) : Verdict := {}

/-- LINK_DOWN's effect (R302). -/
def linkDownApply (x : Cmd) (s : State) : State :=
  let st := (tget s.pel x.pport).st
  if st = .down ∨ st = .off then s else trainFail x.pport stLinkTrainFailed downCommand true s

/-- LINK_DOWN (R302). -/
def linkDownEffect (c : Nat) (p : Packet) (s : State) : State := serve 0x0702 c p linkDownCheck (actDo linkDownApply) s

/-- LINK_DOWN. -/
def execLinkDown (c : Nat) (p : Packet) (s : State) : Host.Outcome State Fault Refusal := .next (linkDownEffect c p s)

/-! ### LINK_STATUS -/

/-- The code of a port's state (Table 10.11). -/
def pelCode : PelState → Nat
  | .off => 0
  | .down => 1
  | .training => 2
  | .active => 3
  | .sleep => 4

/-- Bytes of a port's taps: byte 3n + t for tap t of lane n. -/
def tapBytes (x : Peloc) : List Byte :=
  (List.range 8).flatMap (fun l => [0, 1, 2].map (fun t => BitVec.ofInt 8 ((tget x.lanes l).taps.getD t 0)))

/-- Corrected symbols of the last window, lane by lane, 16 bits each. -/
def symbolCounts (s : State) (q : Peloc) : List Dword :=
  let n := fun l => min ((tget q.lanes l).lastWindow (s.timebase / msTicks)) 0xFFFF
  (List.range 4).map (fun i => dw (n (2 * i) + 2 ^ 16 * n (2 * i + 1)))

/-- LINK_STATUS checks nothing of its own. -/
def linkStatusCheck (_ : State) (_ : Cmd) : Verdict := {}

/-- LINK_STATUS's 64 bytes. -/
def linkStatusOut (s : State) (x : Cmd) : List Byte :=
  let q := tget s.pel x.pport
  dwBytes [dw (pelCode q.st + 2 ^ 3 * q.txWidth + 2 ^ 5 * q.rxWidth + 2 ^ 8 * q.reason)] ++
  (((q.peer.drop 2).take 16) ++ List.replicate 16 0).take 16 ++ dwBytes (symbolCounts s q) ++ tapBytes q ++ List.replicate 4 0

/-- LINK_STATUS (R276). -/
def linkStatusEffect (c : Nat) (p : Packet) (s : State) : State := serve 0x0703 c p linkStatusCheck (actOut 5 linkStatusOut (fun _ _ => [])) s

/-- LINK_STATUS. -/
def execLinkStatus (c : Nat) (p : Packet) (s : State) : Host.Outcome State Fault Refusal := .next (linkStatusEffect c p s)

/-! ### LINK_RECAL -/

/-- LINK_RECAL's check (Table 10.11). -/
def linkRecalCheck (s : State) (x : Cmd) : Verdict := firstOf [(decide ((tget s.pel x.pport).st ≠ .active), stStateBusy)]

/-- LINK_RECAL's work begins. -/
def linkRecalStart (x : Cmd) (ticket : Nat) (s : State) : State := onPel x.pport (fun q => { q with recalTks := q.recalTks ++ [ticket] }) s

/-- LINK_RECAL (R300). -/
def linkRecalEffect (c : Nat) (p : Packet) (s : State) : State :=
  serve 0x0704 c p linkRecalCheck (fun x t => pend x (linkRecalStart x) t) s

/-- LINK_RECAL. -/
def execLinkRecal (c : Nat) (p : Packet) (s : State) : Host.Outcome State Fault Refusal := .next (linkRecalEffect c p s)

/-! ### CHANNEL_BIND and CHANNEL_READ -/

/-- The device channel that a command names. -/
def Cmd.chan (x : Cmd) : Nat := x.fld 4 7 0

/-- The entry that CHANNEL_BIND gives, for a partition (Table 08.9). -/
def chanOf (x : Cmd) : Chan :=
  let w := x.par 5
  if bit w 0 then
    { valid := true, owner := x.part, outen := bit w 7, inen := bit w 8, intile := bit w 9, tokenok := bit w 10, mcok := bit w 11
      inwin := x.fld 6 15 0 }
  else {}

/-- The ports that a group uses: PARENT, but for the root, and every CHILD port. -/
def Group.ports (g : Group) : List Nat := (if g.root then [] else [g.parent]) ++ g.children

/-- A transaction of a channel is outstanding in either direction (R274). -/
def chanBusy (s : State) (ch : Nat) : Bool :=
  let x := tget s.pel (ch / 16)
  let l := ch % 16
  x.out.any (fun e => e.2.live && e.2.lch == l) || x.inb.any (fun i => i.tx.lch == l) || x.rx.any (fun t => t.lch == l) ||
  x.outq.any (fun t => t.lch == l) || x.pushes.any (fun q => q.lch == l) ||
  x.asm.any (fun e => match e.2 with | some a => (a.bytes.getD 1 0).toNat % 16 == l | none => false) ||
  (match x.lmc with | some b => (tget s.groups b.group).lch == l | none => false) ||
  s.groups.any (fun e => e.2.run.isSome && e.2.lch == l && e.2.ports.contains (ch / 16))

/-- CHANNEL_BIND's check (R274). -/
def channelBindCheck (s : State) (x : Cmd) : Verdict :=
  firstOf [(!bit (x.par 5) 0 && ((x.par 5).toNat != 0 || (x.par 6).toNat != 0), stParamRange), (chanBusy s x.chan, stStateBusy)]

/-- CHANNEL_BIND's effect. -/
def channelBindApply (x : Cmd) (s : State) : State := { s with chans := tset s.chans x.chan (chanOf x) }

/-- CHANNEL_BIND (R265). -/
def channelBindEffect (c : Nat) (p : Packet) (s : State) : State := serve 0x0705 c p channelBindCheck (actDo channelBindApply) s

/-- CHANNEL_BIND. -/
def execChannelBind (c : Nat) (p : Packet) (s : State) : Host.Outcome State Fault Refusal := .next (channelBindEffect c p s)

/-- A channel entry as two dwords. -/
def Chan.dws (c : Chan) : List Dword :=
  [dw (b2n c.valid + 2 * c.owner + 2 ^ 7 * b2n c.outen + 2 ^ 8 * b2n c.inen + 2 ^ 9 * b2n c.intile + 2 ^ 10 * b2n c.tokenok +
     2 ^ 11 * b2n c.mcok), dw c.inwin]

/-- CHANNEL_READ's check (Table 10.11). -/
def channelReadCheck (s : State) (x : Cmd) : Verdict :=
  let c := tget s.chans x.chan
  firstOf [(!isAdmin s x.port && !(c.valid && boundToPort s c.owner x.port), stPrivPartition)]

/-- CHANNEL_READ (R274). -/
def channelReadEffect (c : Nat) (p : Packet) (s : State) : State :=
  serve 0x0706 c p channelReadCheck (actRead (fun t x => (tget t.chans x.chan).dws)) s

/-- CHANNEL_READ. -/
def execChannelRead (c : Nat) (p : Packet) (s : State) : Host.Outcome State Fault Refusal := .next (channelReadEffect c p s)

/-! ### MC_GROUP_SET -/

/-- The group that a command names. -/
def Cmd.group (x : Cmd) : Nat := x.fld 4 5 0

/-- The entry that MC_GROUP_SET gives (Table 08.12a). -/
def groupOf (x : Cmd) : Group :=
  let w := x.par 5
  { valid := bit w 0, root := bit w 1, owner := x.part, lch := bits w 11 8, parent := bits w 15 12, node := bits w 20 16, mem := bit w 21
    child := x.fld 6 15 0, subtree := (x.par 7).toNat, toff := x.fld 8 16 0, tiles := BitVec.ofNat 64 (x.par64 9), maddr := x.par64 11 }

/-- MC_GROUP_SET's check (R277, Table 10.11). -/
def mcGroupSetCheck (s : State) (x : Cmd) : Verdict :=
  let g := groupOf x
  let busy := (tget s.groups x.group).run.isSome
  if !g.valid then firstOf [(busy, stStateBusy)]
  else
    firstOf [
      (g.child != 0 && g.maddr == 0, stParamRange),
      (busy, stStateBusy),
      (g.ports.any (fun p => !boundChannel s (16 * p + g.lch) x.part), stChannelNotOwned),
      ((maskTiles g.tiles).any (fun t => decide ((tget s.tiles t).owner ≠ some x.part)), stTileNotOwned),
      (g.maddr != 0 && !windowOk s x.part true g.maddr 16, stWindowFault)]

/-- MC_GROUP_SET's effect; the root's report stays. -/
def mcGroupSetApply (x : Cmd) (s : State) : State :=
  let old := tget s.groups x.group
  let g := groupOf x
  { s with groups := tset s.groups x.group (if g.valid then
      { g with repExpected := old.repExpected, repDelivered := old.repDelivered, repTotal := old.repTotal, report := old.report }
    else {}) }

/-- MC_GROUP_SET (R277). -/
def mcGroupSetEffect (c : Nat) (p : Packet) (s : State) : State := serve 0x0707 c p mcGroupSetCheck (actDo mcGroupSetApply) s

/-- MC_GROUP_SET. -/
def execMcGroupSet (c : Nat) (p : Packet) (s : State) : Host.Outcome State Fault Refusal := .next (mcGroupSetEffect c p s)

/-! ### LINK_PUSH -/

/-- LINK_PUSH's check (Table 10.11). -/
def linkPushCheck (s : State) (x : Cmd) : Verdict :=
  if x.par64 8 % 16 ≠ 0 ∨ x.par64 5 % 16 ≠ 0 then no stParamRange
  else if !boundChannel s x.chan x.part then no stChannelNotOwned
  else if !(x.par 7 == 0 || windowOk s x.part false (x.par64 5) (x.par 7).toNat) then
    { status := stWindowFault, counts := [(cntWindowFault, x.part)] }
  else {}

/-- LINK_PUSH's work begins. -/
def linkPushStart (x : Cmd) (ticket : Nat) (s : State) : State :=
  let p := x.chan / 16
  let q : PushOp := { id := s.nextId, ticket := ticket, part := x.part, lch := x.chan % 16, src := x.par64 5, left := (x.par 7).toNat
                      dst := x.par64 8 }
  pumpPushes p (takeId (onPel p (fun y => { y with pushes := y.pushes ++ [q] }) s))

/-- LINK_PUSH (R293). -/
def linkPushEffect (c : Nat) (p : Packet) (s : State) : State :=
  serve 0x0708 c p linkPushCheck (fun x t => pend x (linkPushStart x) t) s

/-- LINK_PUSH. -/
def execLinkPush (c : Nat) (p : Packet) (s : State) : Host.Outcome State Fault Refusal := .next (linkPushEffect c p s)

/-! ### LINK_MCAST -/

/-- LINK_MCAST's check (R296, Table 10.11). -/
def linkMcastCheck (s : State) (x : Cmd) : Verdict :=
  let g := tget s.groups x.group
  let n := x.fld 7 12 0
  if n = 0 ∨ 4096 < n then no stParamRange
  else if g.valid ∧ g.owner ≠ x.part then no stChannelNotOwned
  else if g.run.isSome then no stStateBusy
  else if !g.valid || !g.root then no stParamRange
  else if !windowOk s x.part false (x.par64 5) (16 * n) then { status := stWindowFault, counts := [(cntWindowFault, x.part)] }
  else {}

/-- LINK_MCAST's work begins: LMC_RESERVE on each child port (step 1 of Table 08.17). -/
def linkMcastStart (x : Cmd) (ticket : Nat) (s : State) : State :=
  let k := x.group
  let g := tget s.groups k
  let n := x.fld 7 12 0
  let s1 := onGroup k (fun h => { h with run := some { root := true, ticket := ticket, src := x.par64 5, total := n } }) s
  lmcProceed k (g.children.foldl (fun u p => sendTx p { ttype := ttReserve, lch := g.lch, rtile := k, nmask := n } u) s1)

/-- LINK_MCAST (R296). -/
def linkMcastEffect (c : Nat) (p : Packet) (s : State) : State :=
  serve 0x0709 c p linkMcastCheck (fun x t => pend x (linkMcastStart x) t) s

/-- LINK_MCAST. -/
def execLinkMcast (c : Nat) (p : Packet) (s : State) : Host.Outcome State Fault Refusal := .next (linkMcastEffect c p s)

/-! ### LINK_MC_REPORT -/

/-- LINK_MC_REPORT's check (Table 10.11). -/
def linkMcReportCheck (s : State) (x : Cmd) : Verdict :=
  let g := tget s.groups x.group
  firstOf [(!g.valid || g.owner != x.part, stChannelNotOwned)]

/-- One entry of the report (R278). -/
def LmcEntry.dws (e : LmcEntry) : List Dword :=
  [dw e.tiles.toNat, dw (e.tiles.toNat / 2 ^ 32), dw (e.reason + 2 ^ 4 * b2n e.memok + 2 ^ 5 * b2n e.covered)]

/-- The 400-byte report (R278). -/
def linkMcReportOut (s : State) (x : Cmd) : List Byte :=
  let g := tget s.groups x.group
  dwBytes ([dw g.repExpected, dw g.repDelivered, dw x.group, dw g.repTotal] ++ (List.range 32).flatMap (fun n => (tget g.report n).dws))

/-- LINK_MC_REPORT (R278). -/
def linkMcReportEffect (c : Nat) (p : Packet) (s : State) : State :=
  serve 0x070A c p linkMcReportCheck (actOut 5 linkMcReportOut (fun _ _ => [])) s

/-- LINK_MC_REPORT. -/
def execLinkMcReport (c : Nat) (p : Packet) (s : State) : Host.Outcome State Fault Refusal := .next (linkMcReportEffect c p s)

/-! ### Pushes that a partition or a drain ends -/

/-- A partition's pushes end with a status; what is in flight is answered to nobody (R42). -/
def endPushes (part st : Nat) (s : State) : State :=
  (List.range 16).foldl (fun u p =>
    let x := tget u.pel p
    let mine := x.pushes.filter (fun q => q.part == part)
    let gone := fun w => match w with | OutWhy.push i _ _ => mine.any (fun q => q.id == i) | _ => false
    let v := onPel p (fun y => { y with
      pushes := y.pushes.filter (fun q => q.part != part)
      out := tmap (fun _ o => if gone o.why then { o with why := .nobody } else o) y.out }) u
    mine.foldl (fun w q => post q.ticket st [dw q.pushed, dw q.bytes, dw (q.failed.getD 0xFFFFFFFF)] w) v) s

end Sys2Proof.Machine
end

