-- ==== Sys2Proof/Machine/Image.lean ====
section
/-! DEFINITION. Schedule images: their fields, and the checks that PROGRAM_LOAD makes of them (R152 to R162, R164, R180; Tables 05.4
to 05.13, 05.15 and 05.16). -/

namespace Sys2Proof.Machine

/-! ### Faults and where they lie (R163) -/

/-- A field at bit `lo` of dword `n` after byte `base`, and whether it is bad: the byte that holds its first bit. -/
def fault (base n lo : Nat) (bad : Bool) : Nat × Bool := (base + 4 * n + lo / 8, bad)

/-- The lowest byte offset among the bad fields (assumption 15). -/
def lowestBad (fs : List (Nat × Bool)) : Option Nat :=
  fs.foldl (fun m f => if f.2 then some (match m with | some k => min k f.1 | none => f.1) else m) none

/-- The faults of the first group of checks that finds any. -/
def firstGroup : List (List (Nat × Bool)) → Option Nat
  | [] => none
  | g :: r => (lowestBad g).orElse fun _ => firstGroup r

/-! ### Fields (Tables 05.4 to 05.6) -/

/-- An image as dwords. -/
abbrev Image := List Dword

/-- Dword n. -/
def Image.w (g : Image) (n : Nat) : Dword := g.getD n 0
/-- Dword n after byte `base`. -/
def Image.at (g : Image) (base n : Nat) : Dword := g.getD (base / 4 + n) 0
/-- IMGLEN. -/
def Image.len (g : Image) : Nat := (g.w 2).toNat
/-- TILEMASK. -/
def Image.mask (g : Image) : BitVec 64 := BitVec.ofNat 64 ((g.w 4).toNat + 2 ^ 32 * (g.w 5).toNat)
/-- The tiles that run a sequence. -/
def Image.tiles (g : Image) : List Nat := maskTiles g.mask
/-- PERIOD. -/
def Image.period (g : Image) : Nat := bits (g.w 7) 10 0
/-- PEN. -/
def Image.pen (g : Image) : Bool := bit (g.w 7) 11
/-- PTILE. -/
def Image.ptile (g : Image) : Nat := bits (g.w 7) 17 12
/-- NPOWER. -/
def Image.npower (g : Image) : Nat := bits (g.w 8) 8 0
/-- NMSET. -/
def Image.nmset (g : Image) : Nat := bits (g.w 10) 4 0

/-- A tile descriptor, and the byte at which it lies. -/
structure TileDesc where
  pos : Nat := 0
  tile : Nat := 0
  gang : Nat := 0
  nstrm : Nat := 0
  nbound : Nat := 0
  nbundle : Nat := 0
  nremote : Nat := 0
  bundoff : Nat := 0
  aregoff : Nat := 0
  strmoff : Nat := 0
  boundoff : Nat := 0
  remoff : Nat := 0
  deriving DecidableEq, Repr, Inhabited

/-- The descriptor of the k-th tile of TILEMASK. -/
def Image.desc (g : Image) (k : Nat) : TileDesc :=
  let p := (g.w 12).toNat + 64 * k
  let w := g.at p
  { pos := p, tile := bits (w 0) 5 0, gang := bits (w 0) 10 8, nstrm := bits (w 0) 20 16, nbound := bits (w 0) 27 21
    nbundle := bits (w 1) 13 0, nremote := bits (w 1) 18 14, bundoff := (w 2).toNat, aregoff := (w 3).toNat, strmoff := (w 4).toNat
    boundoff := (w 5).toNat, remoff := (w 6).toNat }

/-- The descriptors in order. -/
def Image.descs (g : Image) : List TileDesc := (List.range g.tiles.length).map g.desc

/-- The bundles of a tile with the bytes at which they lie. -/
def Image.bundles (g : Image) (d : TileDesc) : List (Nat × Bundle) :=
  (List.range d.nbundle).map (fun i => let p := d.bundoff + 32 * i; (p, (List.range 8).map (g.at p)))

/-- The stream table of a tile: (STREAM, BIDX). -/
def Image.streams (g : Image) (d : TileDesc) : List (Nat × Nat) :=
  (List.range d.nstrm).map (fun i => let w := g.at (d.strmoff + 4 * i) 0; (bits w 15 0, bits w 23 16))

/-- The bounds of a tile. -/
def Image.bounds (g : Image) (d : TileDesc) : List Bound :=
  (List.range d.nbound).map (fun i =>
    let w := g.at (d.boundoff + 16 * i)
    { lo := w 0, hi := w 1, nanok := bit (w 2) 0, infok := bit (w 2) 1, satok := bit (w 2) 2, maxout := bits (w 2) 31 16 })

/-- The remote-signal entries of a tile. -/
def Image.remotes (g : Image) (d : TileDesc) : List Remote :=
  (List.range d.nremote).map (fun i =>
    let w := g.at (d.remoff + 8 * i) 0
    { channel := bits w 7 0, rtile := bits w 13 8, rcnt := bits w 19 16 })

/-- The address registers of a tile: each at its INIT (R166). -/
def Image.aregs (g : Image) (d : TileDesc) : Tab AReg :=
  (List.range 16).foldl (fun m i =>
    let w := g.at (d.aregoff + 16 * i)
    let v := (w 0).toNat + 2 ^ 32 * bits (w 1) 15 0
    tset m i { val := v, init := v, stride := signed 48 ((w 2).toNat + 2 ^ 32 * bits (w 3) 15 0) }) []

/-- The multicast sets. -/
def Image.msets (g : Image) : List (BitVec 64) :=
  (List.range g.nmset).map (fun i => let w := g.at ((g.w 11).toNat + 8 * i); BitVec.ofNat 64 ((w 0).toNat + 2 ^ 32 * (w 1).toNat))

/-- The power table: (SAMPLE, QUAD, ISTEP). -/
def Image.power (g : Image) : List (Nat × Nat × Int) :=
  (List.range g.npower).map (fun i =>
    let w := g.at ((g.w 9).toNat + 8 * i) 0
    (bits w 10 0, bits w 12 11, signed 16 (bits w 31 16)))

/-! ### Check 1 -/

/-- The image's CRC-32C with the ICRC field taken as 0. -/
def Image.crc (g : Image) : Nat := crc32c (dwBytes (g.set 3 0))

/-- The checks of MAGIC, the version, the length and ICRC. -/
def imageIdent (g : Image) (len : Nat) : List (Nat × Bool) :=
  [fault 0 0 0 ((g.w 0).toNat != 0x49534B41), fault 0 1 0 (bits (g.w 1) 7 0 != 1), fault 0 1 8 (bits (g.w 1) 15 8 != 0),
   fault 0 2 0 (g.len != len), fault 0 3 0 ((g.w 3).toNat != g.crc)]

/-! ### Check 2: reserved fields and codes, and the layout (R152, R156) -/

/-- Fields (hi, lo) of a dword that have to be 0. -/
def zeros (base n : Nat) (w : Dword) (fs : List (Nat × Nat)) : List (Nat × Bool) :=
  fs.map (fun f => fault base n f.2 (bits w f.1 f.2 != 0))

/-- A section: the byte of the field that gives its offset, its offset, its bytes and its alignment. -/
structure Sect where
  fld : Nat := 0
  off : Nat := 0
  len : Nat := 0
  align : Nat := 16

/-- A section is not laid out under R152. -/
def Sect.bad (imglen : Nat) (c : Sect) : Bool :=
  if c.len = 0 then c.off != 0 else c.off % c.align != 0 || decide (imglen < c.off + c.len)

/-- Sections that meet one named before them. -/
def meetings : List Sect → List Sect → List (Nat × Bool)
  | _, [] => []
  | seen, c :: r => (c.fld, seen.any (fun d => overlaps d.off d.len c.off c.len)) :: meetings (c :: seen) r

/-- The sections that the header names. -/
def Image.headSects (g : Image) : List Sect :=
  [{ fld := 36, off := (g.w 9).toNat, len := 8 * g.npower }, { fld := 44, off := (g.w 11).toNat, len := 8 * g.nmset },
   { fld := 48, off := (g.w 12).toNat, len := 64 * g.tiles.length }]

/-- The sections that a descriptor names. -/
def TileDesc.sects (d : TileDesc) : List Sect :=
  [{ fld := d.pos + 8, off := d.bundoff, len := 32 * d.nbundle, align := 32 }, { fld := d.pos + 12, off := d.aregoff, len := 256 },
   { fld := d.pos + 16, off := d.strmoff, len := 4 * d.nstrm }, { fld := d.pos + 20, off := d.boundoff, len := 16 * d.nbound },
   { fld := d.pos + 24, off := d.remoff, len := 8 * d.nremote }]

/-- The header's own fields (Table 05.4). -/
def headFaults (g : Image) : List (Nat × Bool) :=
  zeros 0 1 (g.w 1) [(31, 16)] ++
  [fault 0 2 0 (g.len % 32 != 0 || decide (2 ^ 24 < g.len) || decide (g.len < 128)), fault 0 6 0 (bits (g.w 6) 15 0 == 0)] ++
  zeros 0 6 (g.w 6) [(31, 16)] ++ zeros 0 7 (g.w 7) [(31, 26)] ++ zeros 0 8 (g.w 8) [(31, 9)] ++ zeros 0 10 (g.w 10) [(31, 5)] ++
  [fault 0 8 0 (decide (256 < g.npower)), fault 0 10 0 (decide (16 < g.nmset))] ++
  (if g.pen then [] else zeros 0 7 (g.w 7) [(10, 0), (17, 12), (25, 18)] ++ zeros 0 8 (g.w 8) [(8, 0)]) ++
  ((List.range 19).flatMap (fun i => zeros 0 (13 + i) (g.w (13 + i)) [(31, 0)])) ++
  (g.headSects.map (fun c => (c.fld, c.bad g.len)))

/-- A descriptor's own fields (Table 05.5); `t` is the tile that it has to name. -/
def descFaults (g : Image) (d : TileDesc) (t : Nat) : List (Nat × Bool) :=
  let w := g.at d.pos
  zeros d.pos 0 (w 0) [(7, 6), (15, 11), (31, 28)] ++ zeros d.pos 1 (w 1) [(31, 19)] ++
  ((List.range 9).flatMap (fun i => zeros d.pos (7 + i) (w (7 + i)) [(31, 0)])) ++
  [fault d.pos 0 0 (d.tile != t), fault d.pos 0 8 (decide (3 < d.gang)), fault d.pos 0 16 (decide (16 < d.nstrm)),
   fault d.pos 0 21 (decide (64 < d.nbound)), fault d.pos 1 0 (d.nbundle == 0 || decide (8192 < d.nbundle)),
   fault d.pos 1 14 (decide (16 < d.nremote))] ++
  (d.sects.map (fun c => (c.fld, c.bad g.len)))

/-- The entries of a tile (Table 05.6).  Bits [15:14] of a remote-signal entry's DW0, which stand in no row, are taken as reserved
(assumption 159). -/
def entryFaults (g : Image) (d : TileDesc) : List (Nat × Bool) :=
  ((List.range 16).flatMap (fun i =>
    let p := d.aregoff + 16 * i
    zeros p 0 (g.at p 0) [(3, 0)] ++ zeros p 1 (g.at p 1) [(31, 16)] ++ zeros p 2 (g.at p 2) [(3, 0)] ++ zeros p 3 (g.at p 3) [(31, 16)])) ++
  ((List.range d.nstrm).flatMap (fun i => let p := d.strmoff + 4 * i; zeros p 0 (g.at p 0) [(31, 24)])) ++
  ((List.range d.nbound).flatMap (fun i =>
    let p := d.boundoff + 16 * i
    zeros p 2 (g.at p 2) [(15, 3)] ++ zeros p 3 (g.at p 3) [(31, 0)])) ++
  ((List.range d.nremote).flatMap (fun i =>
    let p := d.remoff + 8 * i
    zeros p 0 (g.at p 0) [(15, 14), (31, 20)] ++ zeros p 1 (g.at p 1) [(31, 0)]))

/-- The power table's entries. -/
def powerFaults (g : Image) : List (Nat × Bool) :=
  (List.range g.npower).flatMap (fun i =>
    let p := (g.w 9).toNat + 8 * i
    [fault p 0 0 (decide (g.period < bits (g.at p 0) 10 0))] ++ zeros p 0 (g.at p 0) [(15, 13)] ++ zeros p 1 (g.at p 1) [(31, 0)])

/-- The reserved bits of a CTRL operation (Table 05.8). -/
def ctrlZeros (cop : Nat) : List (Nat × Nat) :=
  match cop with
  | 1 => [(31, 24)]
  | 4 => [(31, 24)]
  | 5 => [(31, 14)]
  | 8 => []
  | 9 => [(31, 8)]
  | 0xB => [(31, 9)]
  | _ => [(31, 4)]

/-- Reserved codes and bits of a bundle; a slot that does nothing is 0 (R156). -/
def bundleFaults (p : Nat) (b : Bundle) : List (Nat × Bool) :=
  let z := fun n fs => zeros p n (b.getD n 0) fs
  [fault p 0 0 (decide (0xC ≤ b.cop))] ++ z 0 (ctrlZeros b.cop) ++
  z 1 [(31, 31)] ++ z 2 [(31, 29)] ++ z 3 [(31, 28)] ++ z 4 [(31, 31)] ++ z 5 [(7, 0)] ++ z 6 [(23, 23)] ++ z 7 [(31, 31)] ++
  (if b.t 1 0 || b.t 1 13 then
    [fault p 1 28 (decide (6 ≤ b.f 1 30 28)), fault p 1 21 (b.t 1 14 && b.f 1 24 21 != 0), fault p 1 15 (b.t 1 14 && decide (16 ≤ b.f 1 20 15))]
   else z 1 [(4, 1), (12, 5), (14, 14), (20, 15), (24, 21), (27, 25), (30, 28)]) ++
  (if b.moveOp = 0 then z 2 [(5, 2), (6, 6), (10, 7), (11, 11), (15, 12), (27, 16), (28, 28)] ++ z 3 [(3, 0), (15, 4), (27, 16)]
   else [fault p 2 0 (b.moveOp == 3), fault p 2 12 (b.moveOp == 1 && b.f 2 15 12 != 0)]) ++
  (if b.eop = 0 then z 4 [(5, 2), (6, 6), (10, 7), (14, 11), (24, 15), (25, 25), (29, 26), (30, 30)] else [fault p 4 0 (b.eop == 3)]) ++
  (if b.macOp = 0 then
    z 5 [(13, 10), (14, 14), (18, 15), (19, 19), (20, 20), (21, 21), (25, 22), (26, 26), (31, 27)] ++ z 6 [(7, 0), (13, 8), (21, 14), (22, 22)]
   else [fault p 5 8 (b.macOp == 3), fault p 5 10 (b.wfmt == 0xF), fault p 5 15 (b.afmt == 0xF)]) ++
  (if b.pen then [fault p 7 8 (b.cfmt == 0xF), fault p 7 13 (b.cmode == 3)]
   else z 6 [(25, 25), (31, 26)] ++ z 7 [(7, 0), (11, 8), (12, 12), (14, 13), (21, 15), (25, 22), (29, 26), (30, 30)])

/-- The bundles of a tile under check 2. -/
def sequenceFaults (g : Image) (d : TileDesc) : List (Nat × Bool) :=
  (g.bundles d).flatMap (fun e => bundleFaults e.1 e.2)

/-- Check 2: the byte offset of its first bad field. -/
def imageLayout (g : Image) : Option Nat :=
  firstGroup [
    headFaults g,
    (g.descs.zip g.tiles).flatMap (fun e => descFaults g e.1 e.2),
    meetings [{ len := 128 }] (g.headSects ++ g.descs.flatMap TileDesc.sects),
    powerFaults g ++ g.descs.flatMap (entryFaults g) ++ g.descs.flatMap (sequenceFaults g)]

/-! ### Check 7: the rules of Table 05.16 -/

/-- LOOP and ENDLOOP pair up, at most 4 deep, HALT outside. -/
def loopFaults : Nat → List (Nat × Bundle) → List (Nat × Bool)
  | _, [] => []
  | n, (p, b) :: r =>
    match b.cop with
    | 1 => (p, decide (4 ≤ n)) :: loopFaults (n + 1) r
    | 2 => (p, n == 0) :: loopFaults (n - 1) r
    | 0xA => (p, n != 0) :: loopFaults n r
    | _ => loopFaults n r

/-- HALT is the last bundle and no other (Table 05.8). -/
def haltFaults (g : Image) (d : TileDesc) : List (Nat × Bool) :=
  (g.bundles d).zipIdx.map (fun e => fault e.1.1 0 0 ((e.1.2.cop == 0xA) != (e.2 + 1 == d.nbundle)))

/-- The registers that each slot of a bundle increments or advances. -/
def Bundle.stepped (b : Bundle) : List (List Nat) :=
  [if (b.cop = 5 ∧ b.t 0 8 = true) ∨ b.cop = 8 then [b.creg] else [],
   if b.moveOp ≠ 0 then (if b.t 2 6 then [b.sreg] else []) ++ (if b.t 2 11 then [b.dreg] else []) else [],
   if b.eop ≠ 0 ∧ b.t 4 6 = true then [b.treg] else [],
   if b.pen = true ∧ b.pdinc = true then [b.pdreg] else []]

/-- Two slots of a bundle step one register. -/
def Bundle.clash (b : Bundle) : Bool :=
  match b.stepped with
  | [c, m, e, p] => c.any (m.contains ·) || c.any (e.contains ·) || c.any (p.contains ·) || m.any (e.contains ·) || m.any (p.contains ·) ||
      e.any (p.contains ·)
  | _ => false

/-- Bytes of a converted PACK. -/
def Bundle.packBytes (b : Bundle) : Nat := rowBytes b.cfmt b.cbs (64 * b.prows)

/-- A bundle under Table 05.16. -/
def ruleFaults (g : Image) (d : TileDesc) (p : Nat) (b : Bundle) : List (Nat × Bool) :=
  let sync := b.t 1 13
  let mac := b.macOp != 0
  [fault p 1 15 (sync && (if b.t 1 14 then decide (d.nremote ≤ b.f 1 20 15) else !g.mask.getLsbD (b.f 1 20 15))),
   fault p 2 12 (b.moveOp == 2 && decide (g.nmset ≤ b.f 2 15 12)),
   fault p 4 26 (b.eop != 0 && b.esen && decide (d.nstrm ≤ b.esidx)),
   fault p 7 22 (b.pen && decide (d.nstrm ≤ b.psidx)),
   fault p 0 0 (b.clash || (b.cop == 6 && (!g.pen || d.tile != g.ptile))),
   fault p 5 10 (mac && (accKind b.wfmt b.wbs b.afmt b.abs).isNone),
   fault p 6 0 (mac && decide (256 < b.aoff + (b.mrows - 1) * b.astr)),
   fault p 5 27 (mac && decide (16 * b.astr < rowBytes b.afmt b.abs (depthOf b.wfmt))),
   fault p 6 14 (mac && decide (255 < b.maccr + (b.mrows - 1) * b.mstep)),
   fault p 4 11 (b.eop == 1 && decide (2 ≤ b.eslot)),
   fault p 4 15 (b.eop == 2 && decide (256 ≤ b.boff)),
   fault p 7 0 (b.pen && decide (255 < b.paccr + (b.prows - 1))),
   fault p 7 8 (b.pen && b.cbs && !scalable b.cfmt),
   fault p 6 26 (b.pen && decide (16384 < b.packBytes))]

/-- A bound's limits (Table 05.6). -/
def boundFaults (p : Nat) (bd : Bound) : List (Nat × Bool) :=
  let lo := ({} : FloatFmt).value bd.lo.toNat
  let hi := ({} : FloatFmt).value bd.hi.toNat
  [fault p 0 0 (decide (lo = .nan)), fault p 1 0 (decide (hi = .nan) || hi.below lo)]

/-- The descriptor of a tile. -/
def Image.descOf (g : Image) (t : Nat) : Option TileDesc := g.descs.find? (fun d => d.tile == t)

/-- CHECKPOINT bundles of a tile. -/
def Image.checkpoints (g : Image) (d : TileDesc) : Nat := ((g.bundles d).filter (fun e => e.2.cop == 3)).length

/-- A tile's gang (R180). -/
def gangFaults (g : Image) (d : TileDesc) : List (Nat × Bool) :=
  let h := gangSize d.gang
  let top := 8 * (d.tile / 8 / h * h) + d.tile % 8
  let others := (List.range h).map (fun i => g.descOf (top + 8 * i))
  let same := others.all (fun o => match o with | some e => e.gang == d.gang && g.checkpoints e == g.checkpoints d | none => false)
  fault d.pos 0 8 (!same) ::
    (if d.tile = top then [] else (g.bundles d).flatMap (fun e => [fault e.1 5 8 (e.2.macOp != 0), fault e.1 6 24 e.2.pen]))

/-- Check 7 over one tile. -/
def tileRules (g : Image) (d : TileDesc) : List (Nat × Bool) :=
  ((g.streams d).zipIdx.map (fun e => fault (d.strmoff + 4 * e.2) 0 16 (e.1.2 != 0xFF && decide (d.nbound ≤ e.1.2)))) ++
  ((g.bounds d).zipIdx.flatMap (fun e => boundFaults (d.boundoff + 16 * e.2) e.1)) ++
  loopFaults 0 (g.bundles d) ++ haltFaults g d ++ ((g.bundles d).flatMap (fun e => ruleFaults g d e.1 e.2)) ++ gangFaults g d

/-- Check 7: the byte offset of its first bad field. -/
def imageRules (g : Image) : Option Nat :=
  lowestBad ((g.msets.zipIdx.map (fun e => fault ((g.w 11).toNat + 8 * e.2) 0 0 (e.1 &&& ~~~g.mask != 0))) ++ g.descs.flatMap (tileRules g))

/-! ### The checks in order (Table 05.15) -/

/-- A check's status with the result that goes with it. -/
structure LoadEnd where
  status : Nat := 0
  result : List Dword := []

/-- A fenced or unpowered quadrant of a tile (R381): its HINT. -/
def tileFence (s : State) (t : Nat) : Option Nat :=
  let d := tget s.doms (quadOf t)
  if d.fenced || !d.on then some d.hint else none

/-- The load checks in order; `free` says whether a program slot is left. -/
def loadChecks (s : State) (part : Nat) (g : Image) (len : Nat) : LoadEnd :=
  match lowestBad (imageIdent g len) with
  | some o => { status := stImageInvalid, result := [0, dw o] }
  | none =>
    match imageLayout g with
    | some o => { status := stImageInvalid, result := [0, dw o] }
    | none =>
      if g.tiles.any (fun t => decide ((tget s.tiles t).owner ≠ some part)) then { status := stTileNotOwned }
      else match g.tiles.findSome? (tileFence s) with
        | some h => { status := stDomainFenced, result := [dw h] }
        | none =>
          if g.tiles.any (fun t => (tget s.tiles t).prog.isSome) then { status := stTileBusy }
          else if g.descs.any (fun d => (g.streams d).any (fun e => !inStreams s part e.1)) then { status := stStreamRange }
          else if g.descs.any (fun d => (g.remotes d).any (fun r => !ownedChannel s part r.channel)) then { status := stChannelNotOwned }
          else match imageRules g with
            | some o => { status := stImageInvalid, result := [0, dw o] }
            | none => {}
where
  /-- A channel is bound to the partition. -/
  ownedChannel (s : State) (part ch : Nat) : Bool := let c := tget s.chans ch; c.valid && c.owner == part

end Sys2Proof.Machine
end

