-- ==== Sys2Proof/Machine/CmdPrograms.lean ====
section
/-! DEFINITION. Programs, results and the multicast report: the commands of group 0x06xx, a load's completion and a run's end (R163 to
R166, R182 to R184, R234, R335, R354, R367, R368, R377, R380, R381, R438, R485, R489). -/

namespace Sys2Proof.Machine

/-! ### Program identifiers (R354) -/

/-- The identifier of a slot's program. -/
def progId (s : State) (k : Nat) : Nat := k + 2 ^ 6 * (tget s.progs k).gen

/-- The slot of the program of the command's partition that PROG names. -/
def progNamed (s : State) (x : Cmd) : Option Nat :=
  let id := x.fld 4 15 0
  let p := tget s.progs (id % 64)
  if p.loaded ∧ p.gen = id / 64 ∧ p.part = x.part then some (id % 64) else none

/-- The slot that PROG names, for a command whose checks have passed. -/
def Cmd.progSlot (x : Cmd) : Nat := x.fld 4 5 0

/-! ### PROGRAM_LOAD (R164) -/

/-- PROGRAM_LOAD checks nothing before its work. -/
def programLoadCheck (_ : State) (_ : Cmd) : Verdict := {}

/-- PROGRAM_LOAD's work begins. -/
def programLoadStart (x : Cmd) (ticket : Nat) (s : State) : State :=
  { s with loads := s.loads ++ [{ ticket := ticket, part := x.part, addr := x.par64 4, len := (x.par 6).toNat }] }

/-- PROGRAM_LOAD (R164). -/
def programLoadEffect (c : Nat) (p : Packet) (s : State) : State :=
  serve 0x0600 c p programLoadCheck (fun x t => pend x (programLoadStart x) t) s

/-- PROGRAM_LOAD. -/
def execProgramLoad (c : Nat) (p : Packet) (s : State) : Host.Outcome State Fault Refusal := .next (programLoadEffect c p s)

/-- The program slots that hold no program. -/
def freeProgs (s : State) : List Nat := (List.range 64).filter (fun k => !(tget s.progs k).loaded)

/-- A tile takes its sequence. -/
def Tile.load (x : Tile) (k : Nat) (g : Image) (d : TileDesc) : Tile :=
  { x with prog := some k, gang := d.gang, bundles := (g.bundles d).map Prod.snd, a := g.aregs d, streams := g.streams d
           bounds := g.bounds d, remotes := g.remotes d }

/-- Background work on tiles that a command names stops, and counts as a stall (R38, R440). -/
def abortKernels (ts : List Nat) (s : State) : State := ts.foldl (fun u t => abortKernel t u) s

/-- A sound image is loaded into slot `k`. -/
def loadProgram (k part : Nat) (g : Image) (s : State) : State :=
  let old := tget s.progs k
  let prog : Prog :=
    { gen := old.gen, loaded := true, part := part, tilemask := g.mask, wdlim := bits (g.w 6) 15 0, pen := g.pen, ptile := g.ptile
      period := g.period, lead := bits (g.w 7) 25 18, icrc := (g.w 3).toNat, power := g.power, msets := g.msets }
  g.descs.foldl (fun u d => onTile d.tile (fun x => x.load k g d) u) (abortKernels g.tiles { s with progs := tset s.progs k prog })

/-- A confirmation, due or running, is of a tile: of both of a pair after a DUAL mismatch (Table 12.11). -/
def Confirm.isOn (c : Confirm) (t : Nat) : Bool := c.tile == t || (c.incident.kind == kindDual && c.tile + 1 == t)

/-- A load waits for a kernel of KAK_RUN, or for a confirmation due or running, on a tile that the image names (R380, R443). -/
def loadWaits (s : State) (ts : List Nat) : Bool :=
  ts.any (fun t =>
    (match (tget s.tiles t).kernel with | some k => decide (k.why ≠ .background) | none => false) || s.integ.confirms.any (·.isOn t))

/-- A load ends: the image has been read and checked (R164); a stream out of range is counted (Table 01.6). -/
def finishLoad (o : LoadOp) (s : State) : State :=
  let s0 := { s with loads := s.loads.filter (fun x => x.ticket != o.ticket) }
  let got := partRead viaProc o.part o.addr o.len s0
  let s1 := got.s
  let r := got.reply
  if r.status ≠ 0 then post o.ticket r.status r.result (countFault o.part r.status s1)
  else match got.bad with
    | b :: _ => post o.ticket stPoisonConsumed [] (poisonConsumed o.part (unitId 0x0D 0) (devAddr s1 o.part (o.addr + 16 * b)) 0 s1)
    | [] =>
      let g := bytesDw got.bytes
      let v := loadChecks s1 o.part g o.len
      if v.status ≠ 0 then post o.ticket v.status v.result (if v.status = stStreamRange then bump cntStreamRange o.part s1 else s1)
      else if freeProgs s1 = [] then post o.ticket stQueueFull [] s1
      else
        let k := (freeProgs s1).getD (freeBelow s1 (freeProgs s1).length) 0
        post o.ticket stOk [dw (progId s1 k)] (loadProgram k o.part g (drawFree s1))

/-- The tiles that a load's image names, as far as it can be read. -/
def loadTiles (s : State) (o : LoadOp) : List Nat :=
  let g := partRead viaProc o.part o.addr 32 s
  if g.st ≠ 0 then [] else Image.tiles (bytesDw g.bytes)

/-- PROGRAM_LOAD_COMPLETE (R164). -/
def programLoadCompleteEffect (ticket : Nat) (s : State) : State :=
  match s.loads.find? (fun o => o.ticket == ticket) with
  | none => s
  | some o => if loadWaits s (loadTiles s o) then s else finishLoad o s

/-- PROGRAM_LOAD_COMPLETE. -/
def execProgramLoadComplete (ticket : Nat) (s : State) : Host.Outcome State Fault Refusal := .next (programLoadCompleteEffect ticket s)

/-! ### Teaching (R182, R485, R489) -/

/-- A loop gets a teacher: its repetitive memory stays for the same image and period, and its phase begins at the first mark. -/
def KLoop.taughtBy (l : KLoop) (k : Nat) (p : Prog) : KLoop :=
  { l with
    teacher := some k, phase := 0, since := 0, seen := false, onTime := 0, held := false, markDue := false, marked := false
    m := if l.lastIcrc = some (p.icrc, p.period) then l.m else []
    lastIcrc := some (p.icrc, p.period) }

/-- A loop without a teacher. -/
def KLoop.untaught (l : KLoop) : KLoop := { l with teacher := none, markDue := false, marked := false }

/-- The programs that teach L0 to L3. -/
def teachers (s : State) : List Nat := ((List.range 4).filterMap (fun q => (tget s.loops q).teacher)).eraseDups

/-- L4 learns only while exactly one program teaches (R485). -/
def settleL4 (s : State) : State :=
  let l := tget s.loops 4
  match teachers s with
  | [k] => if l.teacher = some k then s else { s with loops := tset s.loops 4 (l.taughtBy k (tget s.progs k)) }
  | _ => { s with loops := tset s.loops 4 l.untaught }

/-- A program with a load period starts: it teaches each quadrant of its tiles that has no teacher. -/
def startTeaching (k : Nat) (s : State) : State :=
  let p := tget s.progs k
  if !p.pen then s
  else
    let qs := ((maskTiles p.tilemask).map quadOf).eraseDups.filter (fun q => (tget s.loops q).teacher.isNone)
    settleL4 { s with loops := qs.foldl (fun ls q => tset ls q ((tget ls q).taughtBy k p)) s.loops }

/-- A program teaches no longer. -/
def stopTeaching (k : Nat) (s : State) : State :=
  settleL4 { s with loops := tmap (fun _ (l : KLoop) => if l.teacher = some k then l.untaught else l) s.loops }

/-! ### PROGRAM_RUN (R166) -/

/-- PROGRAM_RUN's check (Table 10.10, R438). -/
def programRunCheck (s : State) (x : Cmd) : Verdict :=
  match progNamed s x with
  | none => no stParamRange
  | some k =>
    let p := tget s.progs k
    let dual := decide ((tget s.parts x.part).mode = .dual)
    let ts := maskTiles p.tilemask
    firstOf [
      (p.running, stStateBusy),
      (dual && ts.any (fun t => t % 2 == 1), stParamRange),
      (dual && ts.any (fun t => (tget s.tiles (t + 1)).prog.isSome), stTileBusy)]

/-- A tile at the start of a run (R166). -/
def Tile.start (x : Tile) : Tile :=
  let a := tmap (fun _ (r : AReg) => { r with val := r.init, busy := 0 }) x.a
  { x.halt.clean with
    running := true, halted := false, a := a, c := [], loops := [], pc := 0, issued := 0, packNo := 0, tally := {}
    cp := { regs := a } }

/-- A run starts on every tile at once, under the partition's check mode. -/
def startRun (k ticket : Nat) (s : State) : State :=
  let p := tget s.progs k
  let q := tget s.parts p.part
  let p1 := { p with running := true, ticket := ticket, mode := q.mode, log2n := q.log2n, started := s.aclk.cycles, ending := none, replays := 0
                     refetch := 0, poisoned := 0 }
  let s1 := { s with progs := tset s.progs k p1 }
  let shadows := if q.mode = .dual then (maskTiles p.tilemask).map (· + 1) else []
  let s2 := (maskTiles p.tilemask).foldl (fun u t => onTile t Tile.start u) (abortKernels shadows s1)
  startTeaching k (shadows.foldl (fun u t => onTile t Tile.clean u) s2)

/-- PROGRAM_RUN's action: it waits while a confirmation of one of its tiles is due or running (R443). -/
def programRunAct (x : Cmd) (s : State) : State :=
  let ts := maskTiles (tget s.progs x.progSlot).tilemask
  if loadWaits s ts then stall x s else pend x (fun t u => startRun x.progSlot t u) s

/-- PROGRAM_RUN (R166). -/
def programRunEffect (c : Nat) (p : Packet) (s : State) : State := serve 0x0601 c p programRunCheck programRunAct s

/-- PROGRAM_RUN. -/
def execProgramRun (c : Nat) (p : Packet) (s : State) : Host.Outcome State Fault Refusal := .next (programRunEffect c p s)

/-! ### PROGRAM_ABORT -/

/-- PROGRAM_ABORT's check (Table 10.10, R377). -/
def programAbortCheck (s : State) (x : Cmd) : Verdict :=
  match progNamed s x with
  | none => no stParamRange
  | some k => let p := tget s.progs k; firstOf [(!p.running || p.ending.isSome, stStateBusy)]

/-- PROGRAM_ABORT (R184). -/
def programAbortEffect (c : Nat) (p : Packet) (s : State) : State :=
  serve 0x0602 c p programAbortCheck (actDo (fun x t => endRun x.progSlot { status := stAborted } t)) s

/-- PROGRAM_ABORT. -/
def execProgramAbort (c : Nat) (p : Packet) (s : State) : Host.Outcome State Fault Refusal := .next (programAbortEffect c p s)

/-! ### PROGRAM_UNLOAD -/

/-- PROGRAM_UNLOAD's check (Table 10.10). -/
def programUnloadCheck (s : State) (x : Cmd) : Verdict :=
  match progNamed s x with
  | none => no stParamRange
  | some k => firstOf [((tget s.progs k).running, stStateBusy)]

/-- A tile that holds no program any more. -/
def Tile.unload (x : Tile) : Tile :=
  { x.halt with prog := none, gang := 0, bundles := [], a := [], streams := [], bounds := [], remotes := [], pc := 0, halted := false }

/-- A program is unloaded: its tiles are free, and the slot's generation advances (R354). -/
def unloadProg (k : Nat) (s : State) : State :=
  let p := tget s.progs k
  (maskTiles p.tilemask).foldl (fun u t => onTile t Tile.unload u) { s with progs := tset s.progs k { gen := (p.gen + 1) % 1024 } }

/-- PROGRAM_UNLOAD (R165). -/
def programUnloadEffect (c : Nat) (p : Packet) (s : State) : State :=
  serve 0x0603 c p programUnloadCheck (actDo (fun x t => unloadProg x.progSlot t)) s

/-- PROGRAM_UNLOAD. -/
def execProgramUnload (c : Nat) (p : Packet) (s : State) : Host.Outcome State Fault Refusal := .next (programUnloadEffect c p s)

/-! ### PROGRAM_COMPLETE (R183) -/

/-- The program's result (Table 05.14).  DESIGN CHOICE: its count of ACLK cycles is what passed from tick to tick, and a free number of
cycles for where in their TCLK cycles the run began and ended (assumption 164). -/
def progResult (s : State) (p : Prog) (e : RunEnd) : List Dword :=
  let cyc := s.aclk.cycles - p.started + freeBelow s 27 - 13
  [dw (e.tile + 2 ^ 6 * b2n e.tvalid + 2 ^ 7 * e.err + 2 ^ 11 * e.slotk), dw e.bundle, dw p.replays, dw p.refetch, dw cyc, dw (cyc / 2 ^ 32)]

/-- How a run that no event ended has ended (R432). -/
def normalEnd (p : Prog) : RunEnd := { status := if p.poisoned ≠ 0 then stPoisonPropagated else stOk }

/-- The unit that ended a run with poison or a CRC-32C that failed twice is counted (Table 12.2). -/
def countEnd (part : Nat) (e : RunEnd) (s : State) : State :=
  if e.unit = 0 then s
  else if e.status = stPoisonConsumed then bump cntPoisonConsumed part s
  else if e.status = stCheckFailed then bump cntCheckFailed e.unit s
  else s

/-- A run is over: what its tiles still held is released, cured windows are recorded, and the result is posted. -/
def closeRun (k : Nat) (s : State) : State :=
  let p := tget s.progs k
  let e := p.ending.getD (normalEnd p)
  let ts := maskTiles p.tilemask
  let s1 := if p.ending.isSome then s
    else ts.foldl (fun u t => onTile t Tile.halt (releaseAll (fun _ => false) t (cureRecord t u))) s
  let s2 := stopTeaching k (poisonPropagated p.part p.poisoned (countEnd p.part e s1))
  post p.ticket e.status (progResult s2 p e) (drawFree { s2 with progs := tset s2.progs k { p with running := false, ending := none } })

/-- Every tile of a program has issued HALT and completed everything. -/
def allFinished (s : State) (p : Prog) : Bool := (maskTiles p.tilemask).all (finished s)

/-- PROGRAM_COMPLETE (R183). -/
def programCompleteEffect (k : Nat) (s : State) : State :=
  let p := tget s.progs k
  if p.running = true ∧ (p.ending.isSome = true ∨ allFinished s p = true) then closeRun k s else s

/-- PROGRAM_COMPLETE. -/
def execProgramComplete (slot : Nat) (s : State) : Host.Outcome State Fault Refusal := .next (programCompleteEffect slot s)

/-! ### GET_RESULT and ACK_RESULT (R335, R368) -/

/-- The ticket that a command names. -/
def Cmd.ticket (x : Cmd) : Nat := (x.par 4).toNat

/-- The carrier may read a slot of its port (R368). -/
def mayRead (s : State) (x : Cmd) (r : RSlot) : Bool :=
  match boundPart s x.carrier with
  | some q => !r.device && r.part == q
  | none =>
    if isAdmin s x.port then true
    else !r.device && (!isQp x.carrier || boundToPort s r.part x.port)

/-- The slot that the ticket names for the carrier. -/
def slotNamed (s : State) (x : Cmd) : Option RSlot :=
  let t := x.ticket
  let r := tget s.slots (tkSlot t)
  if r.held ∧ r.gen = tkGen t ∧ r.port = x.port ∧ tkPort t = x.port ∧ r.part = tkPart t ∧ mayRead s x r = true then some r else none

/-- GET_RESULT and ACK_RESULT check nothing that the reply does not say. -/
def resultCheck (s : State) (x : Cmd) : Verdict :=
  match slotNamed s x with
  | none => no stNoResult
  | some _ => {}

/-- GET_RESULT's reply (R335). -/
def getResultApply (x : Cmd) (s : State) : Reply × State :=
  match slotNamed s x with
  | none => ({}, s)
  | some r =>
    match r.final with
    | none => ({ status := stPending }, s)
    | some st => ({ status := st, result := r.result, reread := r.reread },
        { s with slots := tset s.slots (tkSlot x.ticket) { r with reread := true } })

/-- GET_RESULT (R335). -/
def getResultEffect (c : Nat) (p : Packet) (s : State) : State := serve 0x0604 c p resultCheck (actFw getResultApply) s

/-- GET_RESULT. -/
def execGetResult (c : Nat) (p : Packet) (s : State) : Host.Outcome State Fault Refusal := .next (getResultEffect c p s)

/-- ACK_RESULT's reply (R335). -/
def ackResultApply (x : Cmd) (s : State) : Reply × State :=
  match slotNamed s x with
  | none => ({}, s)
  | some r =>
    match r.final with
    | none => ({ status := stPending }, s)
    | some _ => ({}, { s with slots := tset s.slots (tkSlot x.ticket) r.release })

/-- ACK_RESULT (R335). -/
def ackResultEffect (c : Nat) (p : Packet) (s : State) : State := serve 0x0605 c p resultCheck (actFw ackResultApply) s

/-- ACK_RESULT. -/
def execAckResult (c : Nat) (p : Packet) (s : State) : Host.Outcome State Fault Refusal := .next (ackResultEffect c p s)

/-! ### MCAST_REPORT (R234) -/

/-- A partition's multicast report (Table 07.7). -/
def McReport.dws (r : McReport) : List Dword :=
  [dw r.setMask.toNat, dw (r.setMask.toNat / 2 ^ 32), dw r.delivered.toNat, dw (r.delivered.toNat / 2 ^ 32)] ++
  (List.range 8).map (fun i => dw (((List.range 8).map (fun j => tget r.reasons (8 * i + j) * 16 ^ j)).sum))

/-- MCAST_REPORT checks nothing of its own. -/
def mcastReportCheck (_ : State) (_ : Cmd) : Verdict := {}

/-- What MCAST_REPORT returns. -/
def mcastReportOut (s : State) (x : Cmd) : List Byte := dwBytes (tget s.parts x.part).report.dws

/-- MCAST_REPORT (R234). -/
def mcastReportEffect (c : Nat) (p : Packet) (s : State) : State :=
  serve 0x0606 c p mcastReportCheck (actOut 4 mcastReportOut (fun _ _ => [])) s

/-- MCAST_REPORT. -/
def execMcastReport (c : Nat) (p : Packet) (s : State) : Host.Outcome State Fault Refusal := .next (mcastReportEffect c p s)

end Sys2Proof.Machine
end

