-- ==== Sys2Proof/Machine/CmdPartitions.lean ====
section
/-! DEFINITION. Partitions, queue pairs and privilege: the commands of group 0x01xx, and the ends of a partition's reset and destroy
(R313, R314, R328, R361, R385 to R387, R392 to R395, R406 to R409, R413, R414). -/

namespace Sys2Proof.Machine

/-! ### PART_CREATE -/

/-- PART_CREATE's check (Table 10.5). -/
def partCreateCheck (s : State) (x : Cmd) : Verdict :=
  let b := x.fld 4 15 0
  let n := x.fld 5 16 0
  firstOf [
    (partExists s x.part, stStateBusy),
    (n == 0 || decide (65536 < n) || decide (65536 < b + n), stParamRange),
    (s.parts.any (fun e => decide (e.2.state ≠ .absent) && overlaps b n e.2.sbase e.2.scount), stParamRange)]

/-- A counter key belongs to a partition. -/
def ofPartition (part key : Nat) : Bool := cntScope (key / 65536) == some .part && key % 65536 == part

/-- A view whose thresholds on a partition's counters are disabled. -/
def View.forget (part : Nat) (v : View) : View :=
  { v with thr := tmap (fun _ (t : Threshold) => if ofPartition part (cntKey t.cid t.inst) then { t with en := false } else t) v.thr }

/-- A partition's counters are 0, and no threshold of any view watches them (R392, Table 11.8). -/
def clearCounts (part : Nat) (s : State) : State :=
  { s with
    cnt := tfilter (fun k _ => !ofPartition part k) s.cnt
    ports := (List.range 4).foldl (fun u p => tmod u p (fun o => { o with view := o.view.forget part })) s.ports
    qps := tmap (fun _ (q : Qp) => { q with view := q.view.forget part }) s.qps }

/-- PART_CREATE's effect (R392). -/
def partCreateApply (x : Cmd) (s : State) : State :=
  let t := clearCounts x.part s
  { t with parts := tset t.parts x.part { state := .active, sbase := x.fld 4 15 0, scount := x.fld 5 16 0 } }

/-- PART_CREATE (R392). -/
def partCreateEffect (c : Nat) (p : Packet) (s : State) : State := serve 0x0100 c p partCreateCheck (actDo partCreateApply) s

/-- PART_CREATE. -/
def execPartCreate (c : Nat) (p : Packet) (s : State) : Host.Outcome State Fault Refusal := .next (partCreateEffect c p s)

/-! ### Steps 1 and 2 of a reset or destroy (Table 11.7) -/

/-- A carrier is a queue pair bound to a partition. -/
def boundTo (s : State) (part c : Nat) : Bool := boundPart s c == some part

/-- The partition's loads in progress end. -/
def endLoads (part st : Nat) (s : State) : State :=
  (s.loads.filter (fun o => o.part == part)).foldl (fun u o => post o.ticket st [] u)
    { s with loads := s.loads.filter (fun o => o.part != part) }

/-- A stream lies in the partition's range. -/
def Part.owns (q : Part) (n : Nat) : Bool := decide (q.sbase ≤ n) && decide (n < q.sbase + q.scount)

/-- The queued flushes of the partition's streams end. -/
def endFlushes (part st : Nat) (s : State) : State :=
  let q := tget s.parts part
  (s.cm.flushes.filter (fun e => q.owns e.1)).foldl (fun u e => e.2.foldl (fun v t => post t st [] v) u)
    { s with cm := { s.cm with flushes := tfilter (fun n _ => !q.owns n) s.cm.flushes } }

/-- The locks of the queue pairs bound to a partition break (Table 11.5). -/
def breakBound (part : Nat) (s : State) : State := breakLocks (boundTo s part) s

/-- The multicasts that the partition's tiles receive are aborted (R258). -/
def abortLandings (part : Nat) (s : State) : State :=
  ((s.tiles.filter (fun e => e.2.owner == some part)).map Prod.fst).foldl (fun u t => abortLanding t u) s

/-- The partition's work ends with ST_PARTITION_RESET, and the locks of its bound queue pairs break. -/
def stopPart (part : Nat) (s : State) : State :=
  let st := stPartitionReset
  abandonLmc part st (abortLandings part (endPushes part st (orphanTails part (endJobs st part (endRuns st part (endLoads part st
    (endFlushes part st (breakBound part s))))))))

/-- A reset begins. -/
def beginReset (part ticket : Nat) (s : State) : State :=
  stopPart part { s with parts := tmod s.parts part (fun q => { q with state := .resetting, resetTks := [ticket] }) }

/-- The maps of windows end with a status, and no window remains (R375, R409). -/
def endMaps (mine : Nat → Window → Bool) (st : Nat) (s : State) : State :=
  (s.windows.filter (fun e => e.2.zeroing && mine e.1 e.2)).foldl (fun u e => post e.2.ticket st [] u)
    (forgetPages { s with windows := tfilter (fun k w => !(w.zeroing && mine k w)) s.windows })

/-- A partition's windows are no longer sources: the maps of other partitions that share them end (R409). -/
def endSharers (part : Nat) (s : State) : State :=
  endMaps (fun k w => w.shared && w.srcPart == part && k / 16 != part) stParamRange s

/-- A destroy begins: the partition's maps end, and maps that share its windows. -/
def beginDestroy (part : Nat) (tickets : List Nat) (s : State) : State :=
  let s1 := { s with parts := tmod s.parts part (fun q => { q with state := .destroying, destroyTks := tickets, laterTks := [] }) }
  endSharers part (endMaps (fun k _ => k / 16 == part) stPartitionReset (stopPart part s1))

/-! ### PART_RESET and PART_DESTROY -/

/-- PART_RESET checks nothing of its own. -/
def partResetCheck (_ : State) (_ : Cmd) : Verdict := {}

/-- A reset or destroy that is accepted while one is in progress: its ticket waits, and the locks of the bound queue pairs break all the
same (R414, Table 11.5). -/
def joinPart (part : Nat) (f : Part → Part) (s : State) : State := breakBound part { s with parts := tmod s.parts part f }

/-- PART_RESET's work begins, or joins what is in progress (R414). -/
def partResetStart (x : Cmd) (ticket : Nat) (s : State) : State :=
  match (tget s.parts x.part).state with
  | .resetting => joinPart x.part (fun q => { q with resetTks := q.resetTks ++ [ticket] }) s
  | .destroying => joinPart x.part (fun q => { q with lateResets := q.lateResets ++ [ticket] }) s
  | _ => beginReset x.part ticket s

/-- PART_RESET (R407). -/
def partResetEffect (c : Nat) (p : Packet) (s : State) : State :=
  serve 0x0102 c p partResetCheck (fun x t => pend x (partResetStart x) t) s

/-- PART_RESET. -/
def execPartReset (c : Nat) (p : Packet) (s : State) : Host.Outcome State Fault Refusal := .next (partResetEffect c p s)

/-- PART_DESTROY checks nothing of its own. -/
def partDestroyCheck (_ : State) (_ : Cmd) : Verdict := {}

/-- PART_DESTROY's work begins, waits for a reset, or joins a destroy (R414). -/
def partDestroyStart (x : Cmd) (ticket : Nat) (s : State) : State :=
  match (tget s.parts x.part).state with
  | .resetting => endSharers x.part (joinPart x.part (fun q => { q with laterTks := q.laterTks ++ [ticket] }) s)
  | .destroying => joinPart x.part (fun q => { q with destroyTks := q.destroyTks ++ [ticket] }) s
  | _ => beginDestroy x.part [ticket] s

/-- PART_DESTROY (R409). -/
def partDestroyEffect (c : Nat) (p : Packet) (s : State) : State :=
  serve 0x0101 c p partDestroyCheck (fun x t => pend x (partDestroyStart x) t) s

/-- PART_DESTROY. -/
def execPartDestroy (c : Nat) (p : Packet) (s : State) : Host.Outcome State Fault Refusal := .next (partDestroyEffect c p s)

/-! ### Steps 3 to 5 (Table 11.7) -/

/-- An outbound Peloc transaction on one of the partition's channels has no response yet. -/
def chanAwaited (s : State) (part : Nat) : Bool :=
  s.pel.any (fun e => e.2.out.any (fun o =>
    o.2.live && (tget s.chans (16 * e.1 + o.2.lch)).valid && (tget s.chans (16 * e.1 + o.2.lch)).owner == part))

/-- Something of the partition is still awaited (step 3). -/
def partAwaited (s : State) (part : Nat) : Bool :=
  s.progs.any (fun e => e.2.running && e.2.part == part) || s.reqs.any (fun r => r.pkt.part == part && !r.pkt.sys) ||
  s.netq.any (fun r => r.1.part == part && !r.1.sys) || chanAwaited s part

/-- Every stream of the partition's range is reset, its holder and waiters gone (R117). -/
def resetStreams (part : Nat) (s : State) : State :=
  let q := tget s.parts part
  let s1 := { s with
    ctxs := tfilter (fun n _ => !q.owns n) s.ctxs
    cm := { s.cm with holder := tfilter (fun n _ => !q.owns n) s.cm.holder, waiting := s.cm.waiting.filter (fun w => !q.owns w.2) } }
  match s.cm.base with
  | some b => zeroRange (b + 64 * q.sbase) (64 * q.scount) s1
  | none => s1

/-- The partition's static slots are released (R118). -/
def releaseSlots (part : Nat) (s : State) : State :=
  ((s.sslots.filter (fun e => e.2.owner == .part part)).map Prod.fst).foldl (fun u k => freeStatic k u) s

/-- The partition's programs are unloaded. -/
def unloadAll (part : Nat) (s : State) : State :=
  ((s.progs.filter (fun e => e.2.loaded && e.2.part == part)).map Prod.fst).foldl (fun u k => unloadProg k u) s

/-- Allocated buffers of the partition's pools. -/
def buffersOf (s : State) (part : Nat) : Nat :=
  ((s.pools.filter (fun e => e.2.owner == some part)).map (fun e => e.2.allocated 0 e.2.count)).sum

/-- Every allocated buffer of the partition becomes FREE, its generation kept, and is counted. -/
def reclaim (part : Nat) (s : State) : State :=
  bumpBy cntBufReclaimed part (buffersOf s part)
    { s with pools := tmap (fun _ (p : Pool) =>
        if p.owner = some part then { p with bufs := tmap (fun _ (b : Buf) => { gen := b.gen }) p.bufs } else p) s.pools }

/-- Step 4 of Table 11.7. -/
def resetPart (part : Nat) (s : State) : State := reclaim part (unloadAll part (releaseSlots part (resetStreams part s)))

/-- Post one status to several tickets. -/
def postAll (ts : List Nat) (st : Nat) (s : State) : State := ts.foldl (fun u t => post t st [] u) s

/-- PART_RESET_COMPLETE: steps 4 and 5; a destroy that waited begins (R407, R414). -/
def partResetCompleteEffect (part : Nat) (s : State) : State :=
  let q := tget s.parts part
  if q.state ≠ .resetting ∨ partAwaited s part = true then s
  else
    let s1 := resetPart part s
    let s2 := postAll q.resetTks stOk { s1 with parts := tmod s1.parts part (fun y => { y with state := .active, resetTks := [], laterTks := [] }) }
    if q.laterTks = [] then s2 else beginDestroy part q.laterTks s2

/-- PART_RESET_COMPLETE. -/
def execPartResetComplete (part : Nat) (s : State) : Host.Outcome State Fault Refusal := .next (partResetCompleteEffect part s)

/-- A queue pair is gone: what it owed is discarded, its locks break, its buffers lose their owner, and fetches for it reach
nobody (R327, R397, R406). -/
def dropQp (c : Nat) (s : State) : State :=
  let s1 := orphanBuffers (· == c) (breakLocks (· == c) (disown (· == c) s))
  { s1 with
    qps := tdel s1.qps c
    hostReads := s1.hostReads.filter (fun r => match r.kind with | .sqEntry q _ => q != c | _ => true) }

/-- A window is one of the partition's, or shares one through a chain of so many shared windows. -/
def sharesFrom (s : State) (part : Nat) : Nat → Nat → Bool
  | 0, k => k / 16 == part
  | f + 1, k =>
    let w := tget s.windows k
    k / 16 == part || (w.live && w.shared && sharesFrom s part f (winKey w.srcPart w.srcWin))

/-- Windows that share a partition's windows go, directly or through one another, and then its own (R409, R218); a map of one of them that
has not completed ends. -/
def dropWindows (part : Nat) (s : State) : State :=
  let hit := fun (k : Nat) => sharesFrom s part (s.windows.length + 1) k
  let t := endMaps (fun k _ => hit k) stParamRange s
  forgetPages { t with windows := tfilter (fun k _ => !hit k) t.windows }

/-- What Table 11.8 lets go at a destroy, after step 4. -/
def giveUp (part : Nat) (s : State) : State :=
  let s1 := ((s.qps.filter (fun e => e.2.live && boundTo s part e.1)).map Prod.fst).foldl (fun u c => dropQp c u) s
  let s2 := dropWindows part s1
  clearCounts part { s2 with
    tiles := tmap (fun _ (x : Tile) => if x.owner = some part then { x with owner := none } else x) s2.tiles
    chans := tfilter (fun _ c => !(c.owner == part)) s2.chans
    groups := tfilter (fun _ g => !(g.owner == part)) s2.groups
    pools := tfilter (fun _ p => p.owner != some part) s2.pools
    segs := tmap (fun _ (g : Seg) => if g.part = part then { g with en := false } else g) s2.segs
    parts := tdel s2.parts part }

/-- PART_DESTROY_COMPLETE: step 4, the resources of Table 11.8, and the final statuses (R409, R414). -/
def partDestroyCompleteEffect (part : Nat) (s : State) : State :=
  let q := tget s.parts part
  if q.state ≠ .destroying ∨ partAwaited s part = true then s
  else postAll q.lateResets stPartitionReset (postAll q.destroyTks stOk (giveUp part (resetPart part s)))

/-- PART_DESTROY_COMPLETE. -/
def execPartDestroyComplete (part : Nat) (s : State) : Host.Outcome State Fault Refusal := .next (partDestroyCompleteEffect part s)

/-! ### PART_BIND_PORT -/

/-- A queue pair of a port is bound to a partition. -/
def portUses (s : State) (p part : Nat) : Bool := s.qps.any (fun e => e.2.live && portOf e.1 == p && boundTo s part e.1)

/-- PART_BIND_PORT's check (Table 10.5). -/
def partBindPortCheck (s : State) (x : Cmd) : Verdict :=
  let p := x.fld 4 1 0
  firstOf [
    (p == 0 || p == 2 || !portExists s p, stParamRange),
    (!bit (x.par 4) 8 && portUses s p x.part, stStateBusy)]

/-- PART_BIND_PORT's effect. -/
def partBindPortApply (x : Cmd) (s : State) : State :=
  let b := bit (x.par 4) 8
  { s with parts := tmod s.parts x.part (fun q => if x.fld 4 1 0 = 1 then { q with bind1 := b } else { q with bind3 := b }) }

/-- PART_BIND_PORT (R393). -/
def partBindPortEffect (c : Nat) (p : Packet) (s : State) : State := serve 0x0103 c p partBindPortCheck (actDo partBindPortApply) s

/-- PART_BIND_PORT. -/
def execPartBindPort (c : Nat) (p : Packet) (s : State) : Host.Outcome State Fault Refusal := .next (partBindPortEffect c p s)

/-! ### PART_TILES -/

/-- The tiles to add. -/
def Cmd.adds (x : Cmd) : BitVec 64 := BitVec.ofNat 64 (x.par64 4)
/-- The tiles to remove. -/
def Cmd.removes (x : Cmd) : BitVec 64 := BitVec.ofNat 64 (x.par64 6)

/-- A partition owns a tile. -/
def ownsTile (s : State) (part t : Nat) : Bool := (tget s.tiles t).owner == some part

/-- The partition owns a tile once the command has acted. -/
def ownsAfter (s : State) (x : Cmd) (t : Nat) : Bool := (ownsTile s x.part t && !x.removes.getLsbD t) || x.adds.getLsbD t

/-- PART_TILES's check, in the order of R394. -/
def partTilesCheck (s : State) (x : Cmd) : Verdict :=
  let ad := maskTiles x.adds
  let rm := maskTiles x.removes
  firstOf [
    (x.adds &&& x.removes != 0, stParamRange),
    (ad.any (fun t => (tget s.tiles t).owner.isSome && !ownsTile s x.part t), stTileNotOwned),
    (rm.any (fun t => !ownsTile s x.part t), stTileNotOwned),
    (rm.any (fun t => (tget s.tiles t).prog.isSome), stTileBusy),
    (decide ((tget s.parts x.part).mode = .dual) &&
      (List.range 32).any (fun k => ownsAfter s x (2 * k) != ownsAfter s x (2 * k + 1)), stParamRange)]

/-- Zero a tile's store with valid check bits: no mark and no error that waits in it remains. -/
def zeroStore (t : Nat) (s : State) : State :=
  let s1 := zeroRange (storeAddr t 0) storeSize s
  { s1 with integ := { s1.integ with latent := s1.integ.latent.filter (fun l => !decide (levelOf l.1 = .tile t)) } }

/-- A tile that a partition gains is zeroed, unless its quadrant is off (R395). -/
def addTile (part t : Nat) (s : State) : State :=
  let s1 := onTile t (fun x => { x with owner := some part }) (abortKernel t s)
  if (tget s.doms (quadOf t)).on then zeroStore t (onTile t Tile.clean s1) else s1

/-- PART_TILES's effect: the removals, then the additions (R394). -/
def partTilesApply (x : Cmd) (s : State) : State :=
  let s1 := (maskTiles x.removes).foldl (fun u t => onTile t (fun y => { y with owner := none }) (abortKernel t u)) s
  ((maskTiles x.adds).filter (fun t => !ownsTile s x.part t)).foldl (fun u t => addTile x.part t u) s1

/-- PART_TILES (R394, R395). -/
def partTilesEffect (c : Nat) (p : Packet) (s : State) : State := serve 0x0104 c p partTilesCheck (actDo partTilesApply) s

/-- PART_TILES. -/
def execPartTiles (c : Nat) (p : Packet) (s : State) : Host.Outcome State Fault Refusal := .next (partTilesEffect c p s)

/-! ### PART_READ -/

/-- Check mode codes (Table 10.13). -/
def modeCode : CheckMode → Nat
  | .off => 0
  | .sampled => 1
  | .dual => 2

/-- The dwords of a bit set below `n` bits. -/
def setDws (n : Nat) (f : Nat → Bool) : List Dword :=
  (List.range (n / 32)).map (fun i => dw (((List.range 32).map (fun j => if f (32 * i + j) then 2 ^ j else 0)).sum))

/-- PART_READ checks nothing of its own. -/
def partReadCheck (_ : State) (_ : Cmd) : Verdict := {}

/-- What PART_READ returns (Table 10.5). -/
def partReadOut (s : State) (x : Cmd) : List Byte :=
  let q := tget s.parts x.part
  let wins := (windowsOf s x.part).foldl (fun n e => if e.2.valid then n + 2 ^ (e.1 % 16) else n) 0
  let pools := s.pools.foldl (fun n e => if e.2.owner = some x.part then n + 2 ^ e.1 else n) 0
  dwBytes (
    [dw (b2n (decide (q.state ≠ .absent)) + 2 ^ 2 * b2n q.bind1 + 2 ^ 4 * b2n q.bind3 + 2 ^ 5 * modeCode q.mode + 2 ^ 7 * q.log2n),
      dw q.sbase, dw q.scount] ++
    setDws 64 (fun t => ownsTile s x.part t) ++
    setDws 256 (fun c => (tget s.chans c).valid && (tget s.chans c).owner == x.part) ++
    [dw (wins + 2 ^ 16 * pools), 0, 0])

/-- PART_READ (R361). -/
def partReadEffect (c : Nat) (p : Packet) (s : State) : State :=
  serve 0x0105 c p partReadCheck (actOut 4 partReadOut (fun _ _ => [])) s

/-- PART_READ. -/
def execPartRead (c : Nat) (p : Packet) (s : State) : Host.Outcome State Fault Refusal := .next (partReadEffect c p s)

/-! ### QP_CREATE and QP_DELETE -/

/-- The queue pair of the issuing port that a QP_ command names. -/
def Cmd.qp (x : Cmd) : Nat := 64 * x.port + x.fld 4 5 0

/-- QP_CREATE's check (Table 10.5). -/
def qpCreateCheck (s : State) (x : Cmd) : Verdict :=
  firstOf [
    (decide (2 ≤ x.port) || x.fld 4 5 0 == 0 || x.par64 5 % 4096 != 0 || x.par64 7 % 4096 != 0 || decide (x.fld 9 3 0 < 4) ||
      decide (12 < x.fld 9 3 0) || decide (x.fld 9 11 8 < 4) || decide (12 < x.fld 9 11 8), stParamRange),
    ((tget s.qps x.qp).live, stQpState),
    (!bit (x.par 4) 8 && !isAdmin s x.port, stPrivAdmin)]

/-- A view that begins: the condition bits that hold, as the port view has them (R320, R337). -/
def newView (s : State) (p : Nat) : View :=
  { bits := tfilter (fun b v => condHolds s b && v.isSet) (tget s.ports p).view.bits }

/-- QP_CREATE's effect: the queue pair starts afresh (R328). -/
def qpCreateApply (x : Cmd) (s : State) : State :=
  let q : Qp :=
    { bound := if bit (x.par 4) 8 then some x.part else none, sqbase := x.par64 5, cqbase := x.par64 7, sqlog := x.fld 9 3 0
      cqlog := x.fld 9 11 8, view := newView s x.port, epoch := (tget s.qps x.qp).epoch }
  { s with qps := tset s.qps x.qp (startQp q) }

/-- QP_CREATE (R328). -/
def qpCreateEffect (c : Nat) (p : Packet) (s : State) : State := serve 0x0108 c p qpCreateCheck (actDo qpCreateApply) s

/-- QP_CREATE. -/
def execQpCreate (c : Nat) (p : Packet) (s : State) : Host.Outcome State Fault Refusal := .next (qpCreateEffect c p s)

/-- A bound carrier names a queue pair of another partition. -/
def qpForeign (s : State) (x : Cmd) : Bool :=
  match boundPart s x.carrier with
  | some b => boundPart s x.qp != some b
  | none => false

/-- QP_DELETE's check (Table 10.5). -/
def qpDeleteCheck (s : State) (x : Cmd) : Verdict :=
  firstOf [
    (x.fld 4 5 0 == 0 || x.qp == x.carrier, stParamRange),
    (!(isQp x.qp && (tget s.qps x.qp).live), stQpState),
    (qpForeign s x, stPrivPartition),
    (inProgressOf s x.qp != 0, stQpState)]

/-- QP_DELETE (R328). -/
def qpDeleteEffect (c : Nat) (p : Packet) (s : State) : State :=
  serve 0x0109 c p qpDeleteCheck (actDo fun x t => dropQp x.qp t) s

/-- QP_DELETE. -/
def execQpDelete (c : Nat) (p : Packet) (s : State) : Host.Outcome State Fault Refusal := .next (qpDeleteEffect c p s)

/-! ### PRIV_GRANT -/

/-- PRIV_GRANT's check (R313). -/
def privGrantCheck (s : State) (x : Cmd) : Verdict :=
  let p := x.fld 4 1 0
  firstOf [
    (p == 2 || p == x.port || !portExists s p, stParamRange),
    (p == 3 && bit (x.par 4) 8 && !s.fw.unlocked, stDebugLocked)]

/-- PRIV_GRANT's effect. -/
def privGrantApply (x : Cmd) (s : State) : State :=
  { s with ports := tmod s.ports (x.fld 4 1 0) (fun o => { o with admin := bit (x.par 4) 8 }) }

/-- PRIV_GRANT (R313). -/
def privGrantEffect (c : Nat) (p : Packet) (s : State) : State := serve 0x010A c p privGrantCheck (actDo privGrantApply) s

/-- PRIV_GRANT. -/
def execPrivGrant (c : Nat) (p : Packet) (s : State) : Host.Outcome State Fault Refusal := .next (privGrantEffect c p s)

end Sys2Proof.Machine
end

