-- ==== Sys2Proof/Machine/CmdIntegrity.lean ====
section
/-! DEFINITION. Check modes, the ledger, signatures, kernels on command, drains and injected faults: the commands of group 0x09xx (R371,
R428, R429, R435, R441, R447, R448, R450, R451). -/

namespace Sys2Proof.Machine

/-- Change the integrity state. -/
def onInteg (f : Integ → Integ) (s : State) : State := { s with integ := f s.integ }

/-! ### CHECK_MODE_SET -/

/-- A partition owns a tile without its partner (Table 10.13). -/
def lonelyTile (s : State) (part : Nat) : Bool :=
  (List.range 32).any (fun k => ownsTile s part (2 * k) != ownsTile s part (2 * k + 1))

/-- CHECK_MODE_SET's check. -/
def checkModeSetCheck (s : State) (x : Cmd) : Verdict :=
  let m := x.fld 4 1 0
  let n := x.fld 4 6 4
  firstOf [(m == 3, stParamReserved), ((m == 1 && (n == 0)) || (m != 1 && n != 0) , stParamRange), (m == 2 && lonelyTile s x.part, stParamRange)]

/-- The check mode that a code names. -/
def checkModeOf (m : Nat) : CheckMode := match m with | 0 => .off | 1 => .sampled | _ => .dual

/-- CHECK_MODE_SET's effect: it acts at the partition's next PROGRAM_RUN (R435). -/
def checkModeSetApply (x : Cmd) (s : State) : State :=
  { s with parts := tmod s.parts x.part (fun p => { p with mode := checkModeOf (x.fld 4 1 0), log2n := x.fld 4 6 4 }) }

/-- CHECK_MODE_SET (R435). -/
def checkModeSetEffect (c : Nat) (p : Packet) (s : State) : State := serve 0x0900 c p checkModeSetCheck (actDo checkModeSetApply) s

/-- CHECK_MODE_SET. -/
def execCheckModeSet (c : Nat) (p : Packet) (s : State) : Host.Outcome State Fault Refusal := .next (checkModeSetEffect c p s)

/-! ### LEDGER_READ -/

/-- LEDGER_READ's check. -/
def ledgerReadCheck (_ : State) (x : Cmd) : Verdict := if 4096 < x.fld 4 11 0 + (x.fld 5 6 0 + 1) then no stParamRange else {}

/-- The records that LEDGER_READ writes, 32 bytes each. -/
def ledgerReadOut (s : State) (x : Cmd) : List Byte :=
  (List.range (x.fld 5 6 0 + 1)).flatMap (fun i => (tget s.ledger.recs (x.fld 4 11 0 + i)).bytes s)

/-- LEDGER_READ's reply: records used and the newest. -/
def ledgerReadRep (s : State) (_ : Cmd) : List Dword := [dw (ledgerUsed s), dw (s.ledger.order.getLast?.getD 0)]

/-- LEDGER_READ (R371). -/
def ledgerReadEffect (c : Nat) (p : Packet) (s : State) : State := serve 0x0901 c p ledgerReadCheck (actOut 6 ledgerReadOut ledgerReadRep) s

/-- LEDGER_READ. -/
def execLedgerRead (c : Nat) (p : Packet) (s : State) : Host.Outcome State Fault Refusal := .next (ledgerReadEffect c p s)

/-! ### SIGNATURE_READ -/

/-- A CBOR head of a major type with its argument in shortest form (RFC 8949, R428). -/
def cborHead (major n : Nat) : List Byte :=
  let h := 32 * major
  if n < 24 then [BitVec.ofNat 8 (h + n)]
  else if n < 256 then BitVec.ofNat 8 (h + 24) :: (leBytes 1 n)
  else if n < 65536 then BitVec.ofNat 8 (h + 25) :: (leBytes 2 n).reverse
  else if n < 2 ^ 32 then BitVec.ofNat 8 (h + 26) :: (leBytes 4 n).reverse
  else BitVec.ofNat 8 (h + 27) :: (leBytes 8 n).reverse

/-- An unsigned integer. -/
def cborNat (n : Nat) : List Byte := cborHead 0 n

/-- A key and an unsigned value. -/
def cborPair (k v : Nat) : List Byte := cborNat k ++ cborNat v

/-- A key and an array of two unsigned integers. -/
def cborTwo (k a b : Nat) : List Byte := cborNat k ++ cborHead 4 2 ++ cborNat a ++ cborNat b

/-- The valid records of a verdict that name a unit. -/
def historyOf (s : State) (unit ver : Nat) : Nat :=
  (s.ledger.recs.filter (fun e => e.2.crcOk && e.2.unit == unit && e.2.verdict == ver)).length

/-- The signature record of a ledger slot (Table 12.6), from the serial number and the ROM version of the part. -/
def signatureOf (serial rom patch slot : Nat) (r : LRec) (transient permanent : Nat) (replace : Bool) : List Byte :=
  cborHead 5 (if r.part.isSome then 19 else 18) ++ cborPair 0 1 ++ cborPair 1 0x1F6C ++ cborPair 2 0x0520 ++ cborPair 3 0xB0 ++
  cborPair 4 serial ++ cborPair 5 rom ++ cborPair 6 patch ++ cborPair 7 slot ++ cborPair 8 r.kind ++ cborPair 9 r.verdict ++
  cborPair 10 r.unit ++ cborPair 11 r.status ++ cborPair 12 r.powerup ++ cborPair 13 r.time ++ cborPair 14 r.count ++
  (match r.part with | some p => cborPair 15 p | none => []) ++ cborTwo 16 r.d0 r.d1 ++ cborTwo 17 transient permanent ++
  cborNat 18 ++ [if replace then 0xF5 else 0xF4]

/-- The signature record as the part gives it now (R450). -/
def signatureOut (s : State) (x : Cmd) : List Byte :=
  let k := x.fld 4 11 0
  let r := tget s.ledger.recs k
  signatureOf Config.fuseSerial.toNat Config.romVersion.toNat (patchVersion s) k r (historyOf s r.unit verTransient)
    (historyOf s r.unit verPermanent) (replacePinned s)

/-- SIGNATURE_READ's check: neither an empty nor an invalid record (R450). -/
def signatureReadCheck (s : State) (x : Cmd) : Verdict :=
  let r := tget s.ledger.recs (x.fld 4 11 0)
  if r.kind = 0 ∨ r.crcOk = false then no stParamRange else {}

/-- SIGNATURE_READ's act: 4,096 bytes must be available at OUT. -/
def signatureReadAct (x : Cmd) (s : State) : State :=
  if xferStatus x 5 4096 ≠ 0 then finish x { status := xferStatus x 5 4096 } s
  else actOut 5 signatureOut (fun t y => [dw (signatureOut t y).length]) x s

/-- SIGNATURE_READ (R450). -/
def signatureReadEffect (c : Nat) (p : Packet) (s : State) : State := serve 0x0902 c p signatureReadCheck signatureReadAct s

/-- SIGNATURE_READ. -/
def execSignatureRead (c : Nat) (p : Packet) (s : State) : Host.Outcome State Fault Refusal := .next (signatureReadEffect c p s)

/-! ### KAK_RUN -/

/-- A KAK_RUN runs on some tile. -/
def kakRuns (s : State) : Bool :=
  s.tiles.any (fun e => match e.2.kernel with | some k => (match k.why with | .command _ => true | _ => false) | none => false)

/-- A kernel may not start on a tile now: another KAK_RUN, or a confirmation that runs there. -/
def kernelBusy (s : State) (t : Nat) : Bool :=
  kakRuns s || (match (tget s.tiles t).kernel with | some k => decide (k.why ≠ .background) | none => false)

/-- A program holds the tile, or a PROGRAM_LOAD accepted earlier names it (R380). -/
def tileTaken (s : State) (t : Nat) : Bool :=
  (tget s.tiles t).prog.isSome || isShadow s t || s.loads.any (fun o => (loadTiles s o).contains t)

/-- KAK_RUN's check (Table 10.13, R254, R380). -/
def kakRunCheck (s : State) (x : Cmd) : Verdict :=
  let t := x.fld 4 13 8
  (firstOf [(tileTaken s t, stTileBusy), (kernelBusy s t, stStateBusy)]).andThen
    (match tileFence s t with | some h => { status := stDomainFenced, result := [dw h] } | none => {})

/-- Start a kernel on a tile, in place of background work. -/
def startKernel (t : Nat) (k : KernelRun) (s : State) : State := onTile t (fun x => { x with kernel := some k }) s

/-- KAK_RUN's work begins. -/
def kakRunStart (x : Cmd) (tk : Nat) (s : State) : State :=
  startKernel (x.fld 4 13 8) { k := x.fld 4 4 0, why := .command tk } (abortKernel (x.fld 4 13 8) s)

/-- KAK_RUN (R441). -/
def kakRunEffect (c : Nat) (p : Packet) (s : State) : State := serve 0x0903 c p kakRunCheck (fun x t => pend x (kakRunStart x) t) s

/-- KAK_RUN. -/
def execKakRun (c : Nat) (p : Packet) (s : State) : Host.Outcome State Fault Refusal := .next (kakRunEffect c p s)

/-! ### Drains (R447, R448) -/

/-- A re-fetch or a replay is in progress in a run: under a suspect drain it runs to its outcome (R42). -/
def repeating (s : State) (k : Nat) : Bool :=
  s.integ.drainSuspect && (runTiles (tget s.progs k)).any (fun t => (tget s.tiles t).stalled || (tget s.tiles t).replays != 0)

/-- The same of a codec job: its block is being read again, or its program's run is being repeated. -/
def jobRepeating (s : State) (j : Job) : Bool :=
  s.integ.drainSuspect && (j.reread || (match j.prog with | some p => repeating s p.1 | none => false))

/-- Runs and codec jobs end with ST_DRAINING, those that are being repeated apart. -/
def endWork (s : State) : State :=
  let s1 := ((s.progs.filter (fun e => e.2.running && !repeating s e.1)).map Prod.fst).foldl (fun u k => endRun k { status := stDraining } u) s
  (s1.jobs.filter (fun j => !jobRepeating s1 j)).foldl (fun u j => closeJob false j stDraining u) s1

/-- Step 3: every job running or queued ends with ST_DRAINING (R42). -/
def drainOver (s : State) : State :=
  (List.range 64).foldl (fun u p => abandonLmc p stDraining (endPushes p stDraining u)) (endWork (onInteg (fun i => { i with drainOver := true }) s))

/-- A deadline of 0 reaches step 3 at once. -/
def drainNow (s : State) : State :=
  if s.integ.dstate = .draining ∧ s.integ.drainOver = false ∧ s.integ.deadline = 0 then drainOver s else s

/-- DRAIN_DEADLINE's effect: the deadline, in force at once for a drain in progress. -/
def drainDeadlineApply (x : Cmd) (s : State) : State := drainNow (onInteg (fun i => { i with deadline := (x.par 4).toNat }) s)

/-- DRAIN_DEADLINE (R448). -/
def drainDeadlineEffect (c : Nat) (p : Packet) (s : State) : State := serve 0x0904 c p (fun _ _ => {}) (actDo drainDeadlineApply) s

/-- DRAIN_DEADLINE. -/
def execDrainDeadline (c : Nat) (p : Packet) (s : State) : Host.Outcome State Fault Refusal := .next (drainDeadlineEffect c p s)

/-- DRAIN_START's check. -/
def drainStartCheck (s : State) (_ : Cmd) : Verdict := if s.integ.dstate = .running then {} else no stStateBusy

/-- DRAIN_START's work: step 1 of an operator drain. -/
def drainStartStart (x : Cmd) (tk : Nat) (s : State) : State :=
  drainNow (onInteg (fun i => { i with drainTk := some tk }) (beginDrain false 0 none (x.fld 4 7 0) s))

/-- DRAIN_START (R447). -/
def drainStartEffect (c : Nat) (p : Packet) (s : State) : State := serve 0x0905 c p drainStartCheck (fun x t => pend x (drainStartStart x) t) s

/-- DRAIN_START. -/
def execDrainStart (c : Nat) (p : Packet) (s : State) : Host.Outcome State Fault Refusal := .next (drainStartEffect c p s)

/-- DRAIN_CANCEL's check: only an operator drain. -/
def drainCancelCheck (s : State) (_ : Cmd) : Verdict :=
  if s.integ.dstate = .draining ∧ s.integ.drainSuspect = false then {} else no stStateBusy

/-- DRAIN_CANCEL's effect: RUNNING again, and ST_ABORTED for a DRAIN_START that still waits. -/
def drainCancelApply (_ : Cmd) (s : State) : State :=
  let t := onInteg (fun i => { i with dstate := .running, drainTk := none, drainOver := false }) s
  match s.integ.drainTk with
  | some k => post k stAborted [] t
  | none => t

/-- DRAIN_CANCEL (R448). -/
def drainCancelEffect (c : Nat) (p : Packet) (s : State) : State := serve 0x0906 c p drainCancelCheck (actDo drainCancelApply) s

/-- DRAIN_CANCEL. -/
def execDrainCancel (c : Nat) (p : Packet) (s : State) : Host.Outcome State Fault Refusal := .next (drainCancelEffect c p s)

/-! ### ERR_INJECT -/

/-- The unit classes with their members that a fault kind applies to (Table 12.7). -/
def injectUnits (kind : Nat) : List (Nat × Nat) :=
  match kind with
  | 0 | 1 => [(0x04, 64), (0x06, 32), (0x01, 64), (0x09, 1)]
  | 2 | 3 => [(0x07, 8)]
  | 4 | 5 => [(0x0A, 100)]
  | 6 => [(0x02, 64), (0x08, 8)]
  | 7 => [(0x05, 64)]
  | 8 | 9 => [(0x01, 64)]
  | 10 => [(0x0B, 16)]
  | _ => []

/-- A fault kind applies to a unit; DUAL only to a tile 2k. -/
def injectable (unit kind : Nat) : Bool :=
  (injectUnits kind).any (fun c => c.1 == unit / 256 && decide (unit % 256 < c.2)) && (kind != 8 || unit % 2 == 0)

/-- ERR_INJECT's check (R429, R451). -/
def errInjectCheck (s : State) (x : Cmd) : Verdict :=
  let kind := x.fld 4 19 16
  firstOf [(decide (11 ≤ kind), stParamReserved), (!s.fw.unlocked, stDebugLocked),
    (!injectable (x.fld 4 15 0) kind || x.fld 5 7 0 == 0, stParamRange)]

/-- ERR_INJECT's effect: the incidents wait for their occasions. -/
def errInjectApply (x : Cmd) (s : State) : State :=
  onInteg (fun i => { i with inject := i.inject ++ [(x.fld 4 15 0, x.fld 4 19 16, x.fld 5 7 0)] }) s

/-- ERR_INJECT (R451). -/
def errInjectEffect (c : Nat) (p : Packet) (s : State) : State := serve 0x0907 c p errInjectCheck (actDo errInjectApply) s

/-- ERR_INJECT. -/
def execErrInject (c : Nat) (p : Packet) (s : State) : Host.Outcome State Fault Refusal := .next (errInjectEffect c p s)

/-! ### SELFTEST_CONFIG -/

/-- SELFTEST_CONFIG's effect (R440); a kernel that runs is not disturbed (R460). -/
def selftestConfigApply (x : Cmd) (s : State) : State :=
  onInteg (fun i => { i with selfEn := bit (x.par 4) 0, selfMask := (x.par 5).toNat }) s

/-- SELFTEST_CONFIG (R440). -/
def selftestConfigEffect (c : Nat) (p : Packet) (s : State) : State := serve 0x0908 c p (fun _ _ => {}) (actDo selftestConfigApply) s

/-- SELFTEST_CONFIG. -/
def execSelftestConfig (c : Nat) (p : Packet) (s : State) : Host.Outcome State Fault Refusal := .next (selftestConfigEffect c p s)

end Sys2Proof.Machine
end

