-- ==== Sys2Proof/Machine/CmdLocks.lean ====
section
/-! DEFINITION. Locks and locked sequences, but for SEQ_COMMIT: the commands of group 0x02xx (R362, R396 to R401). -/

namespace Sys2Proof.Machine

/-- The lock that a command names. -/
def Cmd.lockNo (x : Cmd) : Nat := x.fld 4 7 0

/-- The caller holds the lock (R387, R388). -/
def holds (s : State) (x : Cmd) : Bool := decide (tget s.locks x.lockNo = .held x.carrier)

/-- The caller's sequence on the lock is open (R399). -/
def seqOpenOn (s : State) (x : Cmd) : Bool := decide ((tget s.seqs x.carrier).lock = some x.lockNo)

/-- Close the caller's sequence; what it staged goes with it. -/
def closeSeq (c : Nat) (s : State) : State := { s with seqs := tset s.seqs c {} }

/-! ### LOCK_ACQUIRE -/

/-- LOCK_ACQUIRE's check: the lock is not held by another owner (R396). -/
def lockAcquireCheck (s : State) (x : Cmd) : Verdict :=
  match tget s.locks x.lockNo with
  | .held o => firstOf [(o != x.carrier, stLockHeld)]
  | _ => {}

/-- LOCK_ACQUIRE's effect: the caller becomes the holder; a broken lock says so (R396). -/
def lockAcquireApply (x : Cmd) (s : State) : Reply × State :=
  match tget s.locks x.lockNo with
  | .held _ => ({}, s)
  | .free => ({}, { s with locks := tset s.locks x.lockNo (.held x.carrier) })
  | .broken => ({ status := stOkWasBroken }, { s with locks := tset s.locks x.lockNo (.held x.carrier) })

/-- LOCK_ACQUIRE (R396). -/
def lockAcquireEffect (c : Nat) (p : Packet) (s : State) : State := serve 0x0200 c p lockAcquireCheck (actFw lockAcquireApply) s

/-- LOCK_ACQUIRE. -/
def execLockAcquire (c : Nat) (p : Packet) (s : State) : Host.Outcome State Fault Refusal := .next (lockAcquireEffect c p s)

/-! ### LOCK_RELEASE -/

/-- LOCK_RELEASE's check (Table 10.6, R401). -/
def lockReleaseCheck (s : State) (x : Cmd) : Verdict :=
  firstOf [(!holds s x, stLockNotHeld), (seqOpenOn s x, stStateBusy)]

/-- LOCK_RELEASE's effect. -/
def lockReleaseApply (x : Cmd) (s : State) : State := { s with locks := tset s.locks x.lockNo .free }

/-- LOCK_RELEASE (R396). -/
def lockReleaseEffect (c : Nat) (p : Packet) (s : State) : State := serve 0x0201 c p lockReleaseCheck (actDo lockReleaseApply) s

/-- LOCK_RELEASE. -/
def execLockRelease (c : Nat) (p : Packet) (s : State) : Host.Outcome State Fault Refusal := .next (lockReleaseEffect c p s)

/-! ### SEQ_BEGIN -/

/-- SEQ_BEGIN's check (Table 10.6). -/
def seqBeginCheck (s : State) (x : Cmd) : Verdict :=
  firstOf [(!holds s x, stLockNotHeld), ((tget s.seqs x.carrier).lock.isSome, stStateBusy)]

/-- SEQ_BEGIN's effect. -/
def seqBeginApply (x : Cmd) (s : State) : State := { s with seqs := tset s.seqs x.carrier { lock := some x.lockNo } }

/-- SEQ_BEGIN (R399). -/
def seqBeginEffect (c : Nat) (p : Packet) (s : State) : State := serve 0x0202 c p seqBeginCheck (actDo seqBeginApply) s

/-- SEQ_BEGIN. -/
def execSeqBegin (c : Nat) (p : Packet) (s : State) : Host.Outcome State Fault Refusal := .next (seqBeginEffect c p s)

/-! ### SEQ_ABORT -/

/-- SEQ_ABORT's check (Table 10.6). -/
def seqAbortCheck (s : State) (x : Cmd) : Verdict := firstOf [(!seqOpenOn s x, stSequenceNotOpen)]

/-- SEQ_ABORT (R401). -/
def seqAbortEffect (c : Nat) (p : Packet) (s : State) : State :=
  serve 0x0204 c p seqAbortCheck (actDo (fun x t => closeSeq x.carrier t)) s

/-- SEQ_ABORT. -/
def execSeqAbort (c : Nat) (p : Packet) (s : State) : Host.Outcome State Fault Refusal := .next (seqAbortEffect c p s)

/-! ### LOCK_READ -/

/-- LOCK_READ checks nothing of its own. -/
def lockReadCheck (_ : State) (_ : Cmd) : Verdict := {}

/-- LOCK_READ's result (Table 10.6, R387). -/
def lockReadResult (s : State) (x : Cmd) : List Dword :=
  match tget s.locks x.lockNo with
  | .free => [0]
  | .broken => [2]
  | .held o =>
    let q := tget s.seqs o
    let isOpen := decide (q.lock = some x.lockNo)
    [dw (1 + 4 * b2n isOpen + 2 ^ 3 * portOf o + 2 ^ 5 * (o % 64) + 2 ^ 11 * (if isOpen then q.staged.length else 0))]

/-- LOCK_READ (R362). -/
def lockReadEffect (c : Nat) (p : Packet) (s : State) : State := serve 0x0205 c p lockReadCheck (actRead lockReadResult) s

/-- LOCK_READ. -/
def execLockRead (c : Nat) (p : Packet) (s : State) : Host.Outcome State Fault Refusal := .next (lockReadEffect c p s)

end Sys2Proof.Machine
end

