-- ==== Sys2Proof/Machine/CmdOwl.lean ====
section
/-! DEFINITION. Owl's probes and trace: the commands of group 0x0Axx, and the timed events of the trace writer (R372, R511, R515, R516,
R519, R520, R522 to R524, R527, R528). -/

namespace Sys2Proof.Machine

/-- The probe that a command names. -/
def Cmd.probe (x : Cmd) : Nat := x.fld 4 3 0

/-! ### PROBE_SET and PROBE_READ -/

/-- A router has a port (R512). -/
def portPresent (r p : Nat) : Bool :=
  decide (r ≤ 99) &&
  (match p with
   | 0 => r % 10 != 0
   | 1 => r % 10 != 9
   | 2 => r / 10 != 0
   | 3 => r / 10 != 9
   | _ => localPort r (p - 4))

/-- PROBE_SET's check (R512). -/
def probeSetCheck (_ : State) (x : Cmd) : Verdict :=
  if portPresent (x.fld 4 14 8) (x.fld 4 18 16) then {} else no stParamRange

/-- The settings that a PROBE_SET gives, with COUNT 0. -/
def probeArgs (x : Cmd) : Probe :=
  { router := x.fld 4 14 8, rport := x.fld 4 18 16, mode := x.fld 4 21 20
    pmatch := BitVec.ofNat 64 (x.par64 5), mask := BitVec.ofNat 64 (x.par64 7) }

/-- PROBE_SET's effect: at once, or when the fence of the router is lowered (R511, R528). -/
def probeSetApply (x : Cmd) (s : State) : State :=
  let o := s.owl
  let p := probeArgs x
  if routerFenced s p.router then { s with owl := { o with waiting := tset o.waiting x.probe (some p) } }
  else { s with owl := { o with waiting := tset o.waiting x.probe none, probes := tset o.probes x.probe p } }

/-- PROBE_SET (R372). -/
def probeSetEffect (c : Nat) (p : Packet) (s : State) : State := serve 0x0A00 c p probeSetCheck (actDo probeSetApply) s

/-- PROBE_SET. -/
def execProbeSet (c : Nat) (p : Packet) (s : State) : Host.Outcome State Fault Refusal := .next (probeSetEffect c p s)

/-- What PROBE_READ reports (R520). -/
def probeReadRep (s : State) (x : Cmd) : List Dword :=
  let p := tget s.owl.probes x.probe
  [dw p.count, dw (p.count / 2 ^ 32), dw (b2n (routerFenced s p.router) + 2 * p.mode)]

/-- PROBE_READ (R520). -/
def probeReadEffect (c : Nat) (p : Packet) (s : State) : State := serve 0x0A01 c p (fun _ _ => {}) (actRead probeReadRep) s

/-- PROBE_READ. -/
def execProbeRead (c : Nat) (p : Packet) (s : State) : Host.Outcome State Fault Refusal := .next (probeReadEffect c p s)

/-! ### TRACE_CONFIG -/

/-- A buffer that a TRACE_CONFIG may name (Table 14.3, R499, R516). -/
def traceBufferOk (s : State) (b n : Nat) : Bool :=
  let r := pageRun b n
  b % 0x1000 == 0 && n % 0x10000 == 0 && decide (0x10000 ≤ n) && decide (n ≤ 0x40000000) && decide (b + n ≤ hbmSize) &&
  !pagesHeld s r.1 (r.1 + r.2) &&
  !(match s.cm.base with | some c => runsMeet (pageRun c 0x400000) r | none => false) &&
  !(loopRanges s).any (fun x => runsMeet (pageRun x.1 x.2) r)

/-- TRACE_CONFIG's check (R516). -/
def traceConfigCheck (s : State) (x : Cmd) : Verdict :=
  firstOf [(s.owl.running, stStateBusy), (!traceBufferOk s (x.par64 4) (x.par 6).toNat, stParamRange)]

/-- TRACE_CONFIG's effect. -/
def traceConfigApply (x : Cmd) (s : State) : State :=
  { s with owl := { s.owl with base := some (x.par64 4), size := (x.par 6).toNat, wrap := bit (x.par 7) 0 } }

/-- TRACE_CONFIG (R515). -/
def traceConfigEffect (c : Nat) (p : Packet) (s : State) : State := serve 0x0A02 c p traceConfigCheck (actDo traceConfigApply) s

/-- TRACE_CONFIG. -/
def execTraceConfig (c : Nat) (p : Packet) (s : State) : Host.Outcome State Fault Refusal := .next (traceConfigEffect c p s)

/-! ### TRACE_CONTROL and TRACE_STATUS -/

/-- TRACE_CONTROL's check: operation 3 is reserved; no start without a buffer (R515). -/
def traceControlCheck (s : State) (x : Cmd) : Verdict :=
  firstOf [(x.fld 4 1 0 == 3, stParamReserved), (x.fld 4 1 0 == 1 && s.owl.base.isNone, stStateBusy)]

/-- A trace starts, with a SYNC record first (R523), which a LOSS record that is still due follows.  One that runs starts afresh: its
records on the way are no longer awaited. -/
def traceStart (s : State) : State :=
  let o : Owl := { s.owl with
    off := 0, sent := 0, wrapped := false, full := false, lost := 0, running := true, stopping := false, buf := [], lapDue := false }
  owlPump 17 { orphanReqs Purpose.isOwl s with owl := o.put (syncRecord 0 0 0 s.timebase) }

/-- A trace stops: a SYNC record, then everything that is buffered goes out (R527). -/
def traceStop (s : State) : State :=
  if s.owl.running && !s.owl.stopping then
    let t := owlNote (syncRecord 3 0 0 s.timebase) s
    owlPump 17 { t with owl := { t.owl with stopping := t.owl.running } }
  else s

/-- A MARK record (Table 14.6). -/
def markRecord (x : Cmd) : List Dword :=
  [dw (0x4 + 2 ^ 8 * x.port + 2 ^ 10 * (x.carrier % 64)), dw x.time] ++ timeDws x.time ++ [dw x.pkt.tag, 0, 0, 0]

/-- TRACE_CONTROL's effect. -/
def traceControlApply (x : Cmd) (s : State) : State :=
  match x.fld 4 1 0 with
  | 0 => traceStop s
  | 1 => traceStart s
  | _ => owlRecord (markRecord x) s

/-- TRACE_CONTROL (R523, R527). -/
def traceControlEffect (c : Nat) (p : Packet) (s : State) : State := serve 0x0A03 c p traceControlCheck (actDo traceControlApply) s

/-- TRACE_CONTROL. -/
def execTraceControl (c : Nat) (p : Packet) (s : State) : Host.Outcome State Fault Refusal := .next (traceControlEffect c p s)

/-- What TRACE_STATUS reports. -/
def traceStatusRep (s : State) (_ : Cmd) : List Dword :=
  let o := s.owl
  [dw o.off, dw (b2n o.running + 2 * b2n o.wrapped + 4 * b2n o.full), dw (min o.lost 0xFFFFFFFF)]

/-- TRACE_STATUS (R524). -/
def traceStatusEffect (c : Nat) (p : Packet) (s : State) : State := serve 0x0A04 c p (fun _ _ => {}) (actRead traceStatusRep) s

/-- TRACE_STATUS. -/
def execTraceStatus (c : Nat) (p : Packet) (s : State) : Host.Outcome State Fault Refusal := .next (traceStatusEffect c p s)

/-! ### Timed events of the trace -/

/-- An uncorrectable error in the record buffer loses the record in front, with WERR, and is an incident of unit OWL (R526,
Table 12.11); the unit has no counters of words. -/
def owlEcc (f : EccFinding) (s : State) : State :=
  match s.owl.buf, f with
  | r :: rest, .uncorrectable ok =>
    let s1 := bump cntOwlLost 0 { s with owl := { ({ s.owl with buf := rest } : Owl).lose 1 (stampTime s.timebase r) with lossWerr := true } }
    judge (mkRec s1 kindSram (if ok then verTransient else verPermanent) (unitId 0x0F 0) 0 0 none ((Config.freeValue s.freeCtr).toNat % 2 ^ 32)
      (b2n ok)) false (drawFree s1)
  | _, _ => s

/-- OWL_GROUP_TIMER: a group that is not full has waited 10 µs and is written (R524).  `found`: what the record buffer's code finds. -/
def owlGroupTimerEffect (found : EccFinding) (s : State) : State :=
  let t := owlPump 17 (owlEcc found s)
  let n := min t.owl.group t.owl.buf.length
  if owlCanSend n t then owlSend n t else t

/-- OWL_GROUP_TIMER. -/
def execOwlGroupTimer (found : EccFinding) (s : State) : Host.Outcome State Fault Refusal := .next (owlGroupTimerEffect found s)

/-- TIMEBASE_BIT31, as bit 31 of the timebase has changed: a PERIODIC SYNC record (R522). -/
def timebaseBit31Effect (s : State) : State := if s.timebase % 2 ^ 31 = 0 then owlNote (syncRecord 2 0 0 s.timebase) s else s

/-- TIMEBASE_BIT31. -/
def execTimebaseBit31 (s : State) : Host.Outcome State Fault Refusal := .next (timebaseBit31Effect s)

/-- TRACE_STOP_COMPLETE: after a stop, the last acknowledgement has returned and RUNNING clears (R527). -/
def traceStopCompleteEffect (s : State) : State :=
  if s.owl.running && s.owl.stopping && s.owl.buf.isEmpty && (owlOut s).isEmpty then
    { s with owl := { s.owl with running := false, stopping := false } }
  else s

/-- TRACE_STOP_COMPLETE. -/
def execTraceStopComplete (s : State) : Host.Outcome State Fault Refusal := .next (traceStopCompleteEffect s)

end Sys2Proof.Machine
end

