-- ==== Sys2Proof/Machine/CmdCommit.lean ====
section
/-! DEFINITION. SEQ_COMMIT: the re-check of what a sequence has staged, and its effect as one (R400, R502, R519). -/

namespace Sys2Proof.Machine

/-- Check 10 of a stageable command (Table 10.3). -/
def stagedCheck (op : Nat) : State → Cmd → Verdict :=
  match op with
  | 0x0103 => partBindPortCheck
  | 0x0104 => partTilesCheck
  | 0x0300 => poolCreateCheck
  | 0x0403 => hostSpillSetCheck
  | 0x0404 => peerSpillSetCheck
  | 0x0503 => streamConfigCheck
  | 0x0700 => linkConfigCheck
  | 0x0705 => channelBindCheck
  | 0x0707 => mcGroupSetCheck
  | 0x0802 => loopWriteCoefCheck
  | 0x0803 => loopSetPointCheck
  | 0x0900 => checkModeSetCheck
  | 0x0A00 => probeSetCheck
  | 0x0A02 => traceConfigCheck
  | _ => fun _ _ => {}

/-- The effect of a stageable command. -/
def stagedApply (op : Nat) : Cmd → State → State :=
  match op with
  | 0x0103 => partBindPortApply
  | 0x0104 => partTilesApply
  | 0x0300 => poolCreateApply
  | 0x0403 => hostSpillSetApply
  | 0x0404 => peerSpillSetApply
  | 0x0503 => streamConfigApply
  | 0x0700 => linkConfigApply
  | 0x0705 => channelBindApply
  | 0x0707 => mcGroupSetApply
  | 0x0802 => loopWriteCoefApply
  | 0x0803 => loopSetPointApply
  | 0x0900 => checkModeSetApply
  | 0x0908 => selftestConfigApply
  | 0x0A00 => probeSetApply
  | 0x0A02 => traceConfigApply
  | _ => fun _ s => s

/-- Checks 6, 7 and 8 again, then check 10. -/
def recheck (s : State) (x : Cmd) : Verdict :=
  if permitStatus s x ≠ 0 then no (permitStatus s x) else check10 s x (stagedCheck x.pkt.opcode)

/-- Re-check and apply the changes from position `n` on: the state after all of them, or the position and verdict of the first
that fails. -/
def commitFrom : Nat → List Cmd → State → Except (Nat × Verdict) State
  | _, [], s => .ok s
  | n, x :: r, s =>
    let v := recheck s x
    if v.status ≠ 0 then .error (n, v) else commitFrom (n + 1) r (stagedApply x.pkt.opcode x s)

/-- SEQ_COMMIT's check. -/
def seqCommitCheck (s : State) (x : Cmd) : Verdict := firstOf [(!seqOpenOn s x, stSequenceNotOpen)]

/-- SEQ_COMMIT's effect: all of the sequence or nothing; the sequence closes and the lock stays held. -/
def seqCommitApply (x : Cmd) (s : State) : Reply × State :=
  match commitFrom 1 (tget s.seqs x.carrier).staged s with
  | .ok t => ({ result := [0] }, closeSeq x.carrier t)
  | .error (n, v) =>
    ({ status := v.status, result := [dw n] },
      v.counts.foldl (fun t k => bump k.1 k.2 t) (bump cntSeqCommitFail 0 (closeSeq x.carrier s)))

/-- SEQ_COMMIT (R400). -/
def seqCommitEffect (c : Nat) (p : Packet) (s : State) : State := serve 0x0203 c p seqCommitCheck (actFw seqCommitApply) s

/-- SEQ_COMMIT. -/
def execSeqCommit (c : Nat) (p : Packet) (s : State) : Host.Outcome State Fault Refusal := .next (seqCommitEffect c p s)

end Sys2Proof.Machine
end

