-- ==== Sys2Proof/Machine/CmdDomains.lean ====
section
/-! DEFINITION. Power domains: the commands of group 0x0Bxx, and the drain and the wake of a domain (R253, R301, R373, R395, R497, R508,
R528, R529, Table 07.12). -/

namespace Sys2Proof.Machine

/-- The domain code of a command (R354). -/
def Cmd.domain (x : Cmd) : Nat := x.fld 4 4 0

/-- The domain codes that R354 reserves. -/
def domainReserved (d : Nat) : Bool := decide (4 ≤ d) && decide (d < 0x10)

/-- Change one domain. -/
def onDom (d : Nat) (f : Domain → Domain) (s : State) : State := { s with doms := tmod s.doms d f }

/-- The tiles of a quadrant (R22). -/
def quadTiles (q : Nat) : List Nat := (List.range 64).filter (fun t => quadOf t == q)

/-- The probes on the fenced routers of a domain, as a mask (Table 14.6). -/
def domainProbes (s : State) (d : Nat) : Nat :=
  ((List.range 16).map (fun n => if routerDom (tget s.owl.probes n).router = some d then 2 ^ n else 0)).sum

/-! ### DOMAIN_OFF -/

/-- DOMAIN_OFF's check (Table 10.15). -/
def domainOffCheck (s : State) (x : Cmd) : Verdict :=
  let d := x.domain
  let m := tget s.doms d
  firstOf [(domainReserved d, stParamReserved), ((quadTiles d).any (fun t => (tget s.tiles t).prog.isSome), stTileBusy),
    (!m.on || m.fenced, stStateBusy)]

/-- The fence is raised with the HINT (step 1 of Table 07.12). -/
def domainOffStart (x : Cmd) (tk : Nat) (s : State) : State :=
  onDom x.domain (fun m => { m with fenced := true, hint := x.fld 5 15 0, since := s.timebase, offTk := some tk }) s

/-- DOMAIN_OFF (R253). -/
def domainOffEffect (c : Nat) (p : Packet) (s : State) : State :=
  serve 0x0B00 c p domainOffCheck (fun x t => pend x (domainOffStart x) t) s

/-- DOMAIN_OFF. -/
def execDomainOff (c : Nat) (p : Packet) (s : State) : Host.Outcome State Fault Refusal := .next (domainOffEffect c p s)

/-! ### DOMAIN_ON -/

/-- DOMAIN_ON's check. -/
def domainOnCheck (_ : State) (x : Cmd) : Verdict := if domainReserved x.domain then no stParamReserved else {}

/-- DOMAIN_ON's act: a domain that is on is left alone; another is waking. -/
def domainOnAct (x : Cmd) (s : State) : State :=
  if (tget s.doms x.domain).on then finish x {} s
  else pend x (fun tk t => onDom x.domain (fun m => { m with onTks := m.onTks ++ [tk] }) t) s

/-- DOMAIN_ON (R373). -/
def domainOnEffect (c : Nat) (p : Packet) (s : State) : State := serve 0x0B01 c p domainOnCheck domainOnAct s

/-- DOMAIN_ON. -/
def execDomainOn (c : Nat) (p : Packet) (s : State) : Host.Outcome State Fault Refusal := .next (domainOnEffect c p s)

/-! ### DOMAIN_STATUS -/

/-- A mask of `n` bits from a predicate. -/
def maskOf (n : Nat) (f : Nat → Bool) : Nat := ((List.range n).map (fun i => if f i then 2 ^ i else 0)).sum

/-- What DOMAIN_STATUS reports (Table 10.15). -/
def domainStatusRep (s : State) (_ : Cmd) : List Dword :=
  let m := fun d => tget s.doms d
  [dw (maskOf 4 (fun q => (m q).on)), dw (maskOf 16 (fun p => (m (0x10 + p)).on)),
   dw (maskOf 4 (fun q => (m q).fenced) + 2 ^ 16 * maskOf 16 (fun p => (m (0x10 + p)).fenced))]

/-- DOMAIN_STATUS (R373). -/
def domainStatusEffect (c : Nat) (p : Packet) (s : State) : State := serve 0x0B02 c p (fun _ _ => {}) (actRead domainStatusRep) s

/-- DOMAIN_STATUS. -/
def execDomainStatus (c : Nat) (p : Packet) (s : State) : Host.Outcome State Fault Refusal := .next (domainStatusEffect c p s)

/-! ### DOMAIN_DRAINED (step 5 of Table 07.12) -/

/-- A tile has nothing under way that the fence lets finish. -/
def tileQuiet (s : State) (t : Nat) : Bool :=
  let x := tget s.tiles t
  x.landing.isNone && x.landq.isEmpty && x.send.isNone && x.kernel.isNone

/-- The routers' local ports that a domain fences. -/
def domainPorts (d : Nat) : List (Nat × Nat) := if d < 4 then (quadTiles d).map (fun t => (tileRouter t, 0)) else [(pelocRouter (d - 0x10), 2)]

/-- A domain's endpoints await no response and hold no queued work. -/
def domainQuiet (s : State) (d : Nat) : Bool :=
  let own := fun (k : NocPkt) => (domainPorts d).contains (k.src, k.sport)
  !s.reqs.any (fun x => own x.pkt) && !s.netq.any (fun x => own x.1) &&
  (if d < 4 then (quadTiles d).all (tileQuiet s)
   else
    let x := tget s.pel (d - 0x10)
    x.out.all (fun o => !o.2.live) && x.held.isEmpty && x.inb.isEmpty && x.rx.isEmpty && x.outq.isEmpty && x.send.isNone)

/-- Kestrel suspends the loop of a quadrant (R497, R508). -/
def suspendLoop (q : Nat) (s : State) : State :=
  applyStretch (onLoop q (fun l => { l.enter .openHold with suspended := true, former := l.mode }) (endTrace q (dropModes q s)))

/-- DOMAIN_DRAINED: the POWER_DOWN record, then the domain is switched off. -/
def domainDrainedEffect (d : Nat) (s : State) : State :=
  let m := tget s.doms d
  match m.offTk with
  | some tk =>
    if m.fenced && m.on && domainQuiet s d then
      let s1 := owlNote ([dw (0x3 + 2 ^ 16 * d), dw s.timebase] ++ timeDws s.timebase ++ [dw (domainProbes s d), 0, 0, 0]) s
      let s2 := onDom d (fun m => { m with on := false, offTk := none }) s1
      post tk stOk [] (if d < 4 then suspendLoop d s2 else portDown (d - 0x10) downOff true s2)
    else s
  | none => s

/-- DOMAIN_DRAINED. -/
def execDomainDrained (domain : Nat) (s : State) : Host.Outcome State Fault Refusal := .next (domainDrainedEffect domain s)

/-! ### DOMAIN_WAKE (step 6 of Table 07.12) -/

/-- A tile's endpoint is reset and its memories are zero; what owns it stays (R395). -/
def wakeTile (t : Nat) (s : State) : State :=
  zeroStore t (onTile t (fun x => { ({} : Tile) with owner := x.owner, nextKernel := x.nextKernel }) s)

/-- A channel of a loop with its estimate at 0. -/
def LoopCh.fresh (c : LoopCh) : LoopCh := { c with xh := [0, 0, 0, 0, 0, 0] }

/-- A suspended loop goes on, and channel `q` of L5 with it (R497). -/
def resumeLoop (q : Nat) (s : State) : State :=
  let s1 := onLoop q (fun l =>
    if !l.suspended then l
    else if l.former = .table ∨ l.former = .closed then { l.enter .table with suspended := false, ch := tmap (fun _ c => LoopCh.fresh c) l.ch }
    else { l.enter l.former with suspended := false }) s
  applyStretch (onLoop 5 (fun l => if l.mode = .table ∨ l.mode = .closed then { l with ch := tmod l.ch q LoopCh.fresh } else l) s1)

/-- Probe settings that waited for a domain's fence (R528). -/
def applyWaiting (d : Nat) (s : State) : State :=
  (List.range 16).foldl (fun u n =>
    match tget u.owl.waiting n with
    | some p =>
      if routerDom p.router = some d then
        { u with owl := { u.owl with waiting := tset u.owl.waiting n none, probes := tset u.owl.probes n p } }
      else u
    | none => u) s

/-- A domain's endpoints are reset. -/
def wakeEndpoints (d : Nat) (s : State) : State :=
  if d < 4 then (quadTiles d).foldl (fun u t => wakeTile t u) s
  else linkChange (d - 0x10) (onPel (d - 0x10) (fun x => { x.cleared with st := .down }) s)

/-- DOMAIN_WAKE: the endpoints are reset, the SYNC record is written, then the fence is lowered. -/
def domainWakeEffect (d : Nat) (s : State) : State :=
  let m := tget s.doms d
  if m.on || m.onTks.isEmpty then s
  else
    let s1 := wakeEndpoints d s
    let s2 := owlNote (syncRecord 1 d (domainProbes s1 d) s1.timebase) s1
    let s3 := applyWaiting d (onDom d (fun m => { m with on := true, fenced := false, onTks := [] }) s2)
    m.onTks.foldl (fun u tk => post tk stOk [] u) (if d < 4 then resumeLoop d s3 else s3)

/-- DOMAIN_WAKE. -/
def execDomainWake (domain : Nat) (s : State) : Host.Outcome State Fault Refusal := .next (domainWakeEffect domain s)

end Sys2Proof.Machine
end

