-- ==== Sys2Proof/Machine/CmdFirmware.lean ====
section
/-! DEFINITION. Firmware patches and debug unlock: the commands of group 0x0Cxx and their ends (R349, R374, R384, R542, R543, R552, R553,
R582, R583). -/

namespace Sys2Proof.Machine

/-- Change the firmware state. -/
def onFw (f : Fw → Fw) (s : State) : State := { s with fw := f s.fw }

/-- ATTN_PATCH (R553). -/
def raisePatch (s : State) : State := raise attnPatch .admin s

/-- A firmware-answered command that was accepted before this one has not replied. -/
def olderWaits (s : State) (x : Cmd) : Bool := s.cmds.any (fun y => decide (y.id < x.id) && !(attr y.pkt.opcode).hw)

/-! ### PATCH_LOAD -/

/-- PATCH_LOAD's check. -/
def patchLoadCheck (s : State) (x : Cmd) : Verdict :=
  let n := (x.par 6).toNat
  firstOf [(s.fw.patch.isSome || patchBusy s, stStateBusy), (decide (0x100000 < n) || decide (hbmSize < x.par64 4 + n), stParamRange)]

/-- PATCH_LOAD's work begins; R349 applies from now on. -/
def patchLoadStart (x : Cmd) (tk : Nat) (s : State) : State :=
  onFw (fun f => { f with loadTk := some tk, loadAddr := x.par64 4, loadLen := (x.par 6).toNat }) s

/-- PATCH_LOAD (R552), once every earlier firmware-answered command has replied. -/
def patchLoadEffect (c : Nat) (p : Packet) (s : State) : State :=
  serve 0x0C00 c p patchLoadCheck (fun x t => if olderWaits t x then stall x t else pend x (patchLoadStart x) t) s

/-- PATCH_LOAD. -/
def execPatchLoad (c : Nat) (p : Packet) (s : State) : Host.Outcome State Fault Refusal := .next (patchLoadEffect c p s)

/-- Checks 1 to 4 and 6 of Table 15.7 on an image of `len` bytes. -/
def patchOk (len : Nat) (image : List Byte) : Bool :=
  let d := bytesDw (image.take 64)
  let dn := fun i => d.getD i 0
  let code := (dn 3).toNat
  let key := bits (dn 1) 17 16
  (dn 0).toNat == 0x54504B41 && bits (dn 1) 15 0 == 1 && bits (dn 1) 31 18 == 0 && (d.drop 4).all (· == 0) &&
  code % 16 == 0 && decide (16 ≤ code) && decide (code ≤ 1048416) && 160 + code == len &&
  bits (dn 2) 31 16 == Config.romVersion.toNat && !Config.fuseKeyRev.getLsbD key && decide (Config.fuseMinPver.toNat ≤ bits (dn 2) 15 0) &&
  decide (1 ≤ bits (dn 2) 15 0) && Config.verifies key (image.take (64 + code)) ((image.drop (64 + code)).take 96)

/-- PVER and the digest's head of an image that passed. -/
def patchInfo (image : List Byte) : Nat × Nat :=
  let d := bytesDw (image.take 64)
  (bits (d.getD 2 0) 15 0, (Config.sha384Head (image.take (64 + (d.getD 3 0).toNat))).toNat)

/-- The image is read and checked, and the final status posted (R552, R553); a poisoned byte fails it. -/
def patchLoadCompleteEffect (poisoned : Bool) (s : State) : State :=
  match s.fw.loadTk with
  | none => s
  | some tk =>
    let r := sysRead viaProc s.fw.loadAddr s.fw.loadLen s
    let t := onFw (fun f => { f with loadTk := none }) r.s
    if r.reply.status ≠ 0 then post tk r.reply.status r.reply.result t
    else if patchOk s.fw.loadLen r.bytes && r.bad.isEmpty && !poisoned then
      raisePatch (post tk stOk [] (onFw (fun f => { f with patch := some (patchInfo r.bytes), rejected := false }) t))
    else raisePatch (post tk stPatchSignature [] (onFw (fun f => { f with rejected := true }) t))

/-- PATCH_LOAD_COMPLETE. -/
def execPatchLoadComplete (poisoned : Bool) (s : State) : Host.Outcome State Fault Refusal := .next (patchLoadCompleteEffect poisoned s)

/-! ### PATCH_REMOVE -/

/-- PATCH_REMOVE's check. -/
def patchRemoveCheck (s : State) (_ : Cmd) : Verdict := if s.fw.patch.isNone || patchBusy s then no stStateBusy else {}

/-- PATCH_REMOVE (R553), once every earlier firmware-answered command has replied. -/
def patchRemoveEffect (c : Nat) (p : Packet) (s : State) : State :=
  serve 0x0C01 c p patchRemoveCheck
    (fun x t => if olderWaits t x then stall x t else pend x (fun tk u => onFw (fun f => { f with removeTk := some tk }) u) t) s

/-- PATCH_REMOVE. -/
def execPatchRemove (c : Nat) (p : Packet) (s : State) : Host.Outcome State Fault Refusal := .next (patchRemoveEffect c p s)

/-- The patch is gone, and the final status posted. -/
def patchRemoveCompleteEffect (s : State) : State :=
  match s.fw.removeTk with
  | none => s
  | some tk => raisePatch (post tk stOk [] (onFw (fun f => { f with removeTk := none, patch := none }) s))

/-- PATCH_REMOVE_COMPLETE. -/
def execPatchRemoveComplete (s : State) : Host.Outcome State Fault Refusal := .next (patchRemoveCompleteEffect s)

/-! ### FW_INFO -/

/-- What FW_INFO reports (Table 10.16). -/
def fwInfoRep (s : State) (_ : Cmd) : List Dword :=
  let h := match s.fw.patch with | some v => v.2 | none => 0
  [dw (Config.romVersion.toNat + 2 ^ 16 * patchVersion s), dw h, dw (h / 2 ^ 32), dw (b2n s.fw.rejected)]

/-- FW_INFO (R374). -/
def fwInfoEffect (c : Nat) (p : Packet) (s : State) : State := serve 0x0C02 c p (fun _ _ => {}) (actRead fwInfoRep) s

/-- FW_INFO. -/
def execFwInfo (c : Nat) (p : Packet) (s : State) : Host.Outcome State Fault Refusal := .next (fwInfoEffect c p s)

/-! ### Debug unlock (R582, R583) -/

/-- The three debug commands belong to P3 (R374). -/
def onlyP3 (_ : State) (x : Cmd) : Verdict := if x.port = 3 then {} else no stParamRange

/-- Sixteen fresh bytes of the random generator: free values (assumption 3). -/
def freshNonce (s : State) : List Byte := leBytes 8 (Config.freeValue s.freeCtr).toNat ++ leBytes 8 (Config.freeValue (s.freeCtr + 1)).toNat

/-- DEBUG_CHALLENGE's effect: a nonce that replaces any earlier one. -/
def debugChallengeApply (_ : Cmd) (s : State) : Reply × State :=
  ({ result := bytesDw (freshNonce s) },
    onFw (fun f => { f with nonce := some (freshNonce s), nonceTime := s.timebase }) { s with freeCtr := s.freeCtr + 2 })

/-- DEBUG_CHALLENGE (R583). -/
def debugChallengeEffect (c : Nat) (p : Packet) (s : State) : State := serve 0x0C03 c p onlyP3 (actFw debugChallengeApply) s

/-- DEBUG_CHALLENGE. -/
def execDebugChallenge (c : Nat) (p : Packet) (s : State) : Host.Outcome State Fault Refusal := .next (debugChallengeEffect c p s)

/-- Debug unlock is available (R582). -/
def unlockAvailable (s : State) : Bool :=
  Config.fuseDbgEn && !s.bring.dbgoff && !Config.fuseKeyRev.getLsbD Config.fuseDbgKey.toNat && decide (s.fw.fails < 8)

/-- The nonce was issued 10 s ago (R583); one that expires as its DEBUG_UNLOCK is accepted has expired (R602). -/
def nonceOver (s : State) : Bool := decide (s.fw.nonceTime + 10 ^ 9 ≤ s.timebase)

/-- The signature of a DEBUG_UNLOCK verifies over the nonce and the serial number (R583). -/
def unlockOk (s : State) (x : Cmd) : Bool :=
  match s.fw.nonce with
  | some n => unlockAvailable s && !nonceOver s && Config.verifies Config.fuseDbgKey.toNat (n ++ leBytes 8 Config.fuseSerial.toNat) (dwBytes x.params)
  | none => false

/-- DEBUG_UNLOCK's effect: the nonce is consumed; P3 becomes ADMIN, or the failure counts. -/
def debugUnlockApply (x : Cmd) (s : State) : Reply × State :=
  let t := onFw (fun f => { f with nonce := none }) s
  if unlockOk s x then
    ({}, onFw (fun f => { f with unlocked := true }) { t with ports := tmod t.ports 3 (fun o => { o with admin := true }) })
  else ({ status := stDebugLocked }, bump cntDebugFail 0 (onFw (fun f => { f with fails := f.fails + 1 }) t))

/-- DEBUG_UNLOCK (R583). -/
def debugUnlockEffect (c : Nat) (p : Packet) (s : State) : State := serve 0x0C04 c p onlyP3 (actFw debugUnlockApply) s

/-- DEBUG_UNLOCK. -/
def execDebugUnlock (c : Nat) (p : Packet) (s : State) : Host.Outcome State Fault Refusal := .next (debugUnlockEffect c p s)

/-- DEBUG_LOCK's effect: P3 is TENANT again, and injections not yet made are discarded (R384, R451). -/
def debugLockApply (_ : Cmd) (s : State) : State :=
  onInteg (fun i => { i with inject := [] })
    (onFw (fun f => { f with unlocked := false }) { s with ports := tmod s.ports 3 (fun o => { o with admin := false }) })

/-- DEBUG_LOCK (R374). -/
def debugLockEffect (c : Nat) (p : Packet) (s : State) : State := serve 0x0C05 c p onlyP3 (actDo debugLockApply) s

/-- DEBUG_LOCK. -/
def execDebugLock (c : Nat) (p : Packet) (s : State) : Host.Outcome State Fault Refusal := .next (debugLockEffect c p s)

/-- A nonce becomes invalid 10 s after its issue (R583). -/
def nonceExpiryEffect (s : State) : State := if s.fw.nonce.isSome && nonceOver s then onFw (fun f => { f with nonce := none }) s else s

/-- NONCE_EXPIRY. -/
def execNonceExpiry (s : State) : Host.Outcome State Fault Refusal := .next (nonceExpiryEffect s)

end Sys2Proof.Machine
end

