-- ==== Sys2Proof/Machine/HostPort.lean ====
section
/-! DEFINITION. The PCI Express functions and the mailboxes' GO: registers, doorbells, fetches and completions, BAR2, configuration
requests, power states, and the resets of a port (R199, R216, R217, R223, R324, R326 to R328, R334, R339, R545, R565, R572 to R576,
R598, R599). -/

namespace Sys2Proof.Machine

/-! ### What reaches a function (R573, R575) -/

/-- The unit of a command port. -/
def portUnit (p : Nat) : Nat := unitId 0x0C p

/-- Change a function. -/
def onFn (fn : Nat) (f : PcieFn → PcieFn) (s : State) : State := { s with fns := tmod s.fns fn f }

/-- The link of a function that exists is up. -/
def fnUp (s : State) (fn : Nat) : Bool := decide (fn < 2) && portExists s fn && (tget s.fns fn).linkUp && !s.bring.inReset

/-- A BAR access is served: Memory Space Enable is 1 and the function is not in D3hot. -/
def barOpen (s : State) (fn : Nat) : Bool := (tget s.fns fn).mse && !(tget s.fns fn).d3

/-- A request that is completed with Unsupported Request is counted. -/
def sentUr (fn : Nat) (s : State) : State := bump cntPcieUrSent (portUnit fn) s

/-- A write to a BAR arrives. -/
def barWrite (fn : Nat) (f : State → State) (s : State) : State :=
  if !fnUp s fn then s else if !barOpen s fn then sentUr fn s else f s

/-- A completion goes back to the host. -/
def complete (c : CplOut) (s : State) : State := { s with cplOut := s.cplOut ++ [c] }

/-! ### QP0 (R326, R328) -/

/-- EN of QP0 is written. -/
def writeEn (fn : Nat) (en : Bool) (s : State) : State :=
  let c := 64 * fn
  let q := tget s.qps c
  if en = q.en then s
  else if en then
    if q.rdy then { s with qps := tset s.qps c { q with en := true, enWaits := true } } else enableQp0 c s
  else
    let s1 := { s with qps := tset s.qps c { q with en := false, enWaits := false } }
    settleQp0 c (orphanBuffers (· == c) (breakLocks (· == c) s1))

/-- QP0_ENABLE (R328). -/
def qp0EnableEffect (fn : Nat) (en : Bool) (s : State) : State := barWrite fn (writeEn fn en) s

/-- QP0_ENABLE. -/
def execQp0Enable (fn : Nat) (en : Bool) (s : State) : Host.Outcome State Fault Refusal := .next (qp0EnableEffect fn en s)

/-! ### Doorbells (R327) -/

/-- SQTAIL is written, and holds what was written (R11); a queue pair that is not RDY does nothing with it. -/
def writeTail (fn qp v : Nat) (s : State) : State :=
  let c := 64 * fn + qp
  let q := tget s.qps c
  let t := { s with qps := tset s.qps c { q with sqtail := v % 4096 } }
  if 64 ≤ qp then s else if q.rdy && decide (2 ^ q.sqlog ≤ v % 4096) then stopQp c 3 t else t

/-- SQ_DOORBELL (R327). -/
def sqDoorbellEffect (fn qp v : Nat) (s : State) : State := barWrite fn (writeTail fn qp v) s

/-- SQ_DOORBELL. -/
def execSqDoorbell (fn qp value : Nat) (s : State) : Host.Outcome State Fault Refusal := .next (sqDoorbellEffect fn qp value s)

/-- CQHEAD is written, and holds what was written (R11); on a RDY queue pair the entries that it passes are free again. -/
def writeHead (fn qp v : Nat) (s : State) : State :=
  let c := 64 * fn + qp
  let q := tget s.qps c
  let n := 2 ^ q.cqlog
  let keep := { q with cqhead := v % 4096 }
  if 64 ≤ qp then s
  else if !q.rdy then { s with qps := tset s.qps c keep }
  else if n ≤ v % 4096 then stopQp c 3 { s with qps := tset s.qps c keep }
  else { s with qps := tset s.qps c { keep with unread := q.unread - (v % 4096 + n - q.cqhead) % n } }

/-- CQ_DOORBELL (R327, R346). -/
def cqDoorbellEffect (fn qp v : Nat) (s : State) : State := barWrite fn (writeHead fn qp v) s

/-- CQ_DOORBELL. -/
def execCqDoorbell (fn qp value : Nat) (s : State) : Host.Outcome State Fault Refusal := .next (cqDoorbellEffect fn qp value s)

/-! ### Fetching (R312, R327, R346) -/

/-- Submission entries of a port that have been asked for and have not arrived. -/
def fetching (s : State) (p : Nat) : Nat :=
  (s.hostReads.filter (fun r => match r.kind with | .sqEntry c _ => portOf c == p | _ => false)).length

/-- A completion entry can be reserved. -/
def Qp.cqRoom (q : Qp) : Bool := decide (q.unread + q.reserved < 2 ^ q.cqlog)

/-- A submission entry waits to be fetched, and may be; what EN enables anew waits for RDY to fall (R328). -/
def canFetch (s : State) (c : Nat) : Bool :=
  let q := tget s.qps c
  q.rdy && q.en && !q.enWaits && q.fetch != q.sqtail && q.cqRoom && decide (fetching s (portOf c) < 8) && !(tget s.ports (portOf c)).resetting &&
  !(tget s.fns (portOf c)).d3

/-- The same, and it is the queue pair's turn among those of its port (R312). -/
def mayFetch (s : State) (c : Nat) : Bool :=
  canFetch s c && firstFrom 64 (tget s.rota.fetch (portOf c)) (fun q => canFetch s (64 * portOf c + q)) == some (c % 64)

/-- A queue pair has had its turn. -/
def fetchTurned (c : Nat) (s : State) : State :=
  { s with rota := { s.rota with fetch := tset s.rota.fetch (portOf c) ((c % 64 + 1) % 64) } }

/-- SQ_ENTRY_FETCH: the entry is read, or the queue pair stops (R327, R574). -/
def sqEntryFetchEffect (fn qp : Nat) (s : State) : State :=
  let c := 64 * fn + qp
  let q := tget s.qps c
  if decide (64 ≤ qp) || !fnUp s fn || !mayFetch s c then s
  else if !canMaster s fn then stopQp c 1 s
  else
    hostRead fn (q.sqbase + 64 * q.fetch) 64 (.sqEntry c q.epoch)
      (fetchTurned c { s with qps := tset s.qps c { q with fetch := (q.fetch + 1) % 2 ^ q.sqlog, reserved := q.reserved + 1 } })

/-- SQ_ENTRY_FETCH. -/
def execSqEntryFetch (fn qp : Nat) (s : State) : Host.Outcome State Fault Refusal := .next (sqEntryFetchEffect fn qp s)

/-- The packet that 64 bytes spell. -/
def packetOf (bs : List Byte) : Packet := { dws := bytesDw bs }

/-- A fetch of an older entry of the same queue pair is still under way: entries are taken in ring order (R333). -/
def olderFetch (s : State) (r : HostRead) : Bool :=
  match r.kind with
  | .sqEntry c e => s.hostReads.any (fun x => x.kind == .sqEntry c e && decide (x.tag < r.tag))
  | _ => false

/-- An access that reads host memory for a command or a fetch ends: with its bytes, or failed (Table 16.10). -/
def readEnded (r : HostRead) (data : Option (List Byte)) (s : State) : State :=
  match r.kind, data with
  | .sqEntry c e, d =>
    let q := tget s.qps c
    if q.epoch ≠ e ∨ q.rdy = false ∨ q.en = false ∨ q.enWaits = true then s
    else match d with
      | some bs => takeIn c (packetOf bs) s
      | none => stopQp c 1 s
  | .noc _, _ => s
  | .block i, some bs =>
    { s with cmds := s.cmds.map (fun x => if x.id == i then { x with block := bytesDw bs, waits := 0 } else x) }
  | .block i, none => { s with cmds := s.cmds.map (fun x => if x.id == i then { x with blockFault := true, waits := 0 } else x) }
  | .input i, d =>
    match s.cmds.find? (fun x => x.id == i), d with
    | some x, some bs => memWriteFinish x bs s
    | some x, none => finish x { status := stHostFault } s
    | none, _ => s

/-- The outstanding read request with a tag: at most 1,024 are outstanding, and the others wait (R574). -/
def readOf (s : State) (tag : Nat) : Option HostRead :=
  ((s.hostReads.filter (fun r => r.came.isNone)).take 1024).find? (fun r => r.tag == tag)

/-- The bytes of a request, which are zeros where it failed. -/
def HostRead.bytes (r : HostRead) : List Byte := match r.came with | some (some b) => b.1 | _ => List.replicate r.len 0

/-- A request has brought its bytes, not poisoned. -/
def HostRead.good (r : HostRead) : Bool := match r.came with | some (some b) => !b.2 | _ => false

/-- A request has failed. -/
def HostRead.failed (r : HostRead) : Bool := r.came == some none

/-- The granules of an access at bus address `a` that its requests leave poisoned (R215, R574). -/
def poisonedBy (rs : List HostRead) (a : Nat) : List Nat :=
  (rs.filter (fun r => !r.good)).flatMap (fun r => (List.range (r.len / 16)).map (fun i => (r.addr - a) / 16 + i))

/-- All the requests of an access have ended: for host spill the poisoned bytes are those of the requests concerned, and any other access
fails as a whole (R574, Table 16.10). -/
def accessEnded (r : HostRead) (rs : List HostRead) (s : State) : State :=
  let bs := rs.flatMap HostRead.bytes
  match r.kind with
  | .noc k => readServed k bs (poisonedBy rs ((rs.map (·.addr)).headD 0)) (rs.any HostRead.failed) s
  | _ => readEnded r (if rs.all HostRead.good then some bs else none) s

/-- A read request ends: with its bytes and EP, or failed. -/
def requestEnded (r : HostRead) (res : Option (List Byte × Bool)) (s : State) : State :=
  let t := { s with hostReads := s.hostReads.map (fun (x : HostRead) => if x.tag == r.tag then { x with came := some res } else x) }
  let rs := t.hostReads.filter (fun (x : HostRead) => x.acc == r.acc)
  if rs.all (fun x => x.came.isSome) then accessEnded r rs { t with hostReads := t.hostReads.filter (fun (x : HostRead) => x.acc != r.acc) } else t

/-- HOST_COMPLETION (R574, Table 16.10): UR or CA fail the request, and they and EP are counted. -/
def hostCompletionEffect (tag : Nat) (k : HostCpl) (s : State) : State :=
  match readOf s tag with
  | none => s
  | some r =>
    if olderFetch s r || (k.ok && k.data.length != r.len) then s
    else if !k.ok then requestEnded r none (bump cntPcieCplErr (portUnit r.fn) s)
    else requestEnded r (some (k.data, k.ep)) (if k.ep then bump cntPciePoisonRx (portUnit r.fn) s else s)

/-- HOST_COMPLETION. -/
def execHostCompletion (tag : Nat) (cpl : HostCpl) (s : State) : Host.Outcome State Fault Refusal :=
  .next (hostCompletionEffect tag cpl s)

/-- COMPLETION_TIMEOUT (R574). -/
def completionTimeoutEffect (tag : Nat) (s : State) : State :=
  match readOf s tag with
  | none => s
  | some r => if olderFetch s r then s else requestEnded r none (bump cntPcieCplTimeout (portUnit r.fn) s)

/-- COMPLETION_TIMEOUT. -/
def execCompletionTimeout (tag : Nat) (s : State) : Host.Outcome State Fault Refusal := .next (completionTimeoutEffect tag s)

/-! ### BAR2 (R199, R216, R217, R223) -/

/-- The bytes of a BAR2 segment. -/
def segSize : Nat := 0x10000000

/-- A segment register is written; SEGERR is cleared by a 1 (Table 06.5). -/
def writeSeg (fn seg d : Nat) (v : Dword) (s : State) : State :=
  if 16 ≤ seg then s
  else
    let k := 16 * fn + seg
    match d with
    | 0 => { s with segs := tmod s.segs k (fun g => { g with en := bit v 0, wren := bit v 1, part := bits v 7 2, segerr := g.segerr && !bit v 8 }) }
    | 1 => { s with segs := tmod s.segs k (fun g => { g with vpage := bits v 17 0 }) }
    | _ => s

/-- BAR2_SEGMENT_WRITE (R199). -/
def bar2SegmentWriteEffect (fn seg d : Nat) (v : Dword) (s : State) : State := barWrite fn (writeSeg fn seg d v) s

/-- BAR2_SEGMENT_WRITE. -/
def execBar2SegmentWrite (fn seg dw : Nat) (value : Dword) (s : State) : Host.Outcome State Fault Refusal :=
  .next (bar2SegmentWriteEffect fn seg dw value s)

/-- The key of the segment of a BAR2 offset. -/
def segKey (fn off : Nat) : Nat := 16 * fn + off / segSize

/-- The partition address of a BAR2 offset (R199). -/
def segAddr (g : Seg) (off : Nat) : Nat := g.vpage * pageSize + off % segSize

/-- An access through a segment passes R216, the window check apart. -/
def segOpen (s : State) (fn : Nat) (wr : Bool) (off n : Nat) : Bool :=
  let g := tget s.segs (segKey fn off)
  g.en && (!wr || g.wren) && (fn != 1 || boundToPort s g.part 1) && decide (segAddr g off + n ≤ 0x8000000000) &&
  decide (off % segSize + n ≤ segSize)

/-- A failed BAR2 access (R216). -/
def segFault (fn off : Nat) (s : State) : State :=
  bump cntBar2Fault (portUnit fn) { s with segs := tmod s.segs (segKey fn off) (fun g => { g with segerr := true }) }

/-- A write through BAR2; a poisoned one marks every sector that it touches (R575). -/
def aperturePut (fn off : Nat) (data : List Byte) (ep : Bool) (s : State) : State :=
  let g := tget s.segs (segKey fn off)
  let bad := if ep then List.range ((data.length + 15) / 16) else []
  if !segOpen s fn true off data.length then segFault fn off s
  else
    let w := partWrite viaHost g.part (segAddr g off) data bad s
    if w.st ≠ 0 then segFault fn off (countFault g.part w.st w.s) else w.s

/-- A poisoned TLP that arrives is counted (R575). -/
def countEp (fn : Nat) (ep : Bool) (s : State) : State := if ep then bump cntPciePoisonRx (portUnit fn) s else s

/-- BAR2_WRITE (R216). -/
def bar2WriteEffect (fn off : Nat) (data : List Byte) (ep : Bool) (s : State) : State :=
  barWrite fn (fun t => if data = [] ∨ 2 ^ 32 ≤ off then t else aperturePut fn off data ep (countEp fn ep t)) s

/-- BAR2_WRITE. -/
def execBar2Write (fn offset : Nat) (data : List Byte) (ep : Bool) (s : State) : Host.Outcome State Fault Refusal :=
  .next (bar2WriteEffect fn offset data ep s)

/-- A read that fails answers with bytes 0xFF. -/
def apertureFail (fn off n : Nat) (s : State) : State :=
  complete { fn := fn, data := List.replicate n 0xFF } (segFault fn off s)

/-- A read through BAR2: its bytes, or a poisoned completion (R216, Table 12.8). -/
def apertureGet (fn off n : Nat) (s : State) : State :=
  let g := tget s.segs (segKey fn off)
  if !segOpen s fn false off n then apertureFail fn off n s
  else
    let r := partRead viaHost g.part (segAddr g off) n s
    if r.st ≠ 0 then apertureFail fn off n (countFault g.part r.st r.s)
    else if r.bad.isEmpty then complete { fn := fn, data := r.bytes } r.s
    else complete { fn := fn, poisoned := true, data := r.bytes } (bump cntBar2Poison (portUnit fn) r.s)

/-- BAR2_READ (R216). -/
def bar2ReadEffect (fn off n : Nat) (s : State) : State :=
  if !fnUp s fn || n == 0 || decide (2 ^ 32 ≤ off) then s
  else if !barOpen s fn then complete { fn := fn, unsupported := true } (sentUr fn s)
  else apertureGet fn off n s

/-- BAR2_READ. -/
def execBar2Read (fn offset len : Nat) (s : State) : Host.Outcome State Fault Refusal := .next (bar2ReadEffect fn offset len s)

/-! ### BAR0 (R324) -/

/-- The bits of a QP0 configuration register that hold a value (Table 09.10). -/
def qp0Mask (off : Nat) : Dword := if off = 0x1000 ∨ off = 0x1008 then 0xFFFFF000 else if off = 0x1010 then 0xF0F else 0xFFFFFFFF

/-- An aligned dword is written at a BAR0 offset (Tables 09.9 to 09.11 and 06.5); reserved offsets and read-only registers ignore
it. -/
def writeReg (fn off : Nat) (v : Dword) (s : State) : State :=
  if 0x1000 ≤ off ∧ off < 0x1014 then
    { s with ports := tmod s.ports fn (fun p => { p with qp0 := tset p.qp0 off (v &&& qp0Mask off) }) }
  else if off = 0x1014 then writeEn fn (bit v 0) s
  else if 0x2000 ≤ off ∧ off < 0x2400 then
    match off % 16 with
    | 0 => writeTail fn ((off - 0x2000) / 16) v.toNat s
    | 4 => writeHead fn ((off - 0x2000) / 16) v.toNat s
    | _ => s
  else if 0xF000 ≤ off ∧ off < 0xF100 then writeSeg fn ((off - 0xF000) / 16) (off % 16 / 4) v s
  else s

/-- REGISTER_WRITE (R11, R324, R575): only aligned dwords are served, and a poisoned write is discarded. -/
def registerWriteEffect (fn off size : Nat) (v : Dword) (ep : Bool) (s : State) : State :=
  barWrite fn (fun t =>
    let u := countEp fn ep t
    if size ≠ 4 ∨ off % 4 ≠ 0 then sentUr fn u else if ep then u else writeReg fn off v u) s

/-- REGISTER_WRITE. -/
def execRegisterWrite (fn offset size : Nat) (value : Dword) (ep : Bool) (s : State) : Host.Outcome State Fault Refusal :=
  .next (registerWriteEffect fn offset size value ep s)

/-- The status dword of a queue pair's doorbell block (Table 09.11). -/
def qpStatus (q : Qp) : Nat :=
  b2n q.rdy + 2 * b2n q.err + 4 * q.cause + 16 * b2n q.bound.isSome + 32 * q.bound.getD 0 + 2048 * b2n q.cfgerr

/-- A dword of a BAR2 segment register (Table 06.5). -/
def segDword (g : Seg) (d : Nat) : Nat :=
  match d with
  | 0 => b2n g.en + 2 * b2n g.wren + 4 * g.part + 256 * b2n g.segerr
  | 1 => g.vpage
  | _ => 0

/-- What a read of an aligned dword of BAR0 returns (Tables 09.9 to 09.11 and 06.5); reserved offsets and bits read 0 (R12, R324). -/
def readReg (s : State) (fn off : Nat) : Dword :=
  if 0x1000 ≤ off ∧ off < 0x1014 then tget (tget s.ports fn).qp0 off &&& qp0Mask off
  else if off = 0x1014 then dw (b2n (tget s.qps (64 * fn)).en)
  else if 0x2000 ≤ off ∧ off < 0x2400 then
    let q := tget s.qps (64 * fn + (off - 0x2000) / 16)
    match off % 16 with
    | 0 => dw q.sqtail
    | 4 => dw q.cqhead
    | 8 => dw (qpStatus q)
    | _ => 0
  else if 0xF000 ≤ off ∧ off < 0xF100 then dw (segDword (tget s.segs (16 * fn + (off - 0xF000) / 16)) (off % 16 / 4))
  else 0

/-- A read of BAR0 (R324, R575), which no row of the table of commands brings (assumption 132): the register's dword, or Unsupported
Request. -/
def registerReadEffect (fn off size : Nat) (s : State) : State :=
  if !fnUp s fn then s
  else if !barOpen s fn || size != 4 || off % 4 != 0 then complete { fn := fn, unsupported := true } (sentUr fn s)
  else complete { fn := fn, data := leBytes 4 (readReg s fn off).toNat } s

/-! ### Mailbox GO (R334, R545) -/

/-- The 64 bytes of CMD. -/
def cmdBytes (s : State) (p : Nat) : List Byte := mbxBytes s p 0 64

/-- The reply to a repeated command: the same, with DUP, the present ATTN and the new phase (R334). -/
def repeatReply (p : Nat) (s : State) : State :=
  let m := tget s.mbx p
  let d1 := m.rply.getD 1 0
  let attn := (viewOf s (64 * p)).summary
  let w := dw (attn + 2 ^ 16 * b2n (!m.mphase) + 2 ^ 17 * b2n (bit d1 17) + 2 ^ 18)
  { s with mbx := tset s.mbx p { m with rply := m.rply.set 1 w, mphase := !m.mphase } }

/-- A GO takes CMD: a repeat of the last command that was answered is answered again, another is run. -/
def takeGo (p : Nat) (s : State) : State :=
  let sent := cmdBytes s p
  if (tget s.mbx p).last = some sent then repeatReply p s
  else takeIn (64 * p) (packetOf sent) { s with mbx := tmod s.mbx p (fun m => { m with busy := true }) }

/-- A 1 is written to GO (R334): while BUSY is 1 it sets RETRY; during a port reset it is held (R545). -/
def writeGo (p : Nat) (s : State) : State :=
  let m := tget s.mbx p
  if s.bring.inReset then s
  else if m.busy then bump cntCmdRetry (portUnit p) { s with mbx := tset s.mbx p { m with retry := true } }
  else if (tget s.ports p).resetting then { s with mbx := tset s.mbx p { m with busy := true, held := true } }
  else takeGo p s

/-- MAILBOX_GO (R334). -/
def mailboxGoEffect (p : Nat) (s : State) : State := if p = 2 ∨ p = 3 then writeGo p s else s

/-- MAILBOX_GO. -/
def execMailboxGo (port : Nat) (s : State) : Host.Outcome State Fault Refusal := .next (mailboxGoEffect port s)

/-- PORT_RESET_COMPLETE (R545): the port serves again, and a held GO is taken. -/
def portResetCompleteEffect (p : Nat) (s : State) : State :=
  if !(tget s.ports p).resetting then s
  else
    let s1 := { s with ports := tmod s.ports p (fun o => { o with resetting := false }) }
    if (tget s.mbx p).held then takeGo p { s1 with mbx := tmod s1.mbx p (fun m => { m with held := false, busy := false }) } else s1

/-- PORT_RESET_COMPLETE. -/
def execPortResetComplete (port : Nat) (s : State) : Host.Outcome State Fault Refusal := .next (portResetCompleteEffect port s)

/-! ### Function-level reset (R225, R572) -/

/-- A read request for host spill that a function has made and that has not ended. -/
def HostRead.spillOf (fn : Nat) (r : HostRead) : Bool := r.fn == fn && r.kind.spill && r.came.isNone

/-- The accesses to host memory that are under way through a function fail when it is reset (R225). -/
def failSpills (fn : Nat) (s : State) : State :=
  (s.hostReads.filter (HostRead.spillOf fn)).foldl (fun u r => requestEnded r none u) s

/-- A function after a function-level reset: its configuration is at its reset values, but for Max_Payload_Size, which PCI Express keeps
(assumption 87). -/
def PcieFn.afterReset (f : PcieFn) : PcieFn := { linkUp := f.linkUp, devCtl := 0x2010 ||| (f.devCtl &&& 0xE0) }

/-- A function-level reset: a port reset of the port and of the function's configuration (R538, R572). -/
def functionReset (fn : Nat) (s : State) : State := portReset fn (onFn fn PcieFn.afterReset (failSpills fn s))

/-! ### Configuration space (R565, R575) -/

/-- A configuration register: the bits that are fixed, those that a write changes, and those that no source gives, which are free. -/
structure CfgReg where
  fixed : Nat := 0
  rw : Dword := 0
  free : Dword := 0
  deriving DecidableEq, Repr

/-- Header and version of an extended capability, and the next one's place (Table 16.4; the versions are PCI Express's, assumption 87). -/
def extCap (id version next : Nat) : CfgReg := { fixed := id + 2 ^ 16 * version + 2 ^ 20 * next }

/-- The header (Tables 00.1 and 16.3). -/
def headerReg (reg : Nat) : Option CfgReg :=
  match reg with
  | 0x00 => some { fixed := 0x1F6C + 2 ^ 16 * 0x0520 }
  | 0x04 => some { fixed := 2 ^ 20, rw := 0x146, free := 0xF9000000 }
  | 0x08 => some { fixed := 0xB0 + 2 ^ 8 * 0x120000 }
  | 0x0C => some { free := 0xFF0000FF }
  | 0x10 => some { fixed := 0x4, rw := 0xFFFF0000 }
  | 0x14 => some { rw := 0xFFFFFFFF }
  | 0x18 => some { fixed := 0xC }
  | 0x1C => some { rw := 0xFFFFFFFF }
  | 0x20 => some {}
  | 0x24 => some {}
  | 0x28 => some {}
  | 0x2C => some { fixed := 0x1F6C + 2 ^ 16 * 0x0520 }
  | 0x30 => some {}
  | 0x34 => some { fixed := 0x40 }
  | 0x38 => some {}
  | 0x3C => some { rw := 0xFF }
  | _ => none

/-- The capabilities (Table 16.4), each in the places of PCI Express (assumption 87). -/
def capReg (s : State) (reg : Nat) : Option CfgReg :=
  match reg with
  | 0x40 => some { fixed := 0x00035001 }
  | 0x44 => some { fixed := 0x8, rw := 0x3 }
  | 0x50 => some { fixed := 0x00020010 }
  | 0x54 => some { fixed := 0x10008022, free := 0x00000FC0 }
  | 0x58 => some { rw := 0x71FF, free := 0x002F0000 }
  | 0x5C => some { fixed := 0x00420806 + 16 * (if s.bring.strapBif = 0 then 16 else 8), free := 0xFF007000 }
  | 0x74 => some { fixed := 0x00030007, free := 0xFFFCCFE0 }
  | 0x78 => some { rw := 0x100F, free := 0xFFFFEFF0 }
  | 0x7C => some { fixed := 0x7E, free := 0xFFFFFF00 }
  | 0x100 => some (extCap 0x01 2 0x148)
  | 0x118 => some { fixed := 0xA0, rw := 0x140, free := 0xFFFFFE1F }
  | 0x148 => some (extCap 0x03 1 0x158)
  | 0x14C => some { fixed := Config.fuseSerial.toNat % 2 ^ 32 }
  | 0x150 => some { fixed := Config.fuseSerial.toNat / 2 ^ 32 }
  | 0x158 => some (extCap 0x19 1 0x190)
  | 0x190 => some (extCap 0x25 1 0x1A0)
  | 0x1A0 => some (extCap 0x26 1 0x1D0)
  | 0x1D0 => some (extCap 0x2A 1 0x200)
  | 0x200 => some (extCap 0x31 1 0x230)
  | 0x230 => some (extCap 0x27 1 0)
  | _ => none

/-- A configuration register; what neither the specification nor the layout of its capabilities gives is free. -/
def cfgReg (s : State) (reg : Nat) : CfgReg := ((headerReg reg).orElse (fun _ => capReg s reg)).getD { free := 0xFFFFFFFF }

/-- What the writable bits of a configuration register hold. -/
def cfgHeld (f : PcieFn) (reg : Nat) : Dword :=
  if reg = 0x04 then (tget f.cfg reg &&& 0xFFFFFFF9) ||| dw (2 * b2n f.mse + 4 * b2n f.bme)
  else if reg = 0x44 then dw (3 * b2n f.d3)
  else if reg = 0x58 then f.devCtl
  else tget f.cfg reg

/-- What a configuration read of a register returns. -/
def configDword (s : State) (fn reg : Nat) : Dword :=
  let c := cfgReg s reg
  dw c.fixed ||| (cfgHeld (tget s.fns fn) reg &&& c.rw) ||| (dw (Config.freeValue s.freeCtr).toNat &&& c.free)

/-- What a configuration write leaves of a function: the enables of the Command register, the power state, which is D0 or D3hot, Device
Control, and the writable bits of the others. -/
def PcieFn.put (f : PcieFn) (c : CfgReg) (reg : Nat) (v : Dword) : PcieFn :=
  let g := { f with cfg := tset f.cfg reg (v &&& c.rw) }
  if reg = 0x04 then { g with mse := bit v 1, bme := bit v 2 }
  else if reg = 0x44 then { g with d3 := if bits v 1 0 = 3 then true else if bits v 1 0 = 0 then false else f.d3 }
  else if reg = 0x58 then { g with devCtl := v &&& c.rw }
  else g

/-- A configuration write; bit 15 of Device Control starts a function-level reset (R572). -/
def configPut (fn reg : Nat) (v : Dword) (s : State) : State :=
  let t := onFn fn (fun f => f.put (cfgReg s reg) reg v) s
  if reg = 0x58 ∧ bit v 15 = true then functionReset fn t else t

/-- CONFIG_REQUEST (R575): it always receives a successful completion. -/
def configRequestEffect (fn reg : Nat) (write : Option Dword) (s : State) : State :=
  if !fnUp s fn then s
  else match write with
    | some v => complete { fn := fn } (configPut fn (reg / 4 * 4) v s)
    | none => complete { fn := fn, data := leBytes 4 (configDword s fn (reg / 4 * 4)).toNat } (drawFree s)

/-- CONFIG_REQUEST. -/
def execConfigRequest (fn reg : Nat) (write : Option Dword) (s : State) : Host.Outcome State Fault Refusal :=
  .next (configRequestEffect fn reg write s)

/-! ### Power states, Bus Master Enable, resets and links (R572, R573, R576, R599) -/

/-- POWER_STATE_CHANGE (R576): nothing is reset. -/
def powerStateChangeEffect (fn : Nat) (d3 : Bool) (s : State) : State := if fnUp s fn then onFn fn (fun f => { f with d3 := d3 }) s else s

/-- POWER_STATE_CHANGE. -/
def execPowerStateChange (fn : Nat) (d3 : Bool) (s : State) : Host.Outcome State Fault Refusal := .next (powerStateChangeEffect fn d3 s)

/-- BUS_MASTER_DISABLE (R599): requests under way complete or fail by themselves; later ones fail at once. -/
def busMasterDisableEffect (fn : Nat) (s : State) : State := if fnUp s fn then onFn fn (fun f => { f with bme := false }) s else s

/-- BUS_MASTER_DISABLE. -/
def execBusMasterDisable (fn : Nat) (s : State) : Host.Outcome State Fault Refusal := .next (busMasterDisableEffect fn s)

/-- FUNCTION_LEVEL_RESET (R538, R572). -/
def functionLevelResetEffect (fn : Nat) (s : State) : State := if fnUp s fn then functionReset fn s else s

/-- FUNCTION_LEVEL_RESET. -/
def execFunctionLevelReset (fn : Nat) (s : State) : Host.Outcome State Fault Refusal := .next (functionLevelResetEffect fn s)

/-- PCIE_LINK_DOWN (R573, R576). -/
def pcieLinkDownEffect (fn : Nat) (s : State) : State :=
  if fnUp s fn then portReset fn (bump cntPcieLinkDown (portUnit fn) (onFn fn (fun _ => {}) (failSpills fn s))) else s

/-- PCIE_LINK_DOWN. -/
def execPcieLinkDown (fn : Nat) (s : State) : Host.Outcome State Fault Refusal := .next (pcieLinkDownEffect fn s)

/-- PCIE_LINK_UP (R550, R573): nothing is served until the root PLL has locked. -/
def pcieLinkUpEffect (fn : Nat) (s : State) : State :=
  if decide (fn < 2) && portExists s fn && s.bring.pll && !s.bring.inReset then onFn fn (fun f => { f with linkUp := true }) s else s

/-- PCIE_LINK_UP. -/
def execPcieLinkUp (fn : Nat) (s : State) : Host.Outcome State Fault Refusal := .next (pcieLinkUpEffect fn s)

end Sys2Proof.Machine
end

