-- ==== Sys2Proof/Machine/IntegEv.lean ====
section
/-! DEFINITION. Integrity in time: known-answer kernels, confirmations, ledger writes and the end of a drain (R38, R440 to R445, R447, R448,
R454, R627). -/

namespace Sys2Proof.Machine

/-! ### Kernels (R439 to R441, Table 12.10) -/

/-- The unit that a kernel judges on a tile. -/
def kernelUnit (t k : Nat) : Nat :=
  if k < 8 then unitId 0x02 t
  else if k < 16 then unitId 0x01 t
  else if k < 24 then unitId 0x03 t
  else if k < 28 then unitId 0x05 t
  else unitId 0x01 t

/-- A kernel's length in ACLK cycles. -/
def kernelLength (k : Nat) : Nat :=
  if k < 8 then 1024 else if k < 16 then 2048 else if k < 20 then 1024 else if k < 24 then 2048 else if k < 28 then 512 else 65536

/-- A confirmation is due or runs on a tile. -/
def confirmOn (s : State) (t : Nat) : Bool :=
  s.integ.confirms.any (fun c => match c.left with | r :: _ => r / 32 == t | [] => false)

/-- No loaded program holds the tile: any kernel may run (R440). -/
def freeTile (s : State) (t : Nat) : Bool := (tget s.tiles t).prog.isNone && !isShadow s t

/-- A kernel may run on a tile in the idle window that is open there: what is left of the time expected covers it (R178, R440).
DESIGN CHOICE: the time that has gone is counted in whole ACLK cycles up to the last edge of TCLK (assumption 163). -/
def idleFits (s : State) (t k : Nat) : Bool :=
  let x := tget s.tiles t
  match x.idle with
  | some e =>
    decide (k < 28) && decide (kernelLength k + 32 + (s.aclk.cycles - x.idleAt) ≤ e) && x.expands == 0 && x.macs == 0 && x.packs == 0
  | none => false

/-- A background kernel may run on a tile. -/
def kernelFits (s : State) (t k : Nat) : Bool :=
  (tget s.doms (quadOf t)).on && (fenceOf s (quadOf t)).isNone && (tget s.tiles t).kernel.isNone && !confirmOn s t && (freeTile s t || idleFits s t k)

/-- The next kernel of a tile: the first from its turn on that the mask enables and that may run there. -/
def nextKernelOf (s : State) (t : Nat) : Option Nat :=
  ((List.range 32).map (fun i => ((tget s.tiles t).nextKernel + i) % 32)).find? (fun k => s.integ.selfMask.testBit k && kernelFits s t k)

/-- The tile whose turn it is: the first from the rotation's place with a kernel that may run. -/
def nextTileOf (s : State) : Option Nat :=
  ((List.range 64).map (fun i => (s.integ.rotate + i) % 64)).find? (fun t => (nextKernelOf s t).isSome)

/-- A background kernel runs somewhere. -/
def backgroundRuns (s : State) : Bool :=
  s.tiles.any (fun e => match e.2.kernel with | some k => decide (k.why = .background) | none => false)

/-- A background kernel starts on the tile and with the kernel whose turn it is (R440). -/
def kernelStartEffect (t k : Nat) (s : State) : State :=
  if s.bring.inReset || !s.integ.selfEn || decide (s.integ.dstate ≠ .running) || backgroundRuns s then s
  else if nextTileOf s = some t ∧ nextKernelOf s t = some k then
    startKernel t { k := k, why := .background, idle := (tget s.tiles t).idle.isSome } (onInteg (fun i => { i with rotate := (t + 1) % 64 }) s)
  else s

/-- KERNEL_START. -/
def execKernelStart (tile kernel : Nat) (s : State) : Host.Outcome State Fault Refusal := .next (kernelStartEffect tile kernel s)

/-- The KAK record of a kernel's failure (Table 12.4). -/
def kakRecord (s : State) (ver unit k : Nat) (idle : Bool) (crc : Dword) : LRec :=
  mkRec s kindKak ver unit stOk 1 none (k + 32 * b2n idle) crc.toNat

/-! ### Confirmations (R443, R627) -/

/-- Confirmation `i` starts its next kernel, where its tile is free for it; background work there aborts without counting a stall. -/
def runConfirm (i : Nat) (s : State) : State :=
  match s.integ.confirms[i]? with
  | none => s
  | some c =>
    match c.left with
    | [] => s
    | r :: _ =>
      let t := r / 32
      let open_ : Bool := match (tget s.tiles t).kernel with | some k => decide (k.why = .background) | none => true
      if open_ then
        startKernel t { k := r % 32, why := .confirm } (onInteg (fun g => { g with confirms := g.confirms.set i { c with running := true } }) s)
      else onInteg (fun g => { g with confirms := g.confirms.set i { c with running := false } }) s

/-- A confirmation starts on a tile: the first that is due there (R443, R454). -/
def confirmationStartEffect (t : Nat) (s : State) : State :=
  match s.integ.confirms.findIdx? (fun c => !c.running && (match c.left with | r :: _ => r / 32 == t | [] => false)) with
  | some i => if (tget s.doms (quadOf t)).on && !s.bring.inReset then runConfirm i s else s
  | none => s

/-- CONFIRMATION_START. -/
def execConfirmationStart (tile : Nat) (s : State) : Host.Outcome State Fault Refusal := .next (confirmationStartEffect tile s)

/-- Units in kernel order. -/
def byKernel (l : List (Nat × Nat × Dword)) : List Nat :=
  ((List.range 32).flatMap (fun k => (l.filter (fun e => e.2.1 == k)).map Prod.fst)).eraseDups

/-- The first kernel that named a unit, and its output's CRC-32C. -/
def kernelNaming (l : List (Nat × Nat × Dword)) (u : Nat) : Nat × Dword := match l.find? (fun e => e.1 == u) with | some e => e.2 | none => (0, 0)

/-- The verdict when every kernel of a confirmation passes (Table 12.11). -/
def passVerdict (r : LRec) : Nat := if r.kind = kindDual then verPermanent else verData

/-- PERMANENT records of kind KAK for units of a confirmation (R627). -/
def kakRecords (l : List (Nat × Nat × Dword)) (injected : Bool) (us : List Nat) (s : State) : State :=
  us.foldl (fun t v => judge (kakRecord t verPermanent v (kernelNaming l v).1 false (kernelNaming l v).2) injected t) s

/-- The incident of a confirmation receives its verdict from the kernels that failed twice and the first that failed once (R627). -/
def judgeConfirm (c : Confirm) (twice : List (Nat × Nat × Dword)) (once : Option (Nat × Nat × Dword)) (s : State) : State :=
  match byKernel twice with
  | u :: us => kakRecords twice c.forced us (judge { c.incident with verdict := verPermanent, unit := u } c.forced s)
  | [] =>
    match once with
    | some o => judge { c.incident with verdict := verTransient, unit := o.1 } c.forced s
    | none => judge { c.incident with verdict := passVerdict c.incident } c.forced s

/-- A confirmation has run its last kernel.  What was injected and what was not are judged apart (R459): failures of kernels by themselves
decide of an incident that nobody injected, and injected ones of one that was; the others are incidents of their own. -/
def endConfirm (c : Confirm) (s : State) : State :=
  if c.forced then
    let s1 := kakRecords c.twice false (byKernel c.twice) (judgeConfirm c c.made none s)
    match c.once with
    | some o => if c.twice = [] then judge (kakRecord s1 verTransient o.1 o.2.1 false o.2.2) false s1 else s1
    | none => s1
  else kakRecords c.made true (byKernel c.made) (judgeConfirm c c.twice c.once s)

/-- What a kernel's run and its rerun gave: the CRC-32Cs of their outputs, and whether each failed by itself. -/
structure KernelEnd where
  first : Dword := 0
  last : Dword := 0
  bad1 : Bool := false
  bad2 : Bool := false

/-- It failed twice by itself. -/
def KernelEnd.twice (e : KernelEnd) : Bool := e.bad1 && e.bad2
/-- It failed once by itself. -/
def KernelEnd.once (e : KernelEnd) : Bool := e.bad1 != e.bad2
/-- The CRC-32C of the run that failed. -/
def KernelEnd.crc (e : KernelEnd) : Dword := if e.bad1 && !e.bad2 then e.first else e.last

/-- A confirmation with the outcome of its next kernel on a tile. -/
def Confirm.after (c : Confirm) (t : Nat) (k : KernelRun) (e : KernelEnd) : Confirm :=
  let r := (kernelUnit t k.k, k.k, e.crc)
  { c with
    left := c.left.tail
    twice := if e.twice then c.twice ++ [r] else c.twice
    once := if e.once then (match c.once with | some o => if k.k < o.2.1 then some r else some o | none => some r) else c.once
    made := if k.forced then c.made ++ [r] else c.made }

/-- A kernel of a confirmation has ended on a tile. -/
def confirmKernel (t : Nat) (k : KernelRun) (e : KernelEnd) (s : State) : State :=
  match s.integ.confirms.findIdx? (fun c => c.running && (match c.left with | r :: _ => r == 32 * t + k.k | [] => false)) with
  | none => s
  | some i =>
    match s.integ.confirms[i]? with
    | none => s
    | some c =>
      let d := c.after t k e
      if d.left = [] then endConfirm d (onInteg (fun g => { g with confirms := g.confirms.eraseIdx i }) s)
      else runConfirm i (onInteg (fun g => { g with confirms := g.confirms.set i d }) s)

/-! ### A kernel ends (R441) -/

/-- KAK_RUN's final status: the result of the kernel's first run, which took the cycles of Table 12.10. -/
def postKernel (tk : Nat) (pass : Bool) (crc : Dword) (k : Nat) (s : State) : State :=
  post tk stOk [dw (b2n pass), crc, dw (Config.kakExpected k).toNat, dw (kernelLength k)] s

/-- The verdicts of a kernel that is no confirmation's: one for its failures by itself, one for those that were injected (R441, R459). -/
def judgeKernel (t : Nat) (k : KernelRun) (e : KernelEnd) (s : State) : State :=
  let u := kernelUnit t k.k
  let s1 :=
    if e.twice then judge (kakRecord s verPermanent u k.k k.idle e.crc) false s
    else if e.once then judge (kakRecord s verTransient u k.k k.idle e.crc) false s
    else s
  if k.forced then judge (kakRecord s1 verPermanent u k.k k.idle e.last) true s1 else s1

/-- The kernel's runs are over: it leaves every slot EMPTY and every accumulator 0 (R439); its verdict, or its part in a confirmation. -/
def endKernel (t : Nat) (k : KernelRun) (e : KernelEnd) (s : State) : State :=
  let s1 := onTile t (fun x => { x.clean with kernel := none }) s
  match k.why with
  | .confirm => confirmKernel t k e s1
  | .command tk => postKernel tk (!(e.bad1 || k.forced)) e.first k.k (judgeKernel t k e s1)
  | .background => onTile t (fun x => { x with nextKernel := (k.k + 1) % 32 }) (judgeKernel t k e s1)

/-- A kernel's output CRC-32C is compared: a first failure runs it once more (R441); an injected fault fails both runs. -/
def kernelCompleteEffect (t : Nat) (crc : Dword) (s : State) : State :=
  match (tget s.tiles t).kernel with
  | none => s
  | some k =>
    let forced := if k.rerun then k.forced else armed s (unitId 0x01 t) 9
    let s0 := if !k.rerun && forced then takeInject (unitId 0x01 t) 9 s else s
    let own := crc != Config.kakExpected k.k
    let s1 := bump cntKakRun (unitId 0x01 t) s0
    let s2 := if forced || own then bump cntKakFail (unitId 0x01 t) s1 else s1
    let k1 := { k with forced := forced }
    if k.rerun then endKernel t k1 { first := k.firstCrc, last := crc, bad1 := k.firstReal, bad2 := own } s2
    else if forced || own then startKernel t { k1 with rerun := true, firstCrc := crc, firstReal := own } s2
    else endKernel t k1 { first := crc, last := crc } s2

/-- KERNEL_COMPLETE. -/
def execKernelComplete (tile : Nat) (crc : Dword) (s : State) : Host.Outcome State Fault Refusal :=
  .next (kernelCompleteEffect tile crc s)

/-! ### Ledger writes (R445) -/

/-- The record at the front of the queue is written and verified; a suspect drain that it begins with a deadline of 0 is at step 3. -/
def ledgerWriteEffect (verified : Bool) (cp ledger : EccFinding) (s : State) : State :=
  if s.bring.inReset then s
  else controlEcc (unitId 0x10 0) ledger (controlEcc (unitId 0x0D 0) cp (drainNow (writeRec verified s)))

/-- LEDGER_WRITE. -/
def execLedgerWrite (verified : Bool) (cp ledger : EccFinding) (s : State) : Host.Outcome State Fault Refusal :=
  .next (ledgerWriteEffect verified cp ledger s)

/-! ### Drains (R447, R448) -/

/-- The deadline of a drain passes; 0xFFFFFFFF sets none. -/
def drainDeadlineExpiryEffect (s : State) : State :=
  if s.integ.dstate = .draining ∧ s.integ.drainOver = false ∧ s.integ.deadline ≠ 0xFFFFFFFF ∧
    s.integ.drainStart + s.integ.deadline * 10 ^ 5 ≤ s.timebase then drainOver s else s

/-- DRAIN_DEADLINE_EXPIRY. -/
def execDrainDeadlineExpiry (s : State) : Host.Outcome State Fault Refusal := .next (drainDeadlineExpiryEffect s)

/-- A job runs or is queued. -/
def jobsLeft (s : State) : Bool :=
  !s.jobs.isEmpty || s.progs.any (fun e => e.2.running) || s.pel.any (fun e => !e.2.pushes.isEmpty) ||
  s.groups.any (fun e => match e.2.run with | some r => r.root | none => false)

/-- Step 4: DRAIN_START's final status, and after a suspect drain REPLACE and RETIRED; past the deadline, work that was being repeated and
is so no longer ends first (R42). -/
def drainCompleteEffect (s0 : State) : State :=
  if s0.integ.dstate ≠ .draining then s0
  else
    let s := if s0.integ.drainOver then endWork s0 else s0
    if jobsLeft s then s
    else
      let t := match s.integ.drainTk with
        | some k => post k stOk [] (onInteg (fun i => { i with drainTk := none }) s)
        | none => s
      if s.integ.drainSuspect then retire t else t

/-- DRAIN_COMPLETE. -/
def execDrainComplete (s : State) : Host.Outcome State Fault Refusal := .next (drainCompleteEffect s)

end Sys2Proof.Machine
end

