-- ==== Sys2Proof/Machine/MemEv.lean ====
section
/-! DEFINITION. Memory in time: the end of a window's zeroing, scrub, refresh and calibration (R204, R207, R208, R221, R422). -/

namespace Sys2Proof.Machine

/-- The on-chip extents of a window, as byte ranges. -/
def zeroedRanges (w : Window) : List (Nat × Nat) :=
  if w.shared || decide (2 ≤ w.region) then [] else w.ext.map (fun e => (e.1 * pageSize, e.2 * pageSize))

/-- A map completes: its new HBM and Loam pages hold zeros, the window is valid, and its final status is posted (R204). -/
def windowMapCompleteEffect (part win : Nat) (s : State) : State :=
  let w := tget s.windows (winKey part win)
  if !w.zeroing then s
  else
    let t := (zeroedRanges w).foldl (fun u r => zeroRange r.1 r.2 u) s
    post w.ticket stOk [dw w.resident, dw w.spilled]
      { t with windows := tset t.windows (winKey part win) { w with valid := true, zeroing := false, ticket := 0 } }

/-- WINDOW_MAP_COMPLETE. -/
def execWindowMapComplete (part window : Nat) (s : State) : Host.Outcome State Fault Refusal := .next (windowMapCompleteEffect part window s)

/-- The scrubber reaches a unit: HBM once S3 has ended, the Loam and the stores of powered quadrants once S2 has ended. -/
def scrubs (s : State) (unit a : Nat) : Bool :=
  !s.bring.inReset && memUnit a == unit &&
  (match levelOf a with
   | .hbm => s.bring.s3done
   | .loam => decide (3 ≤ s.bring.stage)
   | .tile t => (tget s.doms (quadOf t)).on
   | _ => false)

/-- What a scrub read finds: a sector of HBM that is already marked is not reported again (R221). -/
def scrubFinding (s : State) (a : Nat) (f : EccFinding) : EccFinding :=
  match f, levelOf a with
  | .uncorrectable ok, .hbm => if smem s.poison (a / 32) then .clean else .uncorrectable ok
  | g, _ => g

/-- A burst of the scrubber reads the word at `a` of a unit, with what its code finds; the last of a pass counts the pass (R208, R422). -/
def scrubBurstEffect (unit a : Nat) (found : EccFinding) (last : Bool) (s : State) : State :=
  if !scrubs s unit a then s
  else
    let s1 := surface (latentIn s a 1) s
    let s2 := eccAt a (scrubFinding s1 a found) false s1
    if last then bump cntScrubPass unit s2 else s2

/-- SCRUB_BURST. -/
def execScrubBurst (unit addr : Nat) (found : EccFinding) (last : Bool) (s : State) : Host.Outcome State Fault Refusal :=
  .next (scrubBurstEffect unit addr found last s)

/-- Refresh takes a stack's time and changes nothing that a command can read (R207). -/
def hbmRefreshEffect (_stack : Nat) (s : State) : State := s

/-- HBM_REFRESH. -/
def execHbmRefresh (stack : Nat) (s : State) : Host.Outcome State Fault Refusal := .next (hbmRefreshEffect stack s)

/-- Calibration takes a channel's time and changes nothing that a command can read (R207). -/
def hbmCalibrationEffect (_stack _channel : Nat) (s : State) : State := s

/-- HBM_CALIBRATION. -/
def execHbmCalibration (stack channel : Nat) (s : State) : Host.Outcome State Fault Refusal := .next (hbmCalibrationEffect stack channel s)

end Sys2Proof.Machine
end

