-- ==== Sys2Proof/Machine/PortEv.lean ====
section
/-! DEFINITION. The management port P2 over SMBus and I3C, and the test access port with P3's mailbox (R566 to R569, R577 to R581, R584). -/

namespace Sys2Proof.Machine

/-! ### Mailbox writes under the access codes of Table 09.12a -/

/-- One byte written into a mailbox: CMD and DATA take it, RETRY is cleared by writing 1, everything else ignores it. -/
def mbxPoke (m : Mbx) (off : Nat) (b : Byte) : Mbx :=
  if off < 0x040 ∨ (0x400 ≤ off ∧ off < 0x1400) then { m with cells := tset m.cells off b }
  else if off = 0x064 then { m with retry := m.retry && !b.getLsbD 2 }
  else m

/-- Bytes written from an offset. -/
def mbxPokes (m : Mbx) (off : Nat) : List Byte → Mbx
  | [] => m
  | b :: r => mbxPokes (mbxPoke m off b) (off + 1) r

/-- The bytes written include a 1 to GO. -/
def pokesGo (off : Nat) (data : List Byte) : Bool := decide (off ≤ 0x060) && (data.getD (0x060 - off) 0).getLsbD 0

/-- A whole write to a mailbox, which also submits CMD when GO is written or asked for (R325, R334, R566). -/
def mbxWrite (p off : Nat) (data : List Byte) (go : Bool) (s : State) : State :=
  let t := { s with mbx := tmod s.mbx p (fun m => mbxPokes m off data) }
  if go || pokesGo off data then writeGo p t else t

/-! ### P2 transfers (R564, R566, R577 to R579) -/

/-- The address that P2 answers. -/
def p2Address (s : State) : Nat := if s.p2.i3c then s.p2.dyn else 0x40 + s.bring.strapAddr

/-- A transfer reaches P2: it is sent to its address, and the pins are not taken (R577, R584). -/
def p2Heard (s : State) (x : P2Xfer) : Bool := !s.bring.inReset && !pinsTaken s && x.addr == p2Address s

/-- An offset and a length of mailbox bytes are ones that Table 16.5 allows. -/
def p2RangeOk (s : State) (off n : Nat) : Bool :=
  off % 4 == 0 && decide (off ≤ 0x13FC) && n % 4 == 0 && decide (4 ≤ n) && decide (n ≤ if s.p2.i3c then 256 else 252) && decide (off + n ≤ 0x1400)

/-- A transfer that R578 discards. -/
def p2Discard (s : State) : State := bump cntP2XferErr 0 s

/-- A write-kind transfer: not heard, discarded, refused by its PEC, or carried out whole (R578, R579). -/
def p2Take (x : P2Xfer) (good : Bool) (act : State → State) (s : State) : State :=
  if !p2Heard s x then s
  else if x.early || (s.p2.i3c && x.parityError) || !good then p2Discard s
  else if !s.p2.i3c && x.pec == some false then bump cntP2PecErr 0 s
  else act s

/-- WRITE. -/
def p2WriteEffect (x : P2Xfer) (off : Nat) (data : List Byte) (s : State) : State :=
  p2Take x (p2RangeOk s off data.length) (mbxWrite 2 off data false) s

/-- P2_WRITE. -/
def execP2Write (x : P2Xfer) (offset : Nat) (data : List Byte) (s : State) : Host.Outcome State Fault Refusal :=
  .next (p2WriteEffect x offset data s)

/-- WRITEGO: a WRITE that also acts as GO. -/
def p2WritegoEffect (x : P2Xfer) (off : Nat) (data : List Byte) (s : State) : State :=
  p2Take x (p2RangeOk s off data.length) (mbxWrite 2 off data true) s

/-- P2_WRITEGO. -/
def execP2Writego (x : P2Xfer) (offset : Nat) (data : List Byte) (s : State) : Host.Outcome State Fault Refusal :=
  .next (p2WritegoEffect x offset data s)

/-- The length that SETPTR's byte stands for: over I3C, 0 means 256. -/
def setptrLen (s : State) (len : Nat) : Nat := if s.p2.i3c && len == 0 then 256 else len

/-- SETPTR sets the read pointer and length. -/
def p2SetptrEffect (x : P2Xfer) (off len : Nat) (s : State) : State :=
  let n := setptrLen s len
  p2Take x (p2RangeOk s off n) (fun t => { t with p2 := { t.p2 with ptr := off, len := n } }) s

/-- P2_SETPTR. -/
def execP2Setptr (x : P2Xfer) (offset len : Nat) (s : State) : Host.Outcome State Fault Refusal := .next (p2SetptrEffect x offset len s)

/-- The Packet Error Code of SMBus over the bytes of a transfer: CRC-8 of polynomial x^8 + x^2 + x + 1 (R579, assumption 170). -/
def smbusPec (bs : List Byte) : Byte :=
  bs.foldl (fun c b => (List.range 8).foldl (fun (d : Byte) _ => (d <<< 1) ^^^ (if d.getLsbD 7 then 7 else 0)) (c ^^^ b)) 0

/-- What a READ returns of one snapshot: over I3C the L bytes, ended at the maximum read length; over SMBus the count byte, the L bytes,
and a PEC byte where the controller clocks one (R566, R578 to R580). -/
def p2Out (x : P2Xfer) (s : State) : List Byte :=
  if s.p2.i3c then mbxBytes s 2 s.p2.ptr (min s.p2.len s.p2.mrl)
  else
    let body := BitVec.ofNat 8 s.p2.len :: mbxBytes s 2 s.p2.ptr s.p2.len
    let sent := [BitVec.ofNat 8 (2 * x.addr), 0x03, BitVec.ofNat 8 (2 * x.addr + 1)]
    body ++ (if x.pec.isSome then [smbusPec (sent ++ body)] else [])

/-- READ. -/
def p2ReadEffect (x : P2Xfer) (s : State) : State :=
  if !p2Heard s x then s
  else if x.early then p2Discard s
  else { s with p2 := { s.p2 with out := p2Out x s } }

/-- P2_READ. -/
def execP2Read (x : P2Xfer) (s : State) : Host.Outcome State Fault Refusal := .next (p2ReadEffect x s)

/-- SCL held low over 30 ms: the transfer in progress has ended early (R579). -/
def smbusTimeoutEffect (s : State) : State := if s.bring.inReset || s.p2.i3c || pinsTaken s then s else p2Discard s

/-- SMBUS_TIMEOUT. -/
def execSmbusTimeout (s : State) : Host.Outcome State Fault Refusal := .next (smbusTimeoutEffect s)

/-! ### I3C common command codes (R567, R577, R580) -/

/-- P2 sees its bus. -/
def p2Awake (s : State) : Bool := !s.bring.inReset && !pinsTaken s

/-- P2 is an I3C target. -/
def p2I3c (s : State) : Bool := p2Awake s && s.p2.i3c

/-- P2 takes a dynamic address: I3C mode, which is a P2 port reset. -/
def toI3c (addr : Nat) (s : State) : State := portReset 2 { s with p2 := { s.p2 with i3c := true, dyn := addr } }

/-- An answer of P2's target. -/
def p2Answer (out : List Byte) (s : State) : State := if p2I3c s then { s with p2 := { s.p2 with out := out } } else s

/-- ENTDAA: a target without a dynamic address may receive one. -/
def entdaaEffect (addr : Option Nat) (s : State) : State :=
  match addr with
  | some a => if p2Awake s && !s.p2.i3c then toI3c a s else s
  | none => s

/-- ENTDAA. -/
def execEntdaa (addr : Option Nat) (s : State) : Host.Outcome State Fault Refusal := .next (entdaaEffect addr s)

/-- SETDASA sent to the static address. -/
def setdasaEffect (st addr : Nat) (s : State) : State :=
  if p2Awake s && !s.p2.i3c && st == 0x40 + s.bring.strapAddr then toI3c addr s else s

/-- SETDASA. -/
def execSetdasa (staticAddr addr : Nat) (s : State) : Host.Outcome State Fault Refusal := .next (setdasaEffect staticAddr addr s)

/-- RSTDAA: back to SMBus mode, which is a P2 port reset. -/
def rstdaaEffect (s : State) : State := if p2I3c s then portReset 2 { s with p2 := { s.p2 with i3c := false, dyn := 0 } } else s

/-- RSTDAA. -/
def execRstdaa (s : State) : Host.Outcome State Fault Refusal := .next (rstdaaEffect s)

/-- SETNEWDA. -/
def setnewdaEffect (addr : Nat) (s : State) : State := if p2I3c s then { s with p2 := { s.p2 with dyn := addr } } else s

/-- SETNEWDA. -/
def execSetnewda (addr : Nat) (s : State) : Host.Outcome State Fault Refusal := .next (setnewdaEffect addr s)

/-- The 48-bit provisional ID (R567). -/
def provisionalId (s : State) : Nat := 2 ^ 33 * 0x3A6C + 2 ^ 16 * 0x0520 + 2 ^ 12 * (s.bring.strapAddr % 16) + 0x0B0

/-- GETPID, in the byte order of Table 00.3 (assumption 105). -/
def getpidEffect (s : State) : State := p2Answer (leBytes 6 (provisionalId s)) s
/-- GETPID. -/
def execGetpid (s : State) : Host.Outcome State Fault Refusal := .next (getpidEffect s)

/-- GETBCR. -/
def getbcrEffect (s : State) : State := p2Answer [0x00] s
/-- GETBCR. -/
def execGetbcr (s : State) : Host.Outcome State Fault Refusal := .next (getbcrEffect s)

/-- GETDCR. -/
def getdcrEffect (s : State) : State := p2Answer [0x00] s
/-- GETDCR. -/
def execGetdcr (s : State) : Host.Outcome State Fault Refusal := .next (getdcrEffect s)

/-- GETSTATUS. -/
def i3cGetstatusEffect (s : State) : State := p2Answer [0x00, 0x00] s
/-- I3C_GETSTATUS. -/
def execI3cGetstatus (s : State) : Host.Outcome State Fault Refusal := .next (i3cGetstatusEffect s)

/-- GETMWL. -/
def getmwlEffect (s : State) : State := p2Answer (leBytes 2 s.p2.mwl) s
/-- GETMWL. -/
def execGetmwl (s : State) : Host.Outcome State Fault Refusal := .next (getmwlEffect s)

/-- GETMRL. -/
def getmrlEffect (s : State) : State := p2Answer (leBytes 2 s.p2.mrl) s
/-- GETMRL. -/
def execGetmrl (s : State) : Host.Outcome State Fault Refusal := .next (getmrlEffect s)

/-- SETMWL accepts 8 to 259. -/
def setmwlEffect (v : Nat) (s : State) : State := if p2I3c s && decide (8 ≤ v) && decide (v ≤ 259) then { s with p2 := { s.p2 with mwl := v } } else s
/-- SETMWL. -/
def execSetmwl (value : Nat) (s : State) : Host.Outcome State Fault Refusal := .next (setmwlEffect value s)

/-- SETMRL accepts 8 to 256. -/
def setmrlEffect (v : Nat) (s : State) : State := if p2I3c s && decide (8 ≤ v) && decide (v ≤ 256) then { s with p2 := { s.p2 with mrl := v } } else s
/-- SETMRL. -/
def execSetmrl (value : Nat) (s : State) : Host.Outcome State Fault Refusal := .next (setmrlEffect value s)

/-- ENEC is accepted and changes nothing (R580). -/
def enecEffect (s : State) : State := s
/-- ENEC. -/
def execEnec (s : State) : Host.Outcome State Fault Refusal := .next (enecEffect s)

/-- DISEC is accepted and changes nothing (R580). -/
def disecEffect (s : State) : State := s
/-- DISEC. -/
def execDisec (s : State) : Host.Outcome State Fault Refusal := .next (disecEffect s)

/-- RSTACT sets the action of the next target reset pattern. -/
def rstactEffect (action : Nat) (s : State) : State := if p2I3c s then { s with p2 := { s.p2 with rstact := some action } } else s
/-- RSTACT. -/
def execRstact (action : Nat) (s : State) : Host.Outcome State Fault Refusal := .next (rstactEffect action s)

/-- A target reset pattern: "reset peripheral" (code 1, and the default) and "reset whole target" (code 2) are P2 port resets (R580). -/
def targetResetPatternEffect (s : State) : State :=
  if p2I3c s && (s.p2.rstact == none || s.p2.rstact == some 1 || s.p2.rstact == some 2) then portReset 2 s else s
/-- TARGET_RESET_PATTERN. -/
def execTargetResetPattern (s : State) : Host.Outcome State Fault Refusal := .next (targetResetPatternEffect s)

/-! ### Test access port (R568, R569, R581, R584) -/

/-- Change the test access port. -/
def onTap (f : TapSt → TapSt) (s : State) : State := { s with tap := f s.tap }

/-- An instruction is selected. -/
def selectIr (ir : Nat) (s : State) : State := onTap (fun t => { t with ir := ir }) s

/-- EXTEST. -/
def extestEffect (s : State) : State := selectIr 0x00 s
/-- EXTEST. -/
def execExtest (s : State) : Host.Outcome State Fault Refusal := .next (extestEffect s)

/-- IDCODE, whose register captures 0xB05209AB. -/
def idcodeEffect (s : State) : State := onTap (fun t => { t with ir := 0x01, captured := 0xB05209AB }) s
/-- IDCODE. -/
def execIdcode (s : State) : Host.Outcome State Fault Refusal := .next (idcodeEffect s)

/-- SAMPLE/PRELOAD. -/
def samplePreloadEffect (s : State) : State := selectIr 0x02 s
/-- SAMPLE_PRELOAD. -/
def execSamplePreload (s : State) : Host.Outcome State Fault Refusal := .next (samplePreloadEffect s)

/-- CLAMP. -/
def clampEffect (s : State) : State := selectIr 0x03 s
/-- CLAMP. -/
def execClamp (s : State) : Host.Outcome State Fault Refusal := .next (clampEffect s)

/-- HIGHZ. -/
def highzEffect (s : State) : State := selectIr 0x04 s
/-- HIGHZ. -/
def execHighz (s : State) : Host.Outcome State Fault Refusal := .next (highzEffect s)

/-- MBOX. -/
def mboxEffect (s : State) : State := selectIr 0x20 s
/-- MBOX. -/
def execMbox (s : State) : Host.Outcome State Fault Refusal := .next (mboxEffect s)

/-- BYPASS. -/
def bypassEffect (s : State) : State := selectIr 0xFF s
/-- BYPASS. -/
def execBypass (s : State) : Host.Outcome State Fault Refusal := .next (bypassEffect s)

/-- A field of the MBOX register. -/
def mboxField (v : BitVec 46) (hi lo : Nat) : Nat := v.toNat / 2 ^ lo % 2 ^ (hi + 1 - lo)

/-- Update-DR of MBOX: REQ starts one access, unless one is in progress or the dword is above 1,279 (R569, R581). -/
def mboxUpdateDrEffect (v : BitVec 46) (s : State) : State :=
  let i := mboxField v 42 32
  if s.bring.inReset || s.tap.ir != 0x20 || mboxField v 45 45 == 0 then s
  else if s.tap.access.isSome || decide (1279 < i) then bump cntP3MboxErr 0 (onTap (fun t => { t with err := true }) s)
  else
    let w := mboxField v 43 43 == 1
    onTap (fun t => { t with
      access := some (i, if w then some (dw (mboxField v 31 0)) else none), didx := i, wrBit := w, err := false, done := false }) s

/-- MBOX_UPDATE_DR. -/
def execMboxUpdateDr (value : BitVec 46) (s : State) : Host.Outcome State Fault Refusal := .next (mboxUpdateDrEffect value s)

/-- What Capture-DR loads (Table 16.7). -/
def TapSt.capture (t : TapSt) : BitVec 46 :=
  BitVec.ofNat 46 (t.data.toNat + 2 ^ 32 * t.didx + 2 ^ 43 * b2n t.wrBit + 2 ^ 44 * b2n t.err + 2 ^ 45 * b2n t.done)

/-- Capture-DR of MBOX. -/
def mboxCaptureDrEffect (s : State) : State := if s.tap.ir = 0x20 then onTap (fun t => { t with captured := t.capture }) s else s

/-- MBOX_CAPTURE_DR. -/
def execMboxCaptureDr (s : State) : Host.Outcome State Fault Refusal := .next (mboxCaptureDrEffect s)

/-- The access itself: one dword read or written under the access codes of Table 09.12a. -/
def mboxAccess (i : Nat) (w : Option Dword) (s : State) : State :=
  match w with
  | some d => mbxWrite 3 (4 * i) (leBytes 4 d.toNat) false s
  | none => onTap (fun t => { t with data := dw (leNat (mbxBytes s 3 (4 * i) 4)) }) s

/-- An access completes; a P3 port reset that waited for it begins (R581). -/
def mboxAccessCompleteEffect (s : State) : State :=
  match s.tap.access with
  | none => s
  | some (i, w) =>
    let due := s.tap.resetDue
    let t := mboxAccess i w (onTap (fun t => { t with access := none, done := true, resetDue := false }) s)
    if due then portReset 3 t else t

/-- MBOX_ACCESS_COMPLETE. -/
def execMboxAccessComplete (s : State) : Host.Outcome State Fault Refusal := .next (mboxAccessCompleteEffect s)

/-- TRST_N, or Test-Logic-Reset: IDCODE is selected, and P3 is reset, after an access in progress (R568, R581). -/
def trstEffect (s : State) : State :=
  let t := selectIr 0x01 s
  if t.tap.access.isSome then onTap (fun a => { a with resetDue := true }) t else portReset 3 t

/-- TRST. -/
def execTrst (s : State) : Host.Outcome State Fault Refusal := .next (trstEffect s)

end Sys2Proof.Machine
end

