-- ==== Sys2Proof/Machine/Dispatch.lean ====
section
/-! DEFINITION. The command dispatch: one arm per constructor. -/

namespace Sys2Proof.Machine

/-- The effect of a command on everything but the queue. -/
def exec (i : Instr) (s : State) : Host.Outcome State Fault Refusal :=
  match i with
  | .nop c p => Sys2Proof.Machine.execNop c p s
  | .identify c p => Sys2Proof.Machine.execIdentify c p s
  | .getStatus c p => Sys2Proof.Machine.execGetStatus c p s
  | .getBringup c p => Sys2Proof.Machine.execGetBringup c p s
  | .clearAttn c p => Sys2Proof.Machine.execClearAttn c p s
  | .setThreshold c p => Sys2Proof.Machine.execSetThreshold c p s
  | .readCounters c p => Sys2Proof.Machine.execReadCounters c p s
  | .clearCounters c p => Sys2Proof.Machine.execClearCounters c p s
  | .partCreate c p => Sys2Proof.Machine.execPartCreate c p s
  | .partDestroy c p => Sys2Proof.Machine.execPartDestroy c p s
  | .partReset c p => Sys2Proof.Machine.execPartReset c p s
  | .partBindPort c p => Sys2Proof.Machine.execPartBindPort c p s
  | .partTiles c p => Sys2Proof.Machine.execPartTiles c p s
  | .partRead c p => Sys2Proof.Machine.execPartRead c p s
  | .qpCreate c p => Sys2Proof.Machine.execQpCreate c p s
  | .qpDelete c p => Sys2Proof.Machine.execQpDelete c p s
  | .privGrant c p => Sys2Proof.Machine.execPrivGrant c p s
  | .lockAcquire c p => Sys2Proof.Machine.execLockAcquire c p s
  | .lockRelease c p => Sys2Proof.Machine.execLockRelease c p s
  | .seqBegin c p => Sys2Proof.Machine.execSeqBegin c p s
  | .seqCommit c p => Sys2Proof.Machine.execSeqCommit c p s
  | .seqAbort c p => Sys2Proof.Machine.execSeqAbort c p s
  | .lockRead c p => Sys2Proof.Machine.execLockRead c p s
  | .poolCreate c p => Sys2Proof.Machine.execPoolCreate c p s
  | .poolDestroy c p => Sys2Proof.Machine.execPoolDestroy c p s
  | .bufAlloc c p => Sys2Proof.Machine.execBufAlloc c p s
  | .bufFree c p => Sys2Proof.Machine.execBufFree c p s
  | .poolRead c p => Sys2Proof.Machine.execPoolRead c p s
  | .windowMap c p => Sys2Proof.Machine.execWindowMap c p s
  | .windowUnmap c p => Sys2Proof.Machine.execWindowUnmap c p s
  | .windowRead c p => Sys2Proof.Machine.execWindowRead c p s
  | .hostSpillSet c p => Sys2Proof.Machine.execHostSpillSet c p s
  | .peerSpillSet c p => Sys2Proof.Machine.execPeerSpillSet c p s
  | .contextBase c p => Sys2Proof.Machine.execContextBase c p s
  | .memRead c p => Sys2Proof.Machine.execMemRead c p s
  | .memWrite c p => Sys2Proof.Machine.execMemWrite c p s
  | .codecSubmit c p => Sys2Proof.Machine.execCodecSubmit c p s
  | .tableLoad c p => Sys2Proof.Machine.execTableLoad c p s
  | .tableRelease c p => Sys2Proof.Machine.execTableRelease c p s
  | .streamConfig c p => Sys2Proof.Machine.execStreamConfig c p s
  | .streamReset c p => Sys2Proof.Machine.execStreamReset c p s
  | .streamRead c p => Sys2Proof.Machine.execStreamRead c p s
  | .streamFlush c p => Sys2Proof.Machine.execStreamFlush c p s
  | .programLoad c p => Sys2Proof.Machine.execProgramLoad c p s
  | .programRun c p => Sys2Proof.Machine.execProgramRun c p s
  | .programAbort c p => Sys2Proof.Machine.execProgramAbort c p s
  | .programUnload c p => Sys2Proof.Machine.execProgramUnload c p s
  | .getResult c p => Sys2Proof.Machine.execGetResult c p s
  | .ackResult c p => Sys2Proof.Machine.execAckResult c p s
  | .mcastReport c p => Sys2Proof.Machine.execMcastReport c p s
  | .linkConfig c p => Sys2Proof.Machine.execLinkConfig c p s
  | .linkTrain c p => Sys2Proof.Machine.execLinkTrain c p s
  | .linkDown c p => Sys2Proof.Machine.execLinkDown c p s
  | .linkStatus c p => Sys2Proof.Machine.execLinkStatus c p s
  | .linkRecal c p => Sys2Proof.Machine.execLinkRecal c p s
  | .channelBind c p => Sys2Proof.Machine.execChannelBind c p s
  | .channelRead c p => Sys2Proof.Machine.execChannelRead c p s
  | .mcGroupSet c p => Sys2Proof.Machine.execMcGroupSet c p s
  | .linkPush c p => Sys2Proof.Machine.execLinkPush c p s
  | .linkMcast c p => Sys2Proof.Machine.execLinkMcast c p s
  | .linkMcReport c p => Sys2Proof.Machine.execLinkMcReport c p s
  | .loopRead c p => Sys2Proof.Machine.execLoopRead c p s
  | .loopSetMode c p => Sys2Proof.Machine.execLoopSetMode c p s
  | .loopWriteCoef c p => Sys2Proof.Machine.execLoopWriteCoef c p s
  | .loopSetPoint c p => Sys2Proof.Machine.execLoopSetPoint c p s
  | .loopTrace c p => Sys2Proof.Machine.execLoopTrace c p s
  | .loopInject c p => Sys2Proof.Machine.execLoopInject c p s
  | .avsAccess c p => Sys2Proof.Machine.execAvsAccess c p s
  | .boardStatus c p => Sys2Proof.Machine.execBoardStatus c p s
  | .checkModeSet c p => Sys2Proof.Machine.execCheckModeSet c p s
  | .ledgerRead c p => Sys2Proof.Machine.execLedgerRead c p s
  | .signatureRead c p => Sys2Proof.Machine.execSignatureRead c p s
  | .kakRun c p => Sys2Proof.Machine.execKakRun c p s
  | .drainDeadline c p => Sys2Proof.Machine.execDrainDeadline c p s
  | .drainStart c p => Sys2Proof.Machine.execDrainStart c p s
  | .drainCancel c p => Sys2Proof.Machine.execDrainCancel c p s
  | .errInject c p => Sys2Proof.Machine.execErrInject c p s
  | .selftestConfig c p => Sys2Proof.Machine.execSelftestConfig c p s
  | .probeSet c p => Sys2Proof.Machine.execProbeSet c p s
  | .probeRead c p => Sys2Proof.Machine.execProbeRead c p s
  | .traceConfig c p => Sys2Proof.Machine.execTraceConfig c p s
  | .traceControl c p => Sys2Proof.Machine.execTraceControl c p s
  | .traceStatus c p => Sys2Proof.Machine.execTraceStatus c p s
  | .domainOff c p => Sys2Proof.Machine.execDomainOff c p s
  | .domainOn c p => Sys2Proof.Machine.execDomainOn c p s
  | .domainStatus c p => Sys2Proof.Machine.execDomainStatus c p s
  | .patchLoad c p => Sys2Proof.Machine.execPatchLoad c p s
  | .patchRemove c p => Sys2Proof.Machine.execPatchRemove c p s
  | .fwInfo c p => Sys2Proof.Machine.execFwInfo c p s
  | .debugChallenge c p => Sys2Proof.Machine.execDebugChallenge c p s
  | .debugUnlock c p => Sys2Proof.Machine.execDebugUnlock c p s
  | .debugLock c p => Sys2Proof.Machine.execDebugLock c p s
  | .qp0Enable fn en => Sys2Proof.Machine.execQp0Enable fn en s
  | .sqDoorbell fn qp value => Sys2Proof.Machine.execSqDoorbell fn qp value s
  | .cqDoorbell fn qp value => Sys2Proof.Machine.execCqDoorbell fn qp value s
  | .sqEntryFetch fn qp => Sys2Proof.Machine.execSqEntryFetch fn qp s
  | .bar2SegmentWrite fn seg dw value => Sys2Proof.Machine.execBar2SegmentWrite fn seg dw value s
  | .bar2Write fn offset data ep => Sys2Proof.Machine.execBar2Write fn offset data ep s
  | .bar2Read fn offset len => Sys2Proof.Machine.execBar2Read fn offset len s
  | .registerWrite fn offset size value ep => Sys2Proof.Machine.execRegisterWrite fn offset size value ep s
  | .mailboxGo port => Sys2Proof.Machine.execMailboxGo port s
  | .configRequest fn reg write => Sys2Proof.Machine.execConfigRequest fn reg write s
  | .powerStateChange fn d3 => Sys2Proof.Machine.execPowerStateChange fn d3 s
  | .busMasterDisable fn => Sys2Proof.Machine.execBusMasterDisable fn s
  | .functionLevelReset fn => Sys2Proof.Machine.execFunctionLevelReset fn s
  | .pcieLinkDown fn => Sys2Proof.Machine.execPcieLinkDown fn s
  | .hostCompletion tag cpl => Sys2Proof.Machine.execHostCompletion tag cpl s
  | .completionTimeout tag => Sys2Proof.Machine.execCompletionTimeout tag s
  | .portResetComplete port => Sys2Proof.Machine.execPortResetComplete port s
  | .p2Write x offset data => Sys2Proof.Machine.execP2Write x offset data s
  | .p2Setptr x offset len => Sys2Proof.Machine.execP2Setptr x offset len s
  | .p2Read x => Sys2Proof.Machine.execP2Read x s
  | .p2Writego x offset data => Sys2Proof.Machine.execP2Writego x offset data s
  | .smbusTimeout => Sys2Proof.Machine.execSmbusTimeout s
  | .entdaa addr => Sys2Proof.Machine.execEntdaa addr s
  | .setdasa staticAddr addr => Sys2Proof.Machine.execSetdasa staticAddr addr s
  | .rstdaa => Sys2Proof.Machine.execRstdaa s
  | .setnewda addr => Sys2Proof.Machine.execSetnewda addr s
  | .getpid => Sys2Proof.Machine.execGetpid s
  | .getbcr => Sys2Proof.Machine.execGetbcr s
  | .getdcr => Sys2Proof.Machine.execGetdcr s
  | .i3cGetstatus => Sys2Proof.Machine.execI3cGetstatus s
  | .getmwl => Sys2Proof.Machine.execGetmwl s
  | .getmrl => Sys2Proof.Machine.execGetmrl s
  | .setmwl value => Sys2Proof.Machine.execSetmwl value s
  | .setmrl value => Sys2Proof.Machine.execSetmrl value s
  | .enec => Sys2Proof.Machine.execEnec s
  | .disec => Sys2Proof.Machine.execDisec s
  | .rstact action => Sys2Proof.Machine.execRstact action s
  | .targetResetPattern => Sys2Proof.Machine.execTargetResetPattern s
  | .extest => Sys2Proof.Machine.execExtest s
  | .idcode => Sys2Proof.Machine.execIdcode s
  | .samplePreload => Sys2Proof.Machine.execSamplePreload s
  | .clamp => Sys2Proof.Machine.execClamp s
  | .highz => Sys2Proof.Machine.execHighz s
  | .mbox => Sys2Proof.Machine.execMbox s
  | .bypass => Sys2Proof.Machine.execBypass s
  | .mboxUpdateDr value => Sys2Proof.Machine.execMboxUpdateDr value s
  | .mboxCaptureDr => Sys2Proof.Machine.execMboxCaptureDr s
  | .mboxAccessComplete => Sys2Proof.Machine.execMboxAccessComplete s
  | .trst => Sys2Proof.Machine.execTrst s
  | .nonceExpiry => Sys2Proof.Machine.execNonceExpiry s
  | .pwrokDeassert => Sys2Proof.Machine.execPwrokDeassert s
  | .supplyDip nanoseconds => Sys2Proof.Machine.execSupplyDip nanoseconds s
  | .sysRst nanoseconds => Sys2Proof.Machine.execSysRst nanoseconds s
  | .perst nanoseconds => Sys2Proof.Machine.execPerst nanoseconds s
  | .resetRelease strapBif addr dbgoff => Sys2Proof.Machine.execResetRelease strapBif addr dbgoff s
  | .rootPllLock => Sys2Proof.Machine.execRootPllLock s
  | .pllLockLoss hbm => Sys2Proof.Machine.execPllLockLoss hbm s
  | .serdesPllLockLoss port => Sys2Proof.Machine.execSerdesPllLockLoss port s
  | .stageEnd avs => Sys2Proof.Machine.execStageEnd avs s
  | .s4Reached => Sys2Proof.Machine.execS4Reached s
  | .stageDeadline cause unit stacksFailed => Sys2Proof.Machine.execStageDeadline cause unit stacksFailed s
  | .bundleIssue tile found => Sys2Proof.Machine.execBundleIssue tile found s
  | .copy tile => Sys2Proof.Machine.execCopy tile s
  | .mcast tile => Sys2Proof.Machine.execMcast tile s
  | .expand tile => Sys2Proof.Machine.execExpand tile s
  | .mac tile found => Sys2Proof.Machine.execMac tile found s
  | .pack tile found => Sys2Proof.Machine.execPack tile found s
  | .moveComplete tile => Sys2Proof.Machine.execMoveComplete tile s
  | .blockConsumable tile act glitch => Sys2Proof.Machine.execBlockConsumable tile act glitch s
  | .blockRefetch tile act glitch => Sys2Proof.Machine.execBlockRefetch tile act glitch s
  | .rowResultWritten tile wrong => Sys2Proof.Machine.execRowResultWritten tile wrong s
  | .plausibilityDecision tile glitch => Sys2Proof.Machine.execPlausibilityDecision tile glitch s
  | .packOutputWritten tile found => Sys2Proof.Machine.execPackOutputWritten tile found s
  | .tokenArrival tile counter count => Sys2Proof.Machine.execTokenArrival tile counter count s
  | .watchdog tile => Sys2Proof.Machine.execWatchdog tile s
  | .programComplete slot => Sys2Proof.Machine.execProgramComplete slot s
  | .programLoadComplete ticket => Sys2Proof.Machine.execProgramLoadComplete ticket s
  | .contextAcquire unit stream found => Sys2Proof.Machine.execContextAcquire unit stream found s
  | .contextFill stream => Sys2Proof.Machine.execContextFill stream s
  | .contextBaseComplete => Sys2Proof.Machine.execContextBaseComplete s
  | .codecSliceStart engine => Sys2Proof.Machine.execCodecSliceStart engine s
  | .codecBlockDone engine glitch => Sys2Proof.Machine.execCodecBlockDone engine glitch s
  | .sizingPassDone engine => Sys2Proof.Machine.execSizingPassDone engine s
  | .codecJobEnd engine => Sys2Proof.Machine.execCodecJobEnd engine s
  | .windowMapComplete part window => Sys2Proof.Machine.execWindowMapComplete part window s
  | .scrubBurst unit addr found last => Sys2Proof.Machine.execScrubBurst unit addr found last s
  | .hbmRefresh stack => Sys2Proof.Machine.execHbmRefresh stack s
  | .hbmCalibration stack channel => Sys2Proof.Machine.execHbmCalibration stack channel s
  | .rd k d => Sys2Proof.Machine.execRd k d s
  | .wr k d => Sys2Proof.Machine.execWr k d s
  | .token k d => Sys2Proof.Machine.execToken k d s
  | .cfgRd k d => Sys2Proof.Machine.execCfgRd k d s
  | .cfgWr k d => Sys2Proof.Machine.execCfgWr k d s
  | .rdData k d => Sys2Proof.Machine.execRdData k d s
  | .wrAck k d => Sys2Proof.Machine.execWrAck k d s
  | .nack k d => Sys2Proof.Machine.execNack k d s
  | .mcReserve k d => Sys2Proof.Machine.execMcReserve k d s
  | .mcGrant k d => Sys2Proof.Machine.execMcGrant k d s
  | .mcData k d => Sys2Proof.Machine.execMcData k d s
  | .mcResult k d => Sys2Proof.Machine.execMcResult k d s
  | .mcAbort k d => Sys2Proof.Machine.execMcAbort k d s
  | .mcToken k d => Sys2Proof.Machine.execMcToken k d s
  | .mcastCommitDone tile => Sys2Proof.Machine.execMcastCommitDone tile s
  | .mcastLandingTimeout tile => Sys2Proof.Machine.execMcastLandingTimeout tile s
  | .requestTimeout router port tag => Sys2Proof.Machine.execRequestTimeout router port tag s
  | .fenceRetry router port tag => Sys2Proof.Machine.execFenceRetry router port tag s
  | .domainDrained domain => Sys2Proof.Machine.execDomainDrained domain s
  | .domainWake domain => Sys2Proof.Machine.execDomainWake domain s
  | .flitIdle port f d => Sys2Proof.Machine.execFlitIdle port f d s
  | .flitData port f d => Sys2Proof.Machine.execFlitData port f d s
  | .flitNak port f d => Sys2Proof.Machine.execFlitNak port f d s
  | .flitCtrl port f d => Sys2Proof.Machine.execFlitCtrl port f d s
  | .hello port => Sys2Proof.Machine.execHello port s
  | .helloAck port => Sys2Proof.Machine.execHelloAck port s
  | .sleepReq port => Sys2Proof.Machine.execSleepReq port s
  | .sleepAck port => Sys2Proof.Machine.execSleepAck port s
  | .sleepNak port => Sys2Proof.Machine.execSleepNak port s
  | .degrade port => Sys2Proof.Machine.execDegrade port s
  | .downNotice port => Sys2Proof.Machine.execDownNotice port s
  | .pelocRd port => Sys2Proof.Machine.execPelocRd port s
  | .pelocWr port => Sys2Proof.Machine.execPelocWr port s
  | .pelocToken port => Sys2Proof.Machine.execPelocToken port s
  | .blockPush port => Sys2Proof.Machine.execBlockPush port s
  | .pelocRdData port => Sys2Proof.Machine.execPelocRdData port s
  | .pelocAck port => Sys2Proof.Machine.execPelocAck port s
  | .pelocNack port => Sys2Proof.Machine.execPelocNack port s
  | .lmcReserve port => Sys2Proof.Machine.execLmcReserve port s
  | .lmcData port => Sys2Proof.Machine.execLmcData port s
  | .lmcAbort port => Sys2Proof.Machine.execLmcAbort port s
  | .lmcGrant port => Sys2Proof.Machine.execLmcGrant port s
  | .lmcResult port => Sys2Proof.Machine.execLmcResult port s
  | .lmcTimeout group => Sys2Proof.Machine.execLmcTimeout group s
  | .pelocTimeout port tag => Sys2Proof.Machine.execPelocTimeout port tag s
  | .replayTimer port => Sys2Proof.Machine.execReplayTimer port s
  | .frameLockLoss frames => Sys2Proof.Machine.execFrameLockLoss frames s
  | .laneFault port finding => Sys2Proof.Machine.execLaneFault port finding s
  | .widthSwitch point => Sys2Proof.Machine.execWidthSwitch point s
  | .trainingFrame port lane f => Sys2Proof.Machine.execTrainingFrame port lane f s
  | .trainingStepDeadline port => Sys2Proof.Machine.execTrainingStepDeadline port s
  | .peerWaitExpiry port => Sys2Proof.Machine.execPeerWaitExpiry port s
  | .sleepIdleTimer port => Sys2Proof.Machine.execSleepIdleTimer port s
  | .wake port => Sys2Proof.Machine.execWake port s
  | .wakeTimeout port => Sys2Proof.Machine.execWakeTimeout port s
  | .recalStep port => Sys2Proof.Machine.execRecalStep port s
  | .linkRecalComplete port => Sys2Proof.Machine.execLinkRecalComplete port s
  | .linkPushComplete port => Sys2Proof.Machine.execLinkPushComplete port s
  | .innerSample y => Sys2Proof.Machine.execInnerSample y s
  | .avsFrameDone bus ok value done => Sys2Proof.Machine.execAvsFrameDone bus ok value done s
  | .lateWriteDrop bus => Sys2Proof.Machine.execLateWriteDrop bus s
  | .periodMark slot => Sys2Proof.Machine.execPeriodMark slot s
  | .droopTrip loop => Sys2Proof.Machine.execDroopTrip loop s
  | .throttleRelease => Sys2Proof.Machine.execThrottleRelease s
  | .alertAccepted pwr asserted pulses => Sys2Proof.Machine.execAlertAccepted pwr asserted pulses s
  | .alertStuck pwr => Sys2Proof.Machine.execAlertStuck pwr s
  | .tachEdge n pulses => Sys2Proof.Machine.execTachEdge n pulses s
  | .tachStandstill n => Sys2Proof.Machine.execTachStandstill n s
  | .tachStuck n => Sys2Proof.Machine.execTachStuck n s
  | .fanPwmPeriod => Sys2Proof.Machine.execFanPwmPeriod s
  | .kernelStart tile kernel => Sys2Proof.Machine.execKernelStart tile kernel s
  | .confirmationStart tile => Sys2Proof.Machine.execConfirmationStart tile s
  | .kernelComplete tile crc => Sys2Proof.Machine.execKernelComplete tile crc s
  | .ledgerWrite verified cp ledger => Sys2Proof.Machine.execLedgerWrite verified cp ledger s
  | .drainDeadlineExpiry => Sys2Proof.Machine.execDrainDeadlineExpiry s
  | .drainComplete => Sys2Proof.Machine.execDrainComplete s
  | .partResetComplete part => Sys2Proof.Machine.execPartResetComplete part s
  | .partDestroyComplete part => Sys2Proof.Machine.execPartDestroyComplete part s
  | .owlGroupTimer found => Sys2Proof.Machine.execOwlGroupTimer found s
  | .timebaseBit31 => Sys2Proof.Machine.execTimebaseBit31 s
  | .traceStopComplete => Sys2Proof.Machine.execTraceStopComplete s
  | .patchLoadComplete poisoned => Sys2Proof.Machine.execPatchLoadComplete poisoned s
  | .patchRemoveComplete => Sys2Proof.Machine.execPatchRemoveComplete s
  | .frameLock frames => Sys2Proof.Machine.execFrameLock frames s
  | .pcieLinkUp fn => Sys2Proof.Machine.execPcieLinkUp fn s

end Sys2Proof.Machine
end

