-- ==== Sys2Proof/Machine/Tick.lean ====
section
/-! DEFINITION. What passes when no command waits. -/

namespace Sys2Proof.Machine

/-- The 48 root-clock cycles of a TCLK cycle pass under an applied stretch of `x` / 2^15: each ACLK cycle takes 4 + 4x of them in the
mean (R464; assumption 164). -/
def Aclk.advance (x : Int) (a : Aclk) : Aclk :=
  let r := a.rest + 48 * 2 ^ 15
  let n := 4 * (2 ^ 15 + x.toNat)
  { cycles := a.cycles + r / n, rest := r % n }

/-- One TCLK cycle with no command waiting: the timebase advances, and ACLK by as much as its stretch lets it (R464, R521,
assumption 2). -/
def tick (s : State) : State := { s with timebase := (s.timebase + 1) % 2 ^ 64, aclk := s.aclk.advance s.board.stretch }

end Sys2Proof.Machine
end

