-- ==== Sys2Proof/Safety.lean ====
section
/-! DEFINITION. The terms in which the statements speak: when a command is carried out, the shapes that commands' effects have, and
the invariants of the block. -/

namespace Sys2Proof.Safety

open Sys2Proof.Machine

/-- Checks 1 to 9 are passed and the command is the next of its carrier, whose turn it is (R312, R330, R331, R408): the packet stands
first among the carrier's unhandled commands, nothing of it is awaited, privilege, scope and partition permit it, its parameter block is
there, its partition is not being reset, and its reserved parameter bits are 0. -/
def reached (s : State) (op c : Nat) (p : Packet) (x : Cmd) : Bool :=
  decide (ready s op c p = some x) && gateStatus (turned c s) x == 0 && !needsBlock x && !pendDoomed (turned c s) x && paramsClear x

/-- A command acts now: it is reached, its own checks pass, and no open sequence stages it (R357). -/
def served (s : State) (op c : Nat) (p : Packet) (x : Cmd) (chk : State → Cmd → Verdict) : Bool :=
  reached s op c p x && (chk (turned c s) x).status == 0 && !staging (turned c s) x

/-- A command that acts and replies ST_OK. -/
def ActsAtOnce (op : Nat) (mk : Nat → Packet → Instr) (chk : State → Cmd → Verdict) (eff : Cmd → State → State) : Prop :=
  ∀ s c p x, served s op c p x chk = true → exec (mk c p) s = .next (finish x {} (eff x (turned c s)))

/-- A command that acts and replies with a status and result of its own. -/
def RepliesWith (op : Nat) (mk : Nat → Packet → Instr) (chk : State → Cmd → Verdict) (app : Cmd → State → Reply × State) : Prop :=
  ∀ s c p x, served s op c p x chk = true → exec (mk c p) s = .next (finish x (app x (turned c s)).1 (app x (turned c s)).2)

/-- A command that changes nothing and replies ST_OK with a result. -/
def Reports (op : Nat) (mk : Nat → Packet → Instr) (chk : State → Cmd → Verdict) (rep : State → Cmd → List Dword) : Prop :=
  ∀ s c p x, served s op c p x chk = true → exec (mk c p) s = .next (finish x { result := rep (turned c s) x } (turned c s))

/-- A command that starts pending work: it takes a result slot, replies ST_PENDING with the ticket, and the work begins. -/
def StartsWork (op : Nat) (mk : Nat → Packet → Instr) (chk : State → Cmd → Verdict) (start : Cmd → Nat → State → State) : Prop :=
  ∀ s c p x, served s op c p x chk = true → slotFree s x.port = true →
    let q := takeSlot x (!partScope x) (turned c s)
    exec (mk c p) s = .next (start x q.1 (finish x { status := stPending, result := [dw q.1] } q.2))

/-- A command that writes its output at the address in DWk and DWk+1 and replies ST_OK; where the field cannot hold it, the reply is the
field's status, and where the function cannot write it, ST_HOST_FAULT (R352). -/
def Outputs (k op : Nat) (mk : Nat → Packet → Instr) (chk : State → Cmd → Verdict) (out : State → Cmd → List Byte)
    (rep : State → Cmd → List Dword) : Prop :=
  ∀ s c p x, served s op c p x chk = true →
    let t := turned c s
    (xferStatus x k (out t x).length = 0 → outReady t x = true →
      exec (mk c p) s = .next (finish x { result := rep t x } (outWrite x k (out t x) t))) ∧
    (xferStatus x k (out t x).length ≠ 0 →
      exec (mk c p) s = .next (finish x { status := xferStatus x k (out t x).length } t)) ∧
    (xferStatus x k (out t x).length = 0 → outReady t x = false → exec (mk c p) s = .next (finish x { status := stHostFault } t))

/-- A command with an action of its own kind. -/
def Acts (op : Nat) (mk : Nat → Packet → Instr) (chk : State → Cmd → Verdict) (pre : State → Cmd → Bool) (act : Cmd → State → State) :
    Prop :=
  ∀ s c p x, served s op c p x chk = true → pre (turned c s) x = true → exec (mk c p) s = .next (act x (turned c s))

/-- A command that the hardware answers, at any time (R312). -/
def HardwareAnswers (op : Nat) (mk : Nat → Packet → Instr) (rep : State → Cmd → List Dword) : Prop :=
  ∀ s c p x, ready s op c p = some x → exec (mk c p) s = .next (finishQuiet x { result := rep s x } s)

/-- No check of a command's own. -/
def unchecked : State → Cmd → Verdict := fun _ _ => {}

/-- A packet of a type and virtual network, with a good header, arrives undamaged at an endpoint that exists (R244, R245). -/
def wholeAt (s : State) (typ vn : Nat) (k : NocPkt) (d : Damage) : Bool :=
  let a := (arrive k d s).1
  k.typ == typ && k.vn == vn && !badHeader k && a.came && decide (k.dest ≤ 99) && localPort k.dest k.dport && !a.real.header &&
  !a.forced.header && a.real.sectors.isEmpty && a.forced.sectors.isEmpty

/-- The state once a packet has crossed the network, observed on its way. -/
def landed (k : NocPkt) (d : Damage) (s : State) : State := (arrive k d s).2

/-- A packet as its endpoint takes it: each poisoned sector marked once (R259). -/
def asTaken (k : NocPkt) : NocPkt := { k with pois := k.pois.eraseDups }

/-- A multicast arrives undamaged at its one tile. -/
def wholeAtTile (s : State) (typ : Nat) (k : NocPkt) (d : Damage) (t : Nat) : Bool :=
  let a := (arrive k d s).1
  k.typ == typ && k.vn == 2 && !badHeader k && a.came && maskTiles k.mask == [t] && !a.real.header && !a.forced.header &&
  a.real.sectors.isEmpty && a.forced.sectors.isEmpty

/-- A multicast arrives undamaged at every tile of its mask (R237, R244, R245). -/
def wholeAtMask (s : State) (typ : Nat) (k : NocPkt) (d : Damage) : Bool :=
  let a := (arrive k d s).1
  k.typ == typ && k.vn == 2 && !badHeader k && a.came && !a.real.header && !a.forced.header && a.real.sectors.isEmpty &&
  a.forced.sectors.isEmpty

/-- The endpoint that a request has reached is a memory that serves it: behind no fence, a tile's store that the requester may use
(R243), or the home of the address on another local port. -/
def memoryAt (s : State) (k : NocPkt) : Bool :=
  (fenceBefore s k).isNone &&
  (match routerTile k.dest with
   | some t => tileCheck s t k == 0
   | none => !(k.dport == 2 && (routerPeloc k.dest).isSome) && placeOf k.addr == (k.dest, k.dport) && levelOf k.addr != .nothing)

/-- SEGERR of a BAR2 segment is set (R216). -/
def onSeg (k : Nat) (s : State) : State := { s with segs := tmod s.segs k (fun g => { g with segerr := true }) }

/-- Another owner identity holds the lock that a command names (R387). -/
def heldByOther (s : State) (x : Cmd) : Bool :=
  match tget s.locks x.lockNo with
  | .held o => o != x.carrier
  | _ => false

/-- A command that firmware answers (Table 10.3): its opcode, carrier and packet. -/
def asCommand : Instr → Option (Nat × Nat × Packet)
  | .nop c p => some (0x0000, c, p)
  | .clearAttn c p => some (0x0010, c, p)
  | .setThreshold c p => some (0x0011, c, p)
  | .readCounters c p => some (0x0012, c, p)
  | .clearCounters c p => some (0x0013, c, p)
  | .partCreate c p => some (0x0100, c, p)
  | .partDestroy c p => some (0x0101, c, p)
  | .partReset c p => some (0x0102, c, p)
  | .partBindPort c p => some (0x0103, c, p)
  | .partTiles c p => some (0x0104, c, p)
  | .partRead c p => some (0x0105, c, p)
  | .qpCreate c p => some (0x0108, c, p)
  | .qpDelete c p => some (0x0109, c, p)
  | .privGrant c p => some (0x010A, c, p)
  | .lockAcquire c p => some (0x0200, c, p)
  | .lockRelease c p => some (0x0201, c, p)
  | .seqBegin c p => some (0x0202, c, p)
  | .seqCommit c p => some (0x0203, c, p)
  | .seqAbort c p => some (0x0204, c, p)
  | .lockRead c p => some (0x0205, c, p)
  | .poolCreate c p => some (0x0300, c, p)
  | .poolDestroy c p => some (0x0301, c, p)
  | .bufAlloc c p => some (0x0302, c, p)
  | .bufFree c p => some (0x0303, c, p)
  | .poolRead c p => some (0x0304, c, p)
  | .windowMap c p => some (0x0400, c, p)
  | .windowUnmap c p => some (0x0401, c, p)
  | .windowRead c p => some (0x0402, c, p)
  | .hostSpillSet c p => some (0x0403, c, p)
  | .peerSpillSet c p => some (0x0404, c, p)
  | .contextBase c p => some (0x0405, c, p)
  | .memRead c p => some (0x0406, c, p)
  | .memWrite c p => some (0x0407, c, p)
  | .codecSubmit c p => some (0x0500, c, p)
  | .tableLoad c p => some (0x0501, c, p)
  | .tableRelease c p => some (0x0502, c, p)
  | .streamConfig c p => some (0x0503, c, p)
  | .streamReset c p => some (0x0504, c, p)
  | .streamRead c p => some (0x0505, c, p)
  | .streamFlush c p => some (0x0506, c, p)
  | .programLoad c p => some (0x0600, c, p)
  | .programRun c p => some (0x0601, c, p)
  | .programAbort c p => some (0x0602, c, p)
  | .programUnload c p => some (0x0603, c, p)
  | .getResult c p => some (0x0604, c, p)
  | .ackResult c p => some (0x0605, c, p)
  | .mcastReport c p => some (0x0606, c, p)
  | .linkConfig c p => some (0x0700, c, p)
  | .linkTrain c p => some (0x0701, c, p)
  | .linkDown c p => some (0x0702, c, p)
  | .linkStatus c p => some (0x0703, c, p)
  | .linkRecal c p => some (0x0704, c, p)
  | .channelBind c p => some (0x0705, c, p)
  | .channelRead c p => some (0x0706, c, p)
  | .mcGroupSet c p => some (0x0707, c, p)
  | .linkPush c p => some (0x0708, c, p)
  | .linkMcast c p => some (0x0709, c, p)
  | .linkMcReport c p => some (0x070A, c, p)
  | .loopRead c p => some (0x0800, c, p)
  | .loopSetMode c p => some (0x0801, c, p)
  | .loopWriteCoef c p => some (0x0802, c, p)
  | .loopSetPoint c p => some (0x0803, c, p)
  | .loopTrace c p => some (0x0804, c, p)
  | .loopInject c p => some (0x0805, c, p)
  | .avsAccess c p => some (0x0806, c, p)
  | .boardStatus c p => some (0x0807, c, p)
  | .checkModeSet c p => some (0x0900, c, p)
  | .ledgerRead c p => some (0x0901, c, p)
  | .signatureRead c p => some (0x0902, c, p)
  | .kakRun c p => some (0x0903, c, p)
  | .drainDeadline c p => some (0x0904, c, p)
  | .drainStart c p => some (0x0905, c, p)
  | .drainCancel c p => some (0x0906, c, p)
  | .errInject c p => some (0x0907, c, p)
  | .selftestConfig c p => some (0x0908, c, p)
  | .probeSet c p => some (0x0A00, c, p)
  | .probeRead c p => some (0x0A01, c, p)
  | .traceConfig c p => some (0x0A02, c, p)
  | .traceControl c p => some (0x0A03, c, p)
  | .traceStatus c p => some (0x0A04, c, p)
  | .domainOff c p => some (0x0B00, c, p)
  | .domainOn c p => some (0x0B01, c, p)
  | .domainStatus c p => some (0x0B02, c, p)
  | .patchLoad c p => some (0x0C00, c, p)
  | .patchRemove c p => some (0x0C01, c, p)
  | .fwInfo c p => some (0x0C02, c, p)
  | .debugChallenge c p => some (0x0C03, c, p)
  | .debugUnlock c p => some (0x0C04, c, p)
  | .debugLock c p => some (0x0C05, c, p)
  | _ => none

/-- The checks of its own that a command makes at check 10 (R330, R351). -/
def ownCheck (op : Nat) : State → Cmd → Verdict :=
  match op with
  | 0x0010 => clearAttnCheck
  | 0x0011 => setThresholdCheck
  | 0x0012 => readCountersCheck
  | 0x0013 => clearCountersCheck
  | 0x0100 => partCreateCheck
  | 0x0103 => partBindPortCheck
  | 0x0104 => partTilesCheck
  | 0x0108 => qpCreateCheck
  | 0x0109 => qpDeleteCheck
  | 0x010A => privGrantCheck
  | 0x0200 => lockAcquireCheck
  | 0x0201 => lockReleaseCheck
  | 0x0202 => seqBeginCheck
  | 0x0203 => seqCommitCheck
  | 0x0204 => seqAbortCheck
  | 0x0300 => poolCreateCheck
  | 0x0301 => poolDestroyCheck
  | 0x0302 => bufAllocCheck
  | 0x0303 => bufFreeCheck
  | 0x0304 => poolReadCheck
  | 0x0400 => windowMapCheck
  | 0x0401 => windowUnmapCheck
  | 0x0403 => hostSpillSetCheck
  | 0x0404 => peerSpillSetCheck
  | 0x0405 => contextBaseCheck
  | 0x0406 => memReadCheck
  | 0x0407 => memWriteCheck
  | 0x0500 => codecSubmitCheck
  | 0x0501 => tableLoadCheck
  | 0x0502 => tableReleaseCheck
  | 0x0503 => streamConfigCheck
  | 0x0504 => streamResetCheck
  | 0x0505 => streamReadCheck
  | 0x0506 => streamFlushCheck
  | 0x0601 => programRunCheck
  | 0x0602 => programAbortCheck
  | 0x0603 => programUnloadCheck
  | 0x0604 => resultCheck
  | 0x0605 => resultCheck
  | 0x0606 => mcastReportCheck
  | 0x0700 => linkConfigCheck
  | 0x0701 => linkTrainCheck
  | 0x0704 => linkRecalCheck
  | 0x0705 => channelBindCheck
  | 0x0706 => channelReadCheck
  | 0x0707 => mcGroupSetCheck
  | 0x0708 => linkPushCheck
  | 0x0709 => linkMcastCheck
  | 0x070A => linkMcReportCheck
  | 0x0801 => loopSetModeCheck
  | 0x0802 => loopWriteCoefCheck
  | 0x0803 => loopSetPointCheck
  | 0x0804 => loopTraceCheck
  | 0x0805 => loopInjectCheck
  | 0x0806 => avsAccessCheck
  | 0x0900 => checkModeSetCheck
  | 0x0901 => ledgerReadCheck
  | 0x0902 => signatureReadCheck
  | 0x0903 => kakRunCheck
  | 0x0905 => drainStartCheck
  | 0x0906 => drainCancelCheck
  | 0x0907 => errInjectCheck
  | 0x0A00 => probeSetCheck
  | 0x0A02 => traceConfigCheck
  | 0x0A03 => traceControlCheck
  | 0x0B00 => domainOffCheck
  | 0x0B01 => domainOnCheck
  | 0x0C00 => patchLoadCheck
  | 0x0C01 => patchRemoveCheck
  | 0x0C03 => onlyP3
  | 0x0C04 => onlyP3
  | 0x0C05 => onlyP3
  | _ => unchecked

/-- A command that starts pending work takes a result slot, or is refused where its port has none free (R332). -/
def TakesSlot (op : Nat) (mk : Nat → Packet → Instr) (chk : State → Cmd → Verdict) (start : Cmd → Nat → State → State) : Prop :=
  StartsWork op mk chk start ∧
  (∀ s c p x, served s op c p x chk = true → slotFree s x.port = false →
    exec (mk c p) s = .next (finish x { status := stResultFull } (turned c s)))

/-! ### Invariants -/

/-- Debug is never unlocked where the fuses or STRAP_DBGOFF forbid it, and P3 holds ADMIN only while debug is unlocked (R313,
R582, R583). -/
def DebugLocked (s : State) : Prop :=
  (s.fw.unlocked = true →
    Config.fuseDbgEn = true ∧ s.bring.dbgoff = false ∧ Config.fuseKeyRev.getLsbD Config.fuseDbgKey.toNat = false) ∧
  (isAdmin s 3 = true → s.fw.unlocked = true)

/-- The management port's registers and the test access port's instruction hold values that the spec gives them (R566, R568,
R580), and the timebase is a 64-bit count (R521). -/
def ManagementLegal (s : State) : Prop :=
  s.p2.ptr % 4 = 0 ∧ s.p2.len % 4 = 0 ∧ s.p2.ptr + s.p2.len ≤ 0x1400 ∧ 4 ≤ s.p2.len ∧ s.p2.len ≤ 256 ∧
  8 ≤ s.p2.mwl ∧ s.p2.mwl ≤ 259 ∧ 8 ≤ s.p2.mrl ∧ s.p2.mrl ≤ 256 ∧
  s.tap.ir ∈ [0x00, 0x01, 0x02, 0x03, 0x04, 0x20, 0xFF] ∧ s.timebase < 2 ^ 64

end Sys2Proof.Safety
end

