-- ==== Sys2Proof/Certificates/Slice0/Obligations.lean ====
section
/-! DEFINITION. The statements about the model, for the provers.  Each says what commands do where they are carried out: in words of
`Sys2Proof.Safety`, by the rules that its docstring cites.  In them `turned c s` is `s` once the command processor has turned to carrier
`c` (R312). -/

open Sys2Proof Sys2Proof.Machine Sys2Proof.Safety

/-! ### The block's step -/

/-- A step with a command in front runs exactly that command, on the state with the queue's rest; with none waiting, one TCLK cycle
passes: the timebase counts one, and ACLK as many cycles as its stretch leaves of 48 root-clock cycles (the model's choices, assumptions
2 and 164). -/
def Obligations.StepRunsFront : Prop :=
  (∀ (c : Instr) (rest : List Instr) (s : State), step { s with pending := c :: rest } = exec c { s with pending := rest }) ∧
  (∀ s : State, s.pending = [] → step s = .next { s with
    timebase := (s.timebase + 1) % 2 ^ 64
    aclk := { cycles := s.aclk.cycles + (s.aclk.rest + 48 * 2 ^ 15) / (4 * (2 ^ 15 + s.board.stretch.toNat))
              rest := (s.aclk.rest + 48 * 2 ^ 15) % (4 * (2 ^ 15 + s.board.stretch.toNat)) } })

/-! ### Group 0x00 (Table 10.4) -/

/-- Group 0x00.  NOP has no effect but its reply; the three hardware-answered commands reply with Table 10.4's results and change
nothing; CLEAR_ATTN clears what it may of the issuing view and replies with the bits that stayed and ESEQ (R323, R338); SET_THRESHOLD
sets the threshold (R360); READ_COUNTERS reads up to six values inline and more by address; CLEAR_COUNTERS clears the counters named. -/
def Obligations.BringupCommands : Prop :=
  ActsAtOnce 0x0000 .nop unchecked (fun _ s => s) ∧
  HardwareAnswers 0x0001 .identify identifyResult ∧
  HardwareAnswers 0x0002 .getStatus getStatusResult ∧
  HardwareAnswers 0x0003 .getBringup getBringupResult ∧
  RepliesWith 0x0010 .clearAttn clearAttnCheck (fun x s =>
    let mask := x.fld 4 15 0
    let v := viewOf s x.carrier
    let w : View := { v with bits := tmap (fun b (a : AttnBit) =>
      if mask.testBit b && !condHolds s b && !later a.last (x.par 5).toNat then { a with isSet := false } else a) v.bits }
    ({ result := [dw (w.summary &&& mask), dw (tget s.ports x.port).eseq] }, setView x.carrier w s)) ∧
  ActsAtOnce 0x0011 .setThreshold setThresholdCheck (fun x s =>
    let t : Threshold :=
      if bit (x.par 4) 8 then { en := true, cid := x.fld 5 15 0, inst := x.fld 5 31 16, value := (x.par 6).toNat } else {}
    let v := viewOf s x.carrier
    let s1 := setView x.carrier { v with thr := tset v.thr (x.fld 4 4 0) t } s
    if bit (x.par 4) 8 = true ∧ t.value ≤ counter s t.cid t.inst then raiseView x.carrier s1 else s1) ∧
  Acts 0x0012 .readCounters readCountersCheck (fun _ x => decide (x.fld 4 23 16 + 1 ≤ 6))
    (fun x s => finish x { result := (instances (x.fld 5 15 0) (x.fld 4 23 16 + 1)).map (fun i => dw (counter s (x.fld 4 15 0) i)) } s) ∧
  Acts 0x0012 .readCounters readCountersCheck
    (fun s x => decide (6 < x.fld 4 23 16 + 1) && xferStatus x 6 (4 * (x.fld 4 23 16 + 1)) == 0 && outReady s x)
    (fun x s => finish x { result := [dw (x.fld 4 23 16 + 1)] } (outWrite x 6
      (dwBytes ((instances (x.fld 5 15 0) (x.fld 4 23 16 + 1)).map (fun i => dw (counter s (x.fld 4 15 0) i)))) s)) ∧
  ActsAtOnce 0x0013 .clearCounters clearCountersCheck (fun x s => clearCounters (x.fld 4 15 0) (x.fld 5 15 0) s)

/-! ### Group 0x01 (Tables 10.5, 11.7 and 11.8) -/

/-- Group 0x01.  PART_CREATE makes an ACTIVE partition with its stream range and its counters at 0 (R392); PART_DESTROY and PART_RESET
begin their work; PART_BIND_PORT sets or clears the binding of port 1 or 3; PART_TILES removes and adds tiles (R394); PART_READ reports;
QP_CREATE and QP_DELETE make and remove a queue pair of the issuing port (R328); PRIV_GRANT sets or clears a port's ADMIN (R313). -/
def Obligations.PartitionCommands : Prop :=
  ActsAtOnce 0x0100 .partCreate partCreateCheck (fun x s =>
    { clearCounts x.part s with parts := tset s.parts x.part { state := .active, sbase := x.fld 4 15 0, scount := x.fld 5 16 0 } }) ∧
  StartsWork 0x0101 .partDestroy unchecked partDestroyStart ∧
  StartsWork 0x0102 .partReset unchecked partResetStart ∧
  ActsAtOnce 0x0103 .partBindPort partBindPortCheck (fun x s =>
    { s with parts := tmod s.parts x.part (fun q =>
        if x.fld 4 1 0 = 1 then { q with bind1 := bit (x.par 4) 8 } else { q with bind3 := bit (x.par 4) 8 }) }) ∧
  ActsAtOnce 0x0104 .partTiles partTilesCheck (fun x s =>
    let gone := (maskTiles x.removes).foldl (fun u t => onTile t (fun y => { y with owner := none }) (abortKernel t u)) s
    ((maskTiles x.adds).filter (fun t => !ownsTile s x.part t)).foldl (fun u t => addTile x.part t u) gone) ∧
  Outputs 4 0x0105 .partRead unchecked partReadOut (fun _ _ => []) ∧
  ActsAtOnce 0x0108 .qpCreate qpCreateCheck (fun x s =>
    { s with qps := tset s.qps x.qp (startQp
        { bound := if bit (x.par 4) 8 then some x.part else none, sqbase := x.par64 5, cqbase := x.par64 7, sqlog := x.fld 9 3 0
          cqlog := x.fld 9 11 8, view := newView s x.port, epoch := (tget s.qps x.qp).epoch }) }) ∧
  ActsAtOnce 0x0109 .qpDelete qpDeleteCheck (fun x s => dropQp x.qp s) ∧
  ActsAtOnce 0x010A .privGrant privGrantCheck (fun x s =>
    { s with ports := tmod s.ports (x.fld 4 1 0) (fun o => { o with admin := bit (x.par 4) 8 }) })

/-! ### Group 0x02 (Table 10.6) -/

/-- Locks and sequences: a lock that no other owner holds is held by its caller afterwards, and the reply says whether it was broken
(R396); a held lock is released unless the caller's sequence is open on it (R401); a sequence opens on a lock that the caller holds
(R399), is committed (R400), or is aborted, which discards what it staged (R401); LOCK_READ reports a lock. -/
def Obligations.LockCommands : Prop :=
  RepliesWith 0x0200 .lockAcquire
    (fun s x => firstOf [(heldByOther s x, stLockHeld)])
    (fun x s =>
      ({ status := if tget s.locks x.lockNo = .broken then stOkWasBroken else stOk },
        if tget s.locks x.lockNo = .held x.carrier then s else { s with locks := tset s.locks x.lockNo (.held x.carrier) })) ∧
  ActsAtOnce 0x0201 .lockRelease
    (fun s x => firstOf [(decide (tget s.locks x.lockNo ≠ .held x.carrier), stLockNotHeld),
      (decide ((tget s.seqs x.carrier).lock = some x.lockNo), stStateBusy)])
    (fun x s => { s with locks := tset s.locks x.lockNo .free }) ∧
  ActsAtOnce 0x0202 .seqBegin
    (fun s x => firstOf [(decide (tget s.locks x.lockNo ≠ .held x.carrier), stLockNotHeld),
      ((tget s.seqs x.carrier).lock.isSome, stStateBusy)])
    (fun x s => { s with seqs := tset s.seqs x.carrier { lock := some x.lockNo } }) ∧
  RepliesWith 0x0203 .seqCommit (fun s x => firstOf [(decide ((tget s.seqs x.carrier).lock ≠ some x.lockNo), stSequenceNotOpen)])
    seqCommitApply ∧
  ActsAtOnce 0x0204 .seqAbort (fun s x => firstOf [(decide ((tget s.seqs x.carrier).lock ≠ some x.lockNo), stSequenceNotOpen)])
    (fun x s => { s with seqs := tset s.seqs x.carrier {} }) ∧
  Reports 0x0205 .lockRead unchecked lockReadResult

/-! ### Group 0x03 (Table 10.7) -/

/-- Buffer pools.  POOL_CREATE gives the pool to the partition, every buffer FREE with GEN 0 (R402); POOL_DESTROY leaves no pool;
BUF_ALLOC takes the lowest FREE buffer of the primary extent with its GEN advanced, else the lowest FREE one of the spill extent, which
counts and raises ATTN_SPILL, and replies ST_POOL_EMPTY where none is FREE (R211, R214, R403); BUF_FREE makes the buffer FREE and keeps
its GEN (R405); POOL_READ reports the pool and how many of its buffers are FREE and allocated. -/
def Obligations.PoolCommands : Prop :=
  ActsAtOnce 0x0300 .poolCreate poolCreateCheck (fun x s =>
    { s with pools := tset s.pools x.poolNo (
        { owner := some x.part, spillable := bit (x.par 4) 4, bufsize := (x.par 5).toNat, pbase := x.par64 6, pcount := x.fld 8 19 0
          sbase := x.par64 9, scount := x.fld 11 19 0, bufs := [] } : Pool) }) ∧
  ActsAtOnce 0x0301 .poolDestroy poolDestroyCheck (fun x s => { s with pools := tset s.pools x.poolNo { owner := none } }) ∧
  (∀ s c p x k i b, served s 0x0302 c p x bufAllocCheck = true → tget s.pools x.poolNo = k → i < k.pcount →
    (∀ j, j < i → (tget k.bufs j).allocated = true) → tget k.bufs i = b → b.allocated = false →
    exec (.bufAlloc c p) s = .next (finish x
      { result := [dw (i + 2 ^ 20 * ((b.gen + 1) % 4096)), dw (k.pbase + i * k.bufsize), dw ((k.pbase + i * k.bufsize) / 2 ^ 32)] }
      { turned c s with pools := (tset s.pools x.poolNo
          { k with bufs := tset k.bufs i { allocated := true, gen := (b.gen + 1) % 4096, owner := .ident x.carrier } }) })) ∧
  (∀ s c p x k i b, served s 0x0302 c p x bufAllocCheck = true → tget s.pools x.poolNo = k → i < k.scount →
    (∀ j, j < k.pcount + i → (tget k.bufs j).allocated = true) → tget k.bufs (k.pcount + i) = b → b.allocated = false →
    exec (.bufAlloc c p) s = .next (finish x
      { result := [dw (k.pcount + i + 2 ^ 20 * ((b.gen + 1) % 4096)), dw (k.sbase + i * k.bufsize), dw ((k.sbase + i * k.bufsize) / 2 ^ 32)] }
      (raise attnSpill (.parts [x.part]) (bump cntPoolSpill x.part { turned c s with pools := (tset s.pools x.poolNo
          { k with bufs := tset k.bufs (k.pcount + i) { allocated := true, gen := (b.gen + 1) % 4096, owner := .ident x.carrier } }) })))) ∧
  (∀ s c p x k, reached s 0x0302 c p x = true → tget s.pools x.poolNo = k → k.owner = some x.part →
    (∀ j, j < k.pcount + k.scount → (tget k.bufs j).allocated = true) →
    exec (.bufAlloc c p) s = .next (finish x { status := stPoolEmpty } (turned c s))) ∧
  ActsAtOnce 0x0303 .bufFree bufFreeCheck (fun x s =>
    { s with pools := tmod s.pools x.poolNo (fun p =>
        { p with bufs := tmod p.bufs (x.fld 5 19 0) (fun b => { allocated := false, gen := b.gen }) }) }) ∧
  (∀ s c p x k o, served s 0x0304 c p x poolReadCheck = true → tget s.pools x.poolNo = k → k.owner = some o →
    exec (.poolRead c p) s = .next (finish x
      { result := [dw (1 + 2 * b2n k.spillable + 4 * o), dw k.bufsize, dw (k.pcount - k.allocated 0 k.pcount),
          dw (k.scount - k.allocated k.pcount (k.pcount + k.scount)), dw (k.allocated 0 (k.pcount + k.scount))] } (turned c s))) ∧
  (∀ s c p x, served s 0x0304 c p x poolReadCheck = true → (tget s.pools x.poolNo).owner = none →
    exec (.poolRead c p) s = .next (finish x {} (turned c s)))

/-! ### Group 0x04 (Table 10.8) -/

/-- Group 0x04.  WINDOW_MAP puts the window in place, being zeroed (R204), and WINDOW_UNMAP takes it away (R218); WINDOW_READ reports it
(R195); HOST_SPILL_SET and PEER_SPILL_SET name a region or none (R212, R213); CONTEXT_BASE sets the table's base and begins to clear it
(R112); MEM_READ gives the bytes of device memory and the sectors that came poisoned, and MEM_WRITE writes IN's bytes, from the mailbox
at once or once a host-memory read has brought them (R352, R365); a request of theirs that is turned away or gets no response gives the
reply its status. -/
def Obligations.MemoryCommands : Prop :=
  StartsWork 0x0400 .windowMap windowMapCheck (fun x ticket s =>
    { s with windows := tset s.windows (winKey x.part (x.fld 4 3 0)) (mapWindow s (mapArgs x) ticket) }) ∧
  ActsAtOnce 0x0401 .windowUnmap windowUnmapCheck (fun x s =>
    forgetPages { s with windows := tset s.windows (winKey x.part (x.fld 4 3 0)) {} }) ∧
  Outputs 5 0x0402 .windowRead unchecked (fun s x => dwBytes (tget s.windows (winKey x.part (x.fld 4 3 0))).dws) (fun _ _ => []) ∧
  ActsAtOnce 0x0403 .hostSpillSet hostSpillSetCheck (fun x s =>
    { s with hostSpill := if x.fld 7 19 0 = 0 then none
        else some { fn := x.fld 4 0 0, base := x.par64 5, first := 0, count := x.fld 7 19 0 } }) ∧
  ActsAtOnce 0x0404 .peerSpillSet peerSpillSetCheck (fun x s =>
    let r : SpillRange := if x.fld 6 19 0 = 0 then {} else { first := x.fld 5 18 0, count := x.fld 6 19 0 }
    { s with peerSpill := tset s.peerSpill (x.fld 4 3 0) r }) ∧
  StartsWork 0x0405 .contextBase contextBaseCheck (fun x ticket s =>
    { s with cm := { s.cm with base := some (x.par64 4), clearing := some ticket } }) ∧
  (∀ s c p x g, served s 0x0406 c p x memReadCheck = true → xferStatus x 7 (x.fld 6 12 0) = 0 →
    g = sysRead viaProc (x.par64 4) (x.fld 6 12 0) (turned c s) → g.reply.status = 0 → xferStatus x 7 g.bytes.length = 0 →
    outReady g.s x = true →
    exec (.memRead c p) s = .next (finish x { result := sectorDws (g.bad.map (· / 2)).eraseDups } (outWrite x 7 g.bytes g.s))) ∧
  (∀ s c p x g, served s 0x0406 c p x memReadCheck = true → xferStatus x 7 (x.fld 6 12 0) = 0 →
    g = sysRead viaProc (x.par64 4) (x.fld 6 12 0) (turned c s) → g.reply.status ≠ 0 →
    exec (.memRead c p) s = .next (finish x g.reply g.s)) ∧
  (∀ s c p x, served s 0x0407 c p x memWriteCheck = true → isQp x.carrier = false →
    let g := sysWrite viaProc (x.par64 4) (mbxBytes s x.port (0x400 + x.fld 7 11 0) (x.fld 6 12 0)) (turned c s)
    exec (.memWrite c p) s = .next (finish x g.reply g.s)) ∧
  (∀ s c p x, served s 0x0407 c p x memWriteCheck = true → isQp x.carrier = true → canMaster s x.port = true →
    exec (.memWrite c p) s = .next (park x (hostRead x.port (x.par64 7) (x.fld 6 12 0) (.input x.id) (turned c s)))) ∧
  (∀ s c p x, served s 0x0407 c p x memWriteCheck = true → isQp x.carrier = true → canMaster s x.port = false →
    exec (.memWrite c p) s = .next (finish x { status := stHostFault } (turned c s)))

/-! ### Group 0x05 (Table 10.9) -/

/-- Group 0x05.  CODEC_SUBMIT puts its job at the end of the queue (R120); TABLE_LOAD puts the slot's table in place with the next
generation, 1 after 255, and TABLE_RELEASE empties the slot and keeps its generation (R66, R118); STREAM_CONFIG sets the context up from
its parameters with the generation of its table, and STREAM_RESET leaves it zero (R117); STREAM_READ gives the context, which is read
through the cache, and a poisoned one ends it with ST_POISON_CONSUMED (R113, Table 12.8); STREAM_FLUSH of a context that it may not use
replies R108's status, of one that a unit holds or waits for it waits in the context's queue, unless the partition is being reset or
destroyed (R408), and of any other it forms the pending block at once (R108, R134). -/
def Obligations.CodecCommands : Prop :=
  StartsWork 0x0500 .codecSubmit codecSubmitCheck (fun x ticket s =>
    { s with jobs := s.jobs ++ [{ part := x.part, desc := (List.range 12).map (fun i => x.par (4 + i)), ticket := some ticket, id := s.nextId }]
             nextId := s.nextId + 1 }) ∧
  RepliesWith 0x0501 .tableLoad tableLoadCheck (fun x s =>
    let g := (tget s.sslots x.slotNo).gen % 255 + 1
    ({ result := [dw g] }, setSlot x.slotNo
      { owner := if bit (x.par 4) 8 then .global else .part x.part, gen := g, lens := (slotImage x.image).getD [] } s)) ∧
  ActsAtOnce 0x0502 .tableRelease tableReleaseCheck (fun x s =>
    setSlot x.slotNo { owner := .free, gen := (tget s.sslots x.slotNo).gen, lens := [] } s) ∧
  ActsAtOnce 0x0503 .streamConfig streamConfigCheck (fun x s =>
    let k := configCtx x
    let g := if k.tsel = 1 then 0 else ((slotTable s x.part k.tslot).map Prod.fst).getD 0
    let t := rewriteCtx x.stream { k with tgen := g } (fillCtx x.stream s)
    { t with cm := { t.cm with configured := true, pendElems := tdel t.cm.pendElems x.stream } }) ∧
  ActsAtOnce 0x0504 .streamReset streamResetCheck (fun x s =>
    let t := rewriteCtx x.stream {} (fillCtx x.stream s)
    { t with cm := { t.cm with pendElems := tdel t.cm.pendElems x.stream } }) ∧
  (∀ s c p x t k, served s 0x0505 c p x streamReadCheck = true → xferStatus x 5 64 = 0 →
    t = readCtx x.stream stOk none (fillCtx x.stream (turned c s)) → tget t.ctxs x.stream = k → k.pfill = false → outReady t x = true →
    exec (.streamRead c p) s = .next (finish x {} (outWrite x 5 (dwBytes k.dws) t))) ∧
  (∀ s c p x t, served s 0x0505 c p x streamReadCheck = true → xferStatus x 5 64 = 0 →
    t = readCtx x.stream stOk none (fillCtx x.stream (turned c s)) → (tget t.ctxs x.stream).pfill = true →
    exec (.streamRead c p) s = .next (finish x { status := stPoisonConsumed } (ctxPoisoned x x.stream t))) ∧
  (∀ s c p x t, served s 0x0506 c p x streamFlushCheck = true →
    t = readCtx x.stream stOk none (fillCtx x.stream (turned c s)) → (tget t.ctxs x.stream).useStatus x.part true = 0 →
    (tget t.ctxs x.stream).held = false → hasWaiters t x.stream = false →
    exec (.streamFlush c p) s = .next (finish x
      { status := (flushCtx x.stream t).1.status, result := (flushCtx x.stream t).1.result } (flushCtx x.stream t).2)) ∧
  (∀ s c p x t, served s 0x0506 c p x streamFlushCheck = true →
    t = readCtx x.stream stOk none (fillCtx x.stream (turned c s)) → (tget t.ctxs x.stream).useStatus x.part true = 0 →
    (tget t.ctxs x.stream).held = true ∨ hasWaiters t x.stream = true → slotFree t x.port = true → partEnding t x.part = false →
    let q := takeSlot x (!partScope x) t
    exec (.streamFlush c p) s = .next (queueFlush x.stream q.1 (finish x { status := stPending, result := [dw q.1] } q.2))) ∧
  (∀ s c p x t, served s 0x0506 c p x streamFlushCheck = true →
    t = readCtx x.stream stOk none (fillCtx x.stream (turned c s)) → (tget t.ctxs x.stream).useStatus x.part true = 0 →
    (tget t.ctxs x.stream).held = true ∨ hasWaiters t x.stream = true → slotFree t x.port = true → partEnding t x.part = true →
    let q := takeSlot x (!partScope x) t
    exec (.streamFlush c p) s = .next (post q.1 stPartitionReset [] (finish x { status := stPending, result := [dw q.1] } q.2))) ∧
  (∀ s c p x t, served s 0x0506 c p x streamFlushCheck = true →
    t = readCtx x.stream stOk none (fillCtx x.stream (turned c s)) → (tget t.ctxs x.stream).useStatus x.part true ≠ 0 →
    exec (.streamFlush c p) s = .next (finish x { status := (tget t.ctxs x.stream).useStatus x.part true }
      (if (tget t.ctxs x.stream).useStatus x.part true = stPoisonConsumed then ctxPoisoned x x.stream t else t)))

/-! ### Group 0x06 (Table 10.10) -/

/-- Group 0x06.  PROGRAM_LOAD queues its load (R164); PROGRAM_RUN starts the run on every tile (R166), and waits while a kernel or a
confirmation is due on one of its tiles (R443); PROGRAM_ABORT ends the run with ST_ABORTED (R184); PROGRAM_UNLOAD empties the slot and its
tiles, with the slot's generation advanced (R165, R354); GET_RESULT replies the posted status and result, or ST_PENDING, and marks it
read; ACK_RESULT frees the slot, or replies ST_PENDING (R335); MCAST_REPORT gives the partition's multicast report (R234). -/
def Obligations.ProgramCommands : Prop :=
  StartsWork 0x0600 .programLoad unchecked (fun x ticket s =>
    { s with loads := s.loads ++ [{ ticket := ticket, part := x.part, addr := x.par64 4, len := (x.par 6).toNat }] }) ∧
  (∀ s c p x, served s 0x0601 c p x programRunCheck = true → slotFree s x.port = true →
    loadWaits s (maskTiles (tget s.progs x.progSlot).tilemask) = false →
    let q := takeSlot x (!partScope x) (turned c s)
    exec (.programRun c p) s = .next (startRun x.progSlot q.1 (finish x { status := stPending, result := [dw q.1] } q.2))) ∧
  (∀ s c p x, served s 0x0601 c p x programRunCheck = true → loadWaits s (maskTiles (tget s.progs x.progSlot).tilemask) = true →
    exec (.programRun c p) s = .next (stall x (turned c s))) ∧
  ActsAtOnce 0x0602 .programAbort programAbortCheck (fun x s => endRun x.progSlot { status := stAborted } s) ∧
  ActsAtOnce 0x0603 .programUnload programUnloadCheck (fun x s =>
    (maskTiles (tget s.progs x.progSlot).tilemask).foldl (fun u t => onTile t Tile.unload u)
      { s with progs := tset s.progs x.progSlot { gen := ((tget s.progs x.progSlot).gen + 1) % 1024 } }) ∧
  (∀ s c p x r st, served s 0x0604 c p x resultCheck = true → slotNamed s x = some r → r.final = some st →
    exec (.getResult c p) s = .next (finish x { status := st, result := r.result, reread := r.reread }
      { turned c s with slots := tset s.slots (tkSlot x.ticket) { r with reread := true } })) ∧
  (∀ s c p x r, served s 0x0604 c p x resultCheck = true → slotNamed s x = some r → r.final = none →
    exec (.getResult c p) s = .next (finish x { status := stPending } (turned c s))) ∧
  (∀ s c p x r, served s 0x0605 c p x resultCheck = true → slotNamed s x = some r → r.final.isSome = true →
    exec (.ackResult c p) s = .next (finish x {}
      { turned c s with slots := tset s.slots (tkSlot x.ticket) { gen := (r.gen + 1) % 4096 } })) ∧
  (∀ s c p x r, served s 0x0605 c p x resultCheck = true → slotNamed s x = some r → r.final = none →
    exec (.ackResult c p) s = .next (finish x { status := stPending } (turned c s))) ∧
  Outputs 4 0x0606 .mcastReport unchecked (fun s x => dwBytes (tget s.parts x.part).report.dws) (fun _ _ => [])

/-! ### Group 0x07 (Table 10.11) -/

/-- Group 0x07.  LINK_CONFIG sets the port's configuration (R275); LINK_TRAIN begins step T0 under it (R282); LINK_DOWN brings the port
down unless it is DOWN or OFF (R302); LINK_STATUS reports (R276); LINK_RECAL begins (R300); CHANNEL_BIND and MC_GROUP_SET set their
entries (R265, R277) and CHANNEL_READ reports one (R274); LINK_PUSH queues a push of its bytes and sends what it may (R293); LINK_MCAST
sends LMC_RESERVE on each child port and goes on where there is none (R296); LINK_MC_REPORT gives the group's report (R278). -/
def Obligations.LinkCommands : Prop :=
  ActsAtOnce 0x0700 .linkConfig linkConfigCheck (fun x s => onPel x.pport (fun q => { q with cfg := (
    { wmin := bit (x.par 5) 0, degauto := bit (x.par 5) 1, recal := bit (x.par 5) 2, tolink := x.fld 6 11 0, sleepidle := x.fld 7 15 0
      symlim := x.fld 7 31 16 } : LinkCfg) }) s) ∧
  StartsWork 0x0701 .linkTrain linkTrainCheck (fun x ticket s => onPel x.pport (fun q => { q.cleared with
    st := .training, reason := downCommand, live := q.cfg, wait := x.fld 5 13 0, trainTk := some ticket, lanes := [], peer := []
    txWidth := 0, rxWidth := 0, reversed := false }) s) ∧
  ActsAtOnce 0x0702 .linkDown unchecked (fun x s =>
    if (tget s.pel x.pport).st = .down ∨ (tget s.pel x.pport).st = .off then s
    else trainFail x.pport stLinkTrainFailed downCommand true s) ∧
  Outputs 5 0x0703 .linkStatus unchecked linkStatusOut (fun _ _ => []) ∧
  StartsWork 0x0704 .linkRecal linkRecalCheck (fun x ticket s => onPel x.pport (fun q => { q with recalTks := q.recalTks ++ [ticket] }) s) ∧
  ActsAtOnce 0x0705 .channelBind channelBindCheck (fun x s => { s with chans := (tset s.chans x.chan
    (if bit (x.par 5) 0 then
      { valid := true, owner := x.part, outen := bit (x.par 5) 7, inen := bit (x.par 5) 8, intile := bit (x.par 5) 9
        tokenok := bit (x.par 5) 10, mcok := bit (x.par 5) 11, inwin := x.fld 6 15 0 }
    else {})) }) ∧
  Reports 0x0706 .channelRead channelReadCheck (fun s x => (tget s.chans x.chan).dws) ∧
  ActsAtOnce 0x0707 .mcGroupSet mcGroupSetCheck (fun x s =>
    let old := tget s.groups x.group
    { s with groups := tset s.groups x.group (if bit (x.par 5) 0 then
        { groupOf x with repExpected := old.repExpected, repDelivered := old.repDelivered, repTotal := old.repTotal, report := old.report }
      else {}) }) ∧
  StartsWork 0x0708 .linkPush linkPushCheck (fun x ticket s =>
    pumpPushes (x.chan / 16) (takeId (onPel (x.chan / 16) (fun y => { y with pushes := y.pushes ++
      [{ id := s.nextId, ticket := ticket, part := x.part, lch := x.chan % 16, src := x.par64 5, left := (x.par 7).toNat, dst := x.par64 8 }] })
      s))) ∧
  StartsWork 0x0709 .linkMcast linkMcastCheck (fun x ticket s =>
    let g := tget s.groups x.group
    lmcProceed x.group (g.children.foldl (fun u p => sendTx p { ttype := ttReserve, lch := g.lch, rtile := x.group, nmask := x.fld 7 12 0 } u)
      (onGroup x.group (fun h => { h with run := (
        some { root := true, ticket := ticket, src := x.par64 5, total := x.fld 7 12 0 }) }) s))) ∧
  Outputs 5 0x070A .linkMcReport linkMcReportCheck linkMcReportOut (fun _ _ => [])

/-! ### Group 0x08 (Table 10.12) -/

/-- Group 0x08.  LOOP_READ reports a loop; a mode change to the present mode is answered at once and any other waits for the sample
boundary (R479); a coefficient write waits for the sample boundary (R481); a set-point stands at once (R482); LOOP_TRACE begins a trace and
LOOP_INJECT an injection with the sequence that it reads first (R499, R500); an AVSBus access waits for a window on its bus (R498);
BOARD_STATUS reports (R370). -/
def Obligations.KestrelCommands : Prop :=
  Reports 0x0800 .loopRead unchecked loopReadRep ∧
  (∀ s c p x, served s 0x0801 c p x loopSetModeCheck = true → (tget s.loops (x.fld 4 2 0)).mode = modeOf (x.fld 4 6 4) →
    exec (.loopSetMode c p) s = .next (finish x {} (turned c s))) ∧
  (∀ s c p x, served s 0x0801 c p x loopSetModeCheck = true → (tget s.loops (x.fld 4 2 0)).mode ≠ modeOf (x.fld 4 6 4) →
    exec (.loopSetMode c p) s = .next { park x (turned c s) with loops := tmod s.loops (x.fld 4 2 0) (fun l =>
      { l with pendMode := l.pendMode ++ [(modeOf (x.fld 4 6 4), x)] }) }) ∧
  ActsAtOnce 0x0802 .loopWriteCoef loopWriteCoefCheck (fun x s =>
    { s with loops := tmod s.loops (x.fld 4 2 0) (fun l =>
        { l with pendCoef := l.pendCoef ++ [(x.fld 4 23 8, coefValues x)] }) }) ∧
  ActsAtOnce 0x0803 .loopSetPoint loopSetPointCheck (fun x s =>
    { s with loops := tmod s.loops (x.fld 4 2 0) (fun l =>
        { l with sp := signed 16 (x.fld 5 15 0), lo := signed 16 (x.fld 6 15 0), hi := signed 16 (x.fld 6 31 16) }) }) ∧
  StartsWork 0x0804 .loopTrace loopTraceCheck (fun x ticket s =>
    { s with loops := tmod s.loops (x.fld 4 2 0) (fun l => { l with trace := (some
        { ticket := ticket, addr := x.par64 5, samples := x.fld 7 23 0, base := x.par64 5, bytes := traceBytes (x.fld 4 2 0) (x.fld 7 23 0) }) }) }) ∧
  StartsWork 0x0805 .loopInject loopInjectCheck (fun x ticket s =>
    let k := x.fld 7 23 0
    let q := sysRead viaKestrel (x.par64 5) (2 * k) s
    { q.s with loops := tmod q.s.loops (x.fld 4 2 0) (fun l => { l with trace := (some
        { ticket := ticket, addr := x.par64 5 + recordsAt k, samples := k, inject := some (x.fld 8 1 0, sequenceOf q.bytes), base := x.par64 5
          bytes := injectBytes (x.fld 4 2 0) k }) }) }) ∧
  Acts 0x0806 .avsAccess avsAccessCheck (fun _ _ => true) (fun x s =>
    { park x s with avs := tmod s.avs (x.fld 4 2 0) (fun b =>
        { b with queue := b.queue ++ [(x.fld 4 5 4, x.fld 5 15 0, x)] }) }) ∧
  Reports 0x0807 .boardStatus unchecked boardStatusRep

/-! ### Group 0x09 (Table 10.13) -/

/-- Group 0x09.  CHECK_MODE_SET sets the partition's mode and sampling (R435); LEDGER_READ gives records, how many are used and the newest
(R371); SIGNATURE_READ gives the signature record of a slot and its length (R450); KAK_RUN starts the kernel on its tile in place of
background work (R441); DRAIN_DEADLINE sets the deadline, and of 0 a drain in progress ends its work at once; DRAIN_START begins an
operator drain; DRAIN_CANCEL goes back to RUNNING and answers the DRAIN_START that waits with ST_ABORTED (R447, R448); ERR_INJECT arms its
incidents (R451); SELFTEST_CONFIG sets its fields (R440). -/
def Obligations.IntegrityCommands : Prop :=
  ActsAtOnce 0x0900 .checkModeSet checkModeSetCheck (fun x s =>
    { s with parts := tmod s.parts x.part (fun p => { p with mode := checkModeOf (x.fld 4 1 0), log2n := x.fld 4 6 4 }) }) ∧
  Outputs 6 0x0901 .ledgerRead ledgerReadCheck
    (fun s x => (List.range (x.fld 5 6 0 + 1)).flatMap (fun i => (tget s.ledger.recs (x.fld 4 11 0 + i)).bytes s))
    (fun s _ => [dw s.ledger.recs.length, dw (s.ledger.order.getLast?.getD 0)]) ∧
  Acts 0x0902 .signatureRead signatureReadCheck
    (fun s x => xferStatus x 5 4096 == 0 && outReady s x)
    (fun x s => finish x { result := [dw (signatureOut s x).length] } (outWrite x 5 (signatureOut s x) s)) ∧
  StartsWork 0x0903 .kakRun kakRunCheck (fun x ticket s =>
    onTile (x.fld 4 13 8) (fun y => { y with kernel := some { k := x.fld 4 4 0, why := .command ticket } }) (abortKernel (x.fld 4 13 8) s)) ∧
  ActsAtOnce 0x0904 .drainDeadline unchecked (fun x s =>
    let t := { s with integ := { s.integ with deadline := (x.par 4).toNat } }
    if s.integ.dstate = .draining ∧ s.integ.drainOver = false ∧ (x.par 4).toNat = 0 then drainOver t else t) ∧
  StartsWork 0x0905 .drainStart drainStartCheck (fun x ticket s =>
    let t := beginDrain false 0 none (x.fld 4 7 0) s
    drainNow { t with integ := { t.integ with drainTk := some ticket } }) ∧
  (∀ s c p x k, served s 0x0906 c p x drainCancelCheck = true → s.integ.drainTk = some k →
    exec (.drainCancel c p) s = .next (finish x {} (post k stAborted []
      { turned c s with integ := { s.integ with dstate := .running, drainTk := none, drainOver := false } }))) ∧
  (∀ s c p x, served s 0x0906 c p x drainCancelCheck = true → s.integ.drainTk = none →
    exec (.drainCancel c p) s = .next (finish x {}
      { turned c s with integ := { s.integ with dstate := .running, drainTk := none, drainOver := false } })) ∧
  ActsAtOnce 0x0907 .errInject errInjectCheck (fun x s =>
    { s with integ := { s.integ with inject := s.integ.inject ++ [(x.fld 4 15 0, x.fld 4 19 16, x.fld 5 7 0)] } }) ∧
  ActsAtOnce 0x0908 .selftestConfig unchecked (fun x s =>
    { s with integ := { s.integ with selfEn := bit (x.par 4) 0, selfMask := (x.par 5).toNat } })

/-! ### Groups 0x0A to 0x0C (Tables 10.14 to 10.16) -/

/-- Probes and the trace: PROBE_SET sets a probe with COUNT 0 at once, unless its router is fenced (R511, R528); PROBE_READ reports one
(R520); TRACE_CONFIG sets the buffer (R515); TRACE_CONTROL stops the trace (R527), starts it (R523), or writes a MARK record of the
command's time and tag; TRACE_STATUS reports (R524). -/
def Obligations.OwlCommands : Prop :=
  ActsAtOnce 0x0A00 .probeSet (fun _ x => if portPresent (x.fld 4 14 8) (x.fld 4 18 16) then {} else no stParamRange) (fun x s =>
    let q : Probe :=
      { router := x.fld 4 14 8, rport := x.fld 4 18 16, mode := x.fld 4 21 20, count := 0
        pmatch := BitVec.ofNat 64 (x.par64 5), mask := BitVec.ofNat 64 (x.par64 7) }
    if routerFenced s q.router then { s with owl := { s.owl with waiting := tset s.owl.waiting (x.fld 4 3 0) (some q) } }
    else { s with owl := { s.owl with
      waiting := tset s.owl.waiting (x.fld 4 3 0) none, probes := tset s.owl.probes (x.fld 4 3 0) q } }) ∧
  Reports 0x0A01 .probeRead unchecked (fun s x =>
    let q := tget s.owl.probes (x.fld 4 3 0)
    [dw q.count, dw (q.count / 2 ^ 32), dw (b2n (routerFenced s q.router) + 2 * q.mode)]) ∧
  ActsAtOnce 0x0A02 .traceConfig traceConfigCheck (fun x s =>
    { s with owl := { s.owl with base := some (x.par64 4), size := (x.par 6).toNat, wrap := bit (x.par 7) 0 } }) ∧
  ActsAtOnce 0x0A03 .traceControl traceControlCheck (fun x s =>
    if x.fld 4 1 0 = 0 then traceStop s
    else if x.fld 4 1 0 = 1 then traceStart s
    else owlRecord ([dw (0x4 + 2 ^ 8 * x.port + 2 ^ 10 * (x.carrier % 64)), dw x.time] ++ timeDws x.time ++ [dw x.pkt.tag, 0, 0, 0]) s) ∧
  Reports 0x0A04 .traceStatus unchecked (fun s _ =>
    [dw s.owl.off, dw (b2n s.owl.running + 2 * b2n s.owl.wrapped + 4 * b2n s.owl.full), dw (min s.owl.lost 0xFFFFFFFF)])

/-- Power domains: DOMAIN_OFF raises the fence with its HINT and waits for the drain (R253); DOMAIN_ON of a domain that is on changes
nothing, of another it waits for the wake; DOMAIN_STATUS reports the domains that are on and those that are fenced (R373). -/
def Obligations.DomainCommands : Prop :=
  StartsWork 0x0B00 .domainOff domainOffCheck (fun x tk s =>
    { s with doms := tmod s.doms (x.fld 4 4 0) (fun m =>
        { m with fenced := true, hint := x.fld 5 15 0, since := s.timebase, offTk := some tk }) }) ∧
  (∀ s c p x, served s 0x0B01 c p x domainOnCheck = true → (tget s.doms (x.fld 4 4 0)).on = true →
    exec (.domainOn c p) s = .next (finish x {} (turned c s))) ∧
  (∀ s c p x, served s 0x0B01 c p x domainOnCheck = true → (tget s.doms (x.fld 4 4 0)).on = false → slotFree s x.port = true →
    let q := takeSlot x (!partScope x) (turned c s)
    exec (.domainOn c p) s = .next (onDom (x.fld 4 4 0) (fun m => { m with onTks := m.onTks ++ [q.1] })
      (finish x { status := stPending, result := [dw q.1] } q.2))) ∧
  Reports 0x0B02 .domainStatus unchecked (fun s _ =>
    [dw (maskOf 4 (fun q => (tget s.doms q).on)), dw (maskOf 16 (fun p => (tget s.doms (0x10 + p)).on)),
     dw (maskOf 4 (fun q => (tget s.doms q).fenced) + 2 ^ 16 * maskOf 16 (fun p => (tget s.doms (0x10 + p)).fenced))])

/-- Firmware patches and debug unlock: a patch is loaded or removed once every earlier firmware command has replied, and waits until then
(R349, R552, R553); FW_INFO reports (R374); a fresh nonce replaces the old one, with its time; a DEBUG_UNLOCK consumes the nonce, and one
that verifies makes P3 ADMIN and one that does not counts (R583); DEBUG_LOCK undoes it and discards the injections that wait (R374, R384). -/
def Obligations.FirmwareCommands : Prop :=
  (∀ s c p x, served s 0x0C00 c p x patchLoadCheck = true → olderWaits s x = false → slotFree s x.port = true →
    let q := takeSlot x (!partScope x) (turned c s)
    exec (.patchLoad c p) s = .next (onFw (fun f => { f with loadTk := some q.1, loadAddr := x.par64 4, loadLen := (x.par 6).toNat })
      (finish x { status := stPending, result := [dw q.1] } q.2))) ∧
  (∀ s c p x, served s 0x0C00 c p x patchLoadCheck = true → olderWaits s x = true →
    exec (.patchLoad c p) s = .next (stall x (turned c s))) ∧
  (∀ s c p x, served s 0x0C01 c p x patchRemoveCheck = true → olderWaits s x = false → slotFree s x.port = true →
    let q := takeSlot x (!partScope x) (turned c s)
    exec (.patchRemove c p) s = .next (onFw (fun f => { f with removeTk := some q.1 })
      (finish x { status := stPending, result := [dw q.1] } q.2))) ∧
  (∀ s c p x, served s 0x0C01 c p x patchRemoveCheck = true → olderWaits s x = true →
    exec (.patchRemove c p) s = .next (stall x (turned c s))) ∧
  Reports 0x0C02 .fwInfo unchecked fwInfoRep ∧
  RepliesWith 0x0C03 .debugChallenge onlyP3 (fun _ s =>
    ({ result := bytesDw (freshNonce s) },
      { s with freeCtr := s.freeCtr + 2, fw := { s.fw with nonce := some (freshNonce s), nonceTime := s.timebase } })) ∧
  (∀ s c p x, served s 0x0C04 c p x onlyP3 = true → unlockOk s x = true →
    exec (.debugUnlock c p) s = .next (finish x {} { turned c s with
      fw := { s.fw with nonce := none, unlocked := true }, ports := tmod s.ports 3 (fun o => { o with admin := true }) })) ∧
  (∀ s c p x, served s 0x0C04 c p x onlyP3 = true → unlockOk s x = false →
    exec (.debugUnlock c p) s = .next (finish x { status := stDebugLocked }
      (bump cntDebugFail 0 { turned c s with fw := { s.fw with nonce := none, fails := s.fw.fails + 1 } }))) ∧
  ActsAtOnce 0x0C05 .debugLock onlyP3 (fun _ s =>
    { s with
      ports := tmod s.ports 3 (fun o => { o with admin := false }), fw := { s.fw with unlocked := false }
      integ := { s.integ with inject := [] } })

/-! ### The host interface (chapters 06, 09 and 16) -/

/-- Host writes to a function's registers.  QP0's EN set starts QP0 afresh, and waits while RDY is still 1; EN cleared breaks QP0's locks,
and RDY falls once nothing of it is in progress (R326, R328).  SQTAIL and CQHEAD hold what is written; of a queue pair that is RDY, a value
outside the ring stops it with CAUSE 3, and a CQHEAD frees the entries that it passes (R327).  An aligned dword at a register's offset acts
as that register's own write, an offset without a register ignores it, another size or place is Unsupported Request (R324).  A BAR2
segment's two dwords are set, and SEGERR is cleared by a 1 (R199, R216).  While BARs are not served, each is Unsupported Request (R575). -/
def Obligations.HostRegisters : Prop :=
  (∀ s fn, fnUp s fn = true → barOpen s fn = true → (tget s.qps (64 * fn)).en = false → (tget s.qps (64 * fn)).rdy = false →
    exec (.qp0Enable fn true) s = .next (enableQp0 (64 * fn) s)) ∧
  (∀ s fn q, fnUp s fn = true → barOpen s fn = true → tget s.qps (64 * fn) = q → q.en = false → q.rdy = true →
    exec (.qp0Enable fn true) s = .next { s with qps := tset s.qps (64 * fn) { q with en := true, enWaits := true } }) ∧
  (∀ s fn, fnUp s fn = true → barOpen s fn = true → (tget s.qps (64 * fn)).en = true →
    exec (.qp0Enable fn false) s = .next (settleQp0 (64 * fn) (orphanBuffers (· == 64 * fn) (breakLocks (· == 64 * fn)
      { s with qps := tmod s.qps (64 * fn) (fun q => { q with en := false, enWaits := false }) })))) ∧
  (∀ s fn en, fnUp s fn = true → barOpen s fn = true → (tget s.qps (64 * fn)).en = en → exec (.qp0Enable fn en) s = .next s) ∧
  (∀ s fn qp v c, fnUp s fn = true → barOpen s fn = true → qp < 64 → c = 64 * fn + qp →
    (tget s.qps c).rdy = false ∨ v % 4096 < 2 ^ (tget s.qps c).sqlog →
    exec (.sqDoorbell fn qp v) s = .next { s with qps := tmod s.qps c (fun q => { q with sqtail := v % 4096 }) }) ∧
  (∀ s fn qp v c, fnUp s fn = true → barOpen s fn = true → qp < 64 → c = 64 * fn + qp →
    (tget s.qps c).rdy = true → 2 ^ (tget s.qps c).sqlog ≤ v % 4096 →
    exec (.sqDoorbell fn qp v) s = .next (stopQp c 3 { s with qps := tmod s.qps c (fun q => { q with sqtail := v % 4096 }) })) ∧
  (∀ s fn qp v c n, fnUp s fn = true → barOpen s fn = true → qp < 64 → c = 64 * fn + qp → n = 2 ^ (tget s.qps c).cqlog →
    (tget s.qps c).rdy = true → v % 4096 < n →
    exec (.cqDoorbell fn qp v) s = .next { s with qps := tmod s.qps c (fun q =>
      { q with cqhead := v % 4096, unread := q.unread - (v % 4096 + n - q.cqhead) % n }) }) ∧
  (∀ s fn qp v c, fnUp s fn = true → barOpen s fn = true → qp < 64 → c = 64 * fn + qp → (tget s.qps c).rdy = true →
    2 ^ (tget s.qps c).cqlog ≤ v % 4096 →
    exec (.cqDoorbell fn qp v) s = .next (stopQp c 3 { s with qps := tmod s.qps c (fun q => { q with cqhead := v % 4096 }) })) ∧
  (∀ s fn qp v c, fnUp s fn = true → barOpen s fn = true → qp < 64 → c = 64 * fn + qp → (tget s.qps c).rdy = false →
    exec (.cqDoorbell fn qp v) s = .next { s with qps := tmod s.qps c (fun q => { q with cqhead := v % 4096 }) }) ∧
  (∀ s fn off v, fnUp s fn = true → barOpen s fn = true → off ∈ [0x1000, 0x1004, 0x1008, 0x100C, 0x1010] →
    exec (.registerWrite fn off 4 v false) s =
      .next { s with ports := tmod s.ports fn (fun p => { p with qp0 := tset p.qp0 off (v &&& qp0Mask off) }) }) ∧
  (∀ s fn v, exec (.registerWrite fn 0x1014 4 v false) s = exec (.qp0Enable fn (bit v 0)) s) ∧
  (∀ s fn qp v, qp < 64 → exec (.registerWrite fn (0x2000 + 16 * qp) 4 v false) s = exec (.sqDoorbell fn qp v.toNat) s) ∧
  (∀ s fn qp v, qp < 64 → exec (.registerWrite fn (0x2004 + 16 * qp) 4 v false) s = exec (.cqDoorbell fn qp v.toNat) s) ∧
  (∀ s fn seg d v, seg < 16 → d < 4 →
    exec (.registerWrite fn (0xF000 + 16 * seg + 4 * d) 4 v false) s = exec (.bar2SegmentWrite fn seg d v) s) ∧
  (∀ s fn off v, fnUp s fn = true → barOpen s fn = true → off % 4 = 0 → off < 0x1000 ∨ (0x1018 ≤ off ∧ off < 0x2000) ∨
    (0x2400 ≤ off ∧ off < 0xF000) ∨ 0xF100 ≤ off → exec (.registerWrite fn off 4 v false) s = .next s) ∧
  (∀ s fn qp d v, fnUp s fn = true → barOpen s fn = true → qp < 64 → d = 8 ∨ d = 12 →
    exec (.registerWrite fn (0x2000 + 16 * qp + d) 4 v false) s = .next s) ∧
  (∀ s fn off size v, fnUp s fn = true → barOpen s fn = true → size ≠ 4 ∨ off % 4 ≠ 0 →
    exec (.registerWrite fn off size v false) s = .next (bump cntPcieUrSent (unitId 0x0C fn) s)) ∧
  (∀ s fn off v, fnUp s fn = true → barOpen s fn = true → off % 4 = 0 →
    exec (.registerWrite fn off 4 v true) s = .next (bump cntPciePoisonRx (unitId 0x0C fn) s)) ∧
  (∀ s fn seg v, fnUp s fn = true → barOpen s fn = true → seg < 16 →
    exec (.bar2SegmentWrite fn seg 0 v) s = .next { s with segs := tmod s.segs (16 * fn + seg) (fun g =>
      { g with en := bit v 0, wren := bit v 1, part := bits v 7 2, segerr := g.segerr && !bit v 8 }) }) ∧
  (∀ s fn seg v, fnUp s fn = true → barOpen s fn = true → seg < 16 →
    exec (.bar2SegmentWrite fn seg 1 v) s = .next { s with segs := tmod s.segs (16 * fn + seg) (fun g => { g with vpage := bits v 17 0 }) }) ∧
  (∀ s fn seg d v, fnUp s fn = true → barOpen s fn = true → 2 ≤ d → exec (.bar2SegmentWrite fn seg d v) s = .next s) ∧
  (∀ s fn, fnUp s fn = true → barOpen s fn = false →
    (∀ en, exec (.qp0Enable fn en) s = .next (bump cntPcieUrSent (unitId 0x0C fn) s)) ∧
    (∀ qp v, exec (.sqDoorbell fn qp v) s = .next (bump cntPcieUrSent (unitId 0x0C fn) s)) ∧
    (∀ qp v, exec (.cqDoorbell fn qp v) s = .next (bump cntPcieUrSent (unitId 0x0C fn) s)) ∧
    (∀ off size v ep, exec (.registerWrite fn off size v ep) s = .next (bump cntPcieUrSent (unitId 0x0C fn) s)) ∧
    (∀ seg d v, exec (.bar2SegmentWrite fn seg d v) s = .next (bump cntPcieUrSent (unitId 0x0C fn) s)))

/-- Accesses through BAR2: one that R216 allows and that ends well reads or writes the partition's memory, and a read whose bytes came
poisoned answers poisoned and counts (Table 12.8); one that R216 refuses sets SEGERR and counts, and so does one whose access fails, which
a failed window check also counts; a read that fails answers with bytes 0xFF; a poisoned write counts, and marks what it writes (R575). -/
def Obligations.HostApertures : Prop :=
  (∀ s fn off data g w, fnUp s fn = true → barOpen s fn = true → off < 2 ^ 32 → data ≠ [] → segOpen s fn true off data.length = true →
    tget s.segs (segKey fn off) = g → w = partWrite viaHost g.part (segAddr g off) data [] s → w.st = 0 →
    exec (.bar2Write fn off data false) s = .next w.s) ∧
  (∀ s fn off data g w, fnUp s fn = true → barOpen s fn = true → off < 2 ^ 32 → data ≠ [] → segOpen s fn true off data.length = true →
    tget s.segs (segKey fn off) = g → w = partWrite viaHost g.part (segAddr g off) data [] s → w.st ≠ 0 →
    exec (.bar2Write fn off data false) s = .next (bump cntBar2Fault (unitId 0x0C fn) (onSeg (segKey fn off) (countFault g.part w.st w.s)))) ∧
  (∀ s fn off data, fnUp s fn = true → barOpen s fn = true → off < 2 ^ 32 → data ≠ [] → segOpen s fn true off data.length = false →
    exec (.bar2Write fn off data false) s = .next (bump cntBar2Fault (unitId 0x0C fn) (onSeg (segKey fn off) s))) ∧
  (∀ s fn off data g t w, fnUp s fn = true → barOpen s fn = true → off < 2 ^ 32 → data ≠ [] →
    t = bump cntPciePoisonRx (unitId 0x0C fn) s → segOpen t fn true off data.length = true → tget t.segs (segKey fn off) = g →
    w = partWrite viaHost g.part (segAddr g off) data (List.range ((data.length + 15) / 16)) t → w.st = 0 →
    exec (.bar2Write fn off data true) s = .next w.s) ∧
  (∀ s fn off n g r, fnUp s fn = true → barOpen s fn = true → off < 2 ^ 32 → n ≠ 0 → segOpen s fn false off n = true →
    tget s.segs (segKey fn off) = g → r = partRead viaHost g.part (segAddr g off) n s → r.st = 0 → r.bad = [] →
    exec (.bar2Read fn off n) s = .next { r.s with cplOut := r.s.cplOut ++ [{ fn := fn, data := r.bytes }] }) ∧
  (∀ s fn off n g r, fnUp s fn = true → barOpen s fn = true → off < 2 ^ 32 → n ≠ 0 → segOpen s fn false off n = true →
    tget s.segs (segKey fn off) = g → r = partRead viaHost g.part (segAddr g off) n s → r.st = 0 → r.bad ≠ [] →
    exec (.bar2Read fn off n) s =
      .next (complete { fn := fn, poisoned := true, data := r.bytes } (bump cntBar2Poison (unitId 0x0C fn) r.s))) ∧
  (∀ s fn off n g r, fnUp s fn = true → barOpen s fn = true → off < 2 ^ 32 → n ≠ 0 → segOpen s fn false off n = true →
    tget s.segs (segKey fn off) = g → r = partRead viaHost g.part (segAddr g off) n s → r.st ≠ 0 →
    exec (.bar2Read fn off n) s = .next (complete { fn := fn, data := List.replicate n 0xFF }
      (bump cntBar2Fault (unitId 0x0C fn) (onSeg (segKey fn off) (countFault g.part r.st r.s))))) ∧
  (∀ s fn off n, fnUp s fn = true → barOpen s fn = true → off < 2 ^ 32 → n ≠ 0 → segOpen s fn false off n = false →
    exec (.bar2Read fn off n) s = .next (complete { fn := fn, data := List.replicate n 0xFF }
      (bump cntBar2Fault (unitId 0x0C fn) (onSeg (segKey fn off) s)))) ∧
  (∀ s fn off n, fnUp s fn = true → barOpen s fn = false → off < 2 ^ 32 → n ≠ 0 →
    exec (.bar2Read fn off n) s = .next (complete { fn := fn, unsupported := true } (bump cntPcieUrSent (unitId 0x0C fn) s)))

/-- Submission entries and host-memory reads.  An entry is asked for at the queue's next index, with a completion entry reserved for it, by
the queue pair whose turn it is, which stops with CAUSE 1 where its function can issue no request (R312, R327, R574).  A completion ends its
request with its bytes and EP, a failed one and a timeout end it without, and they and EP are counted; when the last request of an entry's
read ends well, its 64 bytes are taken in as a command, and when it ends otherwise the queue pair stops with CAUSE 1 (Table 16.10). -/
def Obligations.HostFetches : Prop :=
  (∀ s fn qp c q, qp < 64 → c = 64 * fn + qp → fnUp s fn = true → mayFetch s c = true → canMaster s fn = true → tget s.qps c = q →
    exec (.sqEntryFetch fn qp) s = .next (hostRead fn (q.sqbase + 64 * q.fetch) 64 (.sqEntry c q.epoch) (fetchTurned c
      { s with qps := tset s.qps c { q with fetch := (q.fetch + 1) % 2 ^ q.sqlog, reserved := q.reserved + 1 } }))) ∧
  (∀ s fn qp, qp < 64 → fnUp s fn = true → mayFetch s (64 * fn + qp) = true → canMaster s fn = false →
    exec (.sqEntryFetch fn qp) s = .next (stopQp (64 * fn + qp) 1 s)) ∧
  (∀ s tag r data, readOf s tag = some r → olderFetch s r = false → data.length = r.len →
    exec (.hostCompletion tag { ok := true, ep := false, data := data }) s = .next (requestEnded r (some (data, false)) s)) ∧
  (∀ s tag r data, readOf s tag = some r → olderFetch s r = false → data.length = r.len →
    exec (.hostCompletion tag { ok := true, ep := true, data := data }) s =
      .next (requestEnded r (some (data, true)) (bump cntPciePoisonRx (unitId 0x0C r.fn) s))) ∧
  (∀ s tag r ep data, readOf s tag = some r → olderFetch s r = false →
    exec (.hostCompletion tag { ok := false, ep := ep, data := data }) s =
      .next (requestEnded r none (bump cntPcieCplErr (unitId 0x0C r.fn) s))) ∧
  (∀ s tag r, readOf s tag = some r → olderFetch s r = false →
    exec (.completionTimeout tag) s = .next (requestEnded r none (bump cntPcieCplTimeout (unitId 0x0C r.fn) s))) ∧
  (∀ s tag r c e data q, readOf s tag = some r → r.kind = .sqEntry c e → olderFetch s r = false → data.length = r.len →
    s.hostReads.filter (fun x => x.acc == r.acc) = [r] → (∀ x ∈ s.hostReads, x.tag = r.tag → x.acc = r.acc) →
    tget s.qps c = q → q.epoch = e → q.rdy = true → q.en = true → q.enWaits = false →
    exec (.hostCompletion tag { ok := true, ep := false, data := data }) s =
      .next (takeIn c { dws := bytesDw data } { s with hostReads := s.hostReads.filter (fun x => x.acc != r.acc) })) ∧
  (∀ s tag r c e q t, readOf s tag = some r → r.kind = .sqEntry c e → olderFetch s r = false →
    s.hostReads.filter (fun x => x.acc == r.acc) = [r] → (∀ x ∈ s.hostReads, x.tag = r.tag → x.acc = r.acc) →
    tget s.qps c = q → q.epoch = e → q.rdy = true → q.en = true → q.enWaits = false →
    t = bump cntPcieCplTimeout (unitId 0x0C r.fn) s →
    exec (.completionTimeout tag) s = .next (stopQp c 1 { t with hostReads := s.hostReads.filter (fun x => x.acc != r.acc) }))

/-- A function's configuration, power state, Bus Master Enable, reset and link: a configuration request always completes, and a write sets
the writable bits of the register, among them Memory Space and Bus Master Enable (R565, R575); D3hot resets nothing (R576); requests under way
go on when Bus Master Enable falls (R599); a function-level reset and a link that goes down are port resets in which the function's accesses
to host spill fail (R225, R572, R573), the first with the configuration at its reset values, the second counted; a link comes up once the root
PLL has locked (R550). -/
def Obligations.HostFunctions : Prop :=
  (∀ s fn v, fnUp s fn = true →
    exec (.configRequest fn 0x04 (some v)) s = .next { s with
      fns := tmod s.fns fn (fun f => { f with cfg := tset f.cfg 0x04 (v &&& 0x146), mse := bit v 1, bme := bit v 2 })
      cplOut := s.cplOut ++ [{ fn := fn }] }) ∧
  (∀ s fn reg v, fnUp s fn = true →
    exec (.configRequest fn reg (some v)) s = .next (complete { fn := fn } (configPut fn (reg / 4 * 4) v s))) ∧
  (∀ s fn, fnUp s fn = true →
    exec (.configRequest fn 0x00 none) s = .next { s with
      cplOut := s.cplOut ++ [{ fn := fn, data := [0x6C, 0x1F, 0x20, 0x05] }], freeCtr := s.freeCtr + 1 }) ∧
  (∀ s fn reg, fnUp s fn = true →
    exec (.configRequest fn reg none) s = .next { s with
      cplOut := s.cplOut ++ [{ fn := fn, data := leBytes 4 (configDword s fn (reg / 4 * 4)).toNat }], freeCtr := s.freeCtr + 1 }) ∧
  (∀ s fn d3, fnUp s fn = true →
    exec (.powerStateChange fn d3) s = .next { s with fns := tmod s.fns fn (fun f => { f with d3 := d3 }) }) ∧
  (∀ s fn, fnUp s fn = true → exec (.busMasterDisable fn) s = .next { s with fns := tmod s.fns fn (fun f => { f with bme := false }) }) ∧
  (∀ s fn, fnUp s fn = true →
    let t := (s.hostReads.filter (HostRead.spillOf fn)).foldl (fun u r => requestEnded r none u) s
    exec (.functionLevelReset fn) s = .next (portReset fn
      { t with fns := tmod t.fns fn (fun f => { linkUp := f.linkUp, devCtl := 0x2010 ||| (f.devCtl &&& 0xE0) }) })) ∧
  (∀ s fn, fnUp s fn = true →
    let t := (s.hostReads.filter (HostRead.spillOf fn)).foldl (fun u r => requestEnded r none u) s
    exec (.pcieLinkDown fn) s =
      .next (portReset fn (bump cntPcieLinkDown (unitId 0x0C fn) { t with fns := tmod t.fns fn (fun _ => {}) }))) ∧
  (∀ s fn, fn < 2 → portExists s fn = true → s.bring.pll = true → s.bring.inReset = false →
    exec (.pcieLinkUp fn) s = .next { s with fns := tmod s.fns fn (fun f => { f with linkUp := true }) })

/-- Mailbox GO: the command in CMD is run with BUSY set, a repeat of the last answered one is answered again with DUP and the new phase, a
GO while BUSY sets RETRY and counts (R334), and one during a port reset is held; at the reset's end a held GO is taken (R545). -/
def Obligations.MailboxEvents : Prop :=
  (∀ s p, p = 2 ∨ p = 3 → s.bring.inReset = false → (tget s.mbx p).busy = false → (tget s.ports p).resetting = false →
    (tget s.mbx p).last ≠ some (mbxBytes s p 0 64) →
    exec (.mailboxGo p) s = .next (takeIn (64 * p) { dws := bytesDw (mbxBytes s p 0 64) }
      { s with mbx := tmod s.mbx p (fun m => { m with busy := true }) })) ∧
  (∀ s p m, p = 2 ∨ p = 3 → s.bring.inReset = false → tget s.mbx p = m → m.busy = false → (tget s.ports p).resetting = false →
    m.last = some (mbxBytes s p 0 64) →
    exec (.mailboxGo p) s = .next { s with mbx := tset s.mbx p { m with
      mphase := !m.mphase
      rply := m.rply.set 1 (dw ((viewOf s (64 * p)).summary + 2 ^ 16 * b2n (!m.mphase) + 2 ^ 17 * b2n (bit (m.rply.getD 1 0) 17) + 2 ^ 18)) } }) ∧
  (∀ s p, p = 2 ∨ p = 3 → s.bring.inReset = false → (tget s.mbx p).busy = true →
    exec (.mailboxGo p) s = .next (bump cntCmdRetry (unitId 0x0C p) { s with mbx := tmod s.mbx p (fun m => { m with retry := true }) })) ∧
  (∀ s p, p = 2 ∨ p = 3 → s.bring.inReset = false → (tget s.mbx p).busy = false → (tget s.ports p).resetting = true →
    exec (.mailboxGo p) s = .next { s with mbx := tmod s.mbx p (fun m => { m with busy := true, held := true }) }) ∧
  (∀ s p, (tget s.ports p).resetting = true → (tget s.mbx p).held = false →
    exec (.portResetComplete p) s = .next { s with ports := tmod s.ports p (fun o => { o with resetting := false }) }) ∧
  (∀ s p, (tget s.ports p).resetting = true → (tget s.mbx p).held = true →
    exec (.portResetComplete p) s = .next (takeGo p { s with
      ports := tmod s.ports p (fun o => { o with resetting := false })
      mbx := tmod s.mbx p (fun m => { m with held := false, busy := false }) }))

/-! ### P2 and the test access port (chapter 16) -/

/-- P2's transfers.  A write-kind transfer that is heard, whole, in range and without a failed check writes the mailbox, writes it and acts as
GO, or sets the read pointer and length (R566); one that ends early, has a parity error over I3C, or is out of range changes nothing and is
counted (R578), and so is one whose PEC is wrong (R579).  A READ over I3C answers L bytes of one snapshot, ended at the maximum read length; over
SMBus the count byte and L bytes, and a PEC byte where the controller clocks one (R566, R579; the PEC's polynomial is the model's, assumption
170).  SCL held low over 30 ms ends a transfer early and counts (R579). -/
def Obligations.P2Transfers : Prop :=
  (∀ s x off data, p2Heard s x = true → x.early = false → (s.p2.i3c = false ∨ x.parityError = false) → (s.p2.i3c = true ∨ x.pec ≠ some false) →
    p2RangeOk s off data.length = true →
    exec (.p2Write x off data) s = .next (
      let t := { s with mbx := tmod s.mbx 2 (fun m => mbxPokes m off data) }
      if pokesGo off data = true then writeGo 2 t else t)) ∧
  (∀ s x off data, p2Heard s x = true → x.early = false → (s.p2.i3c = false ∨ x.parityError = false) → (s.p2.i3c = true ∨ x.pec ≠ some false) →
    p2RangeOk s off data.length = true →
    exec (.p2Writego x off data) s = .next (writeGo 2 { s with mbx := tmod s.mbx 2 (fun m => mbxPokes m off data) })) ∧
  (∀ s x off len, p2Heard s x = true → x.early = false → (s.p2.i3c = false ∨ x.parityError = false) → (s.p2.i3c = true ∨ x.pec ≠ some false) →
    p2RangeOk s off (setptrLen s len) = true →
    exec (.p2Setptr x off len) s = .next { s with p2 := { s.p2 with ptr := off, len := setptrLen s len } }) ∧
  (∀ s x off data len, p2Heard s x = true → x.early = true ∨ (s.p2.i3c = true ∧ x.parityError = true) →
    exec (.p2Write x off data) s = .next (bump cntP2XferErr 0 s) ∧ exec (.p2Writego x off data) s = .next (bump cntP2XferErr 0 s) ∧
    exec (.p2Setptr x off len) s = .next (bump cntP2XferErr 0 s)) ∧
  (∀ s x off data, p2Heard s x = true → p2RangeOk s off data.length = false →
    exec (.p2Write x off data) s = .next (bump cntP2XferErr 0 s) ∧ exec (.p2Writego x off data) s = .next (bump cntP2XferErr 0 s)) ∧
  (∀ s x off len, p2Heard s x = true → p2RangeOk s off (setptrLen s len) = false →
    exec (.p2Setptr x off len) s = .next (bump cntP2XferErr 0 s)) ∧
  (∀ s x off data, p2Heard s x = true → x.early = false → s.p2.i3c = false → x.pec = some false → p2RangeOk s off data.length = true →
    exec (.p2Write x off data) s = .next (bump cntP2PecErr 0 s) ∧ exec (.p2Writego x off data) s = .next (bump cntP2PecErr 0 s)) ∧
  (∀ s x, p2Heard s x = true → x.early = false → s.p2.i3c = true →
    exec (.p2Read x) s = .next { s with p2 := { s.p2 with out := mbxBytes s 2 s.p2.ptr (min s.p2.len s.p2.mrl) } }) ∧
  (∀ s x, p2Heard s x = true → x.early = false → s.p2.i3c = false → x.pec = none →
    exec (.p2Read x) s = .next { s with p2 := { s.p2 with out := BitVec.ofNat 8 s.p2.len :: mbxBytes s 2 s.p2.ptr s.p2.len } }) ∧
  (∀ s x b body, p2Heard s x = true → x.early = false → s.p2.i3c = false → x.pec = some b →
    body = BitVec.ofNat 8 s.p2.len :: mbxBytes s 2 s.p2.ptr s.p2.len →
    exec (.p2Read x) s = .next { s with p2 := { s.p2 with
      out := body ++ [smbusPec ([BitVec.ofNat 8 (2 * x.addr), 0x03, BitVec.ofNat 8 (2 * x.addr + 1)] ++ body)] } }) ∧
  (∀ s x, p2Heard s x = true → x.early = true → exec (.p2Read x) s = .next (bump cntP2XferErr 0 s)) ∧
  (∀ s, s.bring.inReset = false → s.p2.i3c = false → pinsTaken s = false →
    exec .smbusTimeout s = .next (bump cntP2XferErr 0 s))

/-- I3C's common command codes: a target without a dynamic address takes one by ENTDAA or SETDASA, and RSTDAA gives it up, each a port reset of
P2 (R577); SETNEWDA changes it; the GET codes answer, bytes of lower weight first (Table 00.3; the order is assumption 105); SETMWL and SETMRL
take a value in range and ignore any other; ENEC and DISEC change nothing; RSTACT chooses what the next target reset pattern does, which resets
the port for codes 1 and 2 and where none was chosen (R567, R580). -/
def Obligations.I3cCodes : Prop :=
  (∀ s a, p2Awake s = true → s.p2.i3c = false →
    exec (.entdaa (some a)) s = .next (portReset 2 { s with p2 := { s.p2 with i3c := true, dyn := a } })) ∧
  (∀ s a, p2Awake s = true → s.p2.i3c = false →
    exec (.setdasa (0x40 + s.bring.strapAddr) a) s = .next (portReset 2 { s with p2 := { s.p2 with i3c := true, dyn := a } })) ∧
  (∀ s, p2I3c s = true → exec .rstdaa s = .next (portReset 2 { s with p2 := { s.p2 with i3c := false, dyn := 0 } })) ∧
  (∀ s a, p2I3c s = true → exec (.setnewda a) s = .next { s with p2 := { s.p2 with dyn := a } }) ∧
  (∀ s, p2I3c s = true → exec .getpid s = .next { s with p2 := { s.p2 with
    out := leBytes 6 (2 ^ 33 * 0x3A6C + 2 ^ 16 * 0x0520 + 2 ^ 12 * (s.bring.strapAddr % 16) + 0x0B0) } }) ∧
  (∀ s, p2I3c s = true → exec .getbcr s = .next { s with p2 := { s.p2 with out := [0x00] } }) ∧
  (∀ s, p2I3c s = true → exec .getdcr s = .next { s with p2 := { s.p2 with out := [0x00] } }) ∧
  (∀ s, p2I3c s = true → exec .i3cGetstatus s = .next { s with p2 := { s.p2 with out := [0x00, 0x00] } }) ∧
  (∀ s, p2I3c s = true → exec .getmwl s = .next { s with p2 := { s.p2 with out := leBytes 2 s.p2.mwl } }) ∧
  (∀ s, p2I3c s = true → exec .getmrl s = .next { s with p2 := { s.p2 with out := leBytes 2 s.p2.mrl } }) ∧
  (∀ s v, p2I3c s = true → 8 ≤ v → v ≤ 259 → exec (.setmwl v) s = .next { s with p2 := { s.p2 with mwl := v } }) ∧
  (∀ s v, p2I3c s = true → 8 ≤ v → v ≤ 256 → exec (.setmrl v) s = .next { s with p2 := { s.p2 with mrl := v } }) ∧
  (∀ s v, v < 8 ∨ 259 < v → exec (.setmwl v) s = .next s) ∧
  (∀ s v, v < 8 ∨ 256 < v → exec (.setmrl v) s = .next s) ∧
  (∀ s, exec .enec s = .next s) ∧
  (∀ s, exec .disec s = .next s) ∧
  (∀ s a, p2I3c s = true → exec (.rstact a) s = .next { s with p2 := { s.p2 with rstact := some a } }) ∧
  (∀ s, p2I3c s = true → s.p2.rstact = none ∨ s.p2.rstact = some 1 ∨ s.p2.rstact = some 2 →
    exec .targetResetPattern s = .next (portReset 2 s)) ∧
  (∀ s a, s.p2.rstact = some a → a ≠ 1 → a ≠ 2 → exec .targetResetPattern s = .next s)

/-- Instructions of the test access port select its register (R568).  Update-DR of MBOX with REQ starts one access to a dword up to 1,279 and
clears ERR and DONE; while one is in progress, or for a higher dword, it sets ERR and counts (R569, R581); Capture-DR loads the outcome of the
latest access (Table 16.7); an access that completes has read the dword, or written it and acted as GO where it writes a 1 there; TRST selects
IDCODE and resets P3, after an access in progress (R568, R581). -/
def Obligations.TapInstructions : Prop :=
  (∀ s, exec .extest s = .next { s with tap := { s.tap with ir := 0x00 } }) ∧
  (∀ s, exec .idcode s = .next { s with tap := { s.tap with ir := 0x01, captured := 0xB05209AB } }) ∧
  (∀ s, exec .samplePreload s = .next { s with tap := { s.tap with ir := 0x02 } }) ∧
  (∀ s, exec .clamp s = .next { s with tap := { s.tap with ir := 0x03 } }) ∧
  (∀ s, exec .highz s = .next { s with tap := { s.tap with ir := 0x04 } }) ∧
  (∀ s, exec .mbox s = .next { s with tap := { s.tap with ir := 0x20 } }) ∧
  (∀ s, exec .bypass s = .next { s with tap := { s.tap with ir := 0xFF } }) ∧
  (∀ (s : State) (v : BitVec 46), s.bring.inReset = false → s.tap.ir = 0x20 → v.getLsbD 45 = true → s.tap.access = none →
    v.toNat / 2 ^ 32 % 2 ^ 11 ≤ 1279 →
    exec (.mboxUpdateDr v) s = .next { s with tap := { s.tap with
      access := some (v.toNat / 2 ^ 32 % 2 ^ 11, if v.getLsbD 43 then some (dw (v.toNat % 2 ^ 32)) else none)
      didx := v.toNat / 2 ^ 32 % 2 ^ 11, wrBit := v.getLsbD 43, err := false, done := false } }) ∧
  (∀ (s : State) (v : BitVec 46), s.bring.inReset = false → s.tap.ir = 0x20 → v.getLsbD 45 = true →
    s.tap.access ≠ none ∨ 1279 < v.toNat / 2 ^ 32 % 2 ^ 11 →
    exec (.mboxUpdateDr v) s = .next (bump cntP3MboxErr 0 { s with tap := { s.tap with err := true } })) ∧
  (∀ (s : State) (v : BitVec 46), v.getLsbD 45 = false → exec (.mboxUpdateDr v) s = .next s) ∧
  (∀ s, s.tap.ir = 0x20 →
    exec .mboxCaptureDr s = .next (
      let v := s.tap.data.toNat + 2 ^ 32 * s.tap.didx + 2 ^ 43 * b2n s.tap.wrBit + 2 ^ 44 * b2n s.tap.err + 2 ^ 45 * b2n s.tap.done
      { s with tap := { s.tap with captured := BitVec.ofNat 46 v } })) ∧
  (∀ s i, s.tap.access = some (i, none) → s.tap.resetDue = false →
    exec .mboxAccessComplete s = .next { s with tap := { s.tap with
      access := none, done := true, resetDue := false, data := dw (leNat (mbxBytes s 3 (4 * i) 4)) } }) ∧
  (∀ s i d, s.tap.access = some (i, some d) → s.tap.resetDue = false →
    exec .mboxAccessComplete s = .next (mbxWrite 3 (4 * i) (leBytes 4 d.toNat) false
      { s with tap := { s.tap with access := none, done := true, resetDue := false } })) ∧
  (∀ s i, s.tap.access = some (i, none) → s.tap.resetDue = true →
    exec .mboxAccessComplete s = .next (portReset 3 { s with tap := { s.tap with
      access := none, done := true, resetDue := false, data := dw (leNat (mbxBytes s 3 (4 * i) 4)) } })) ∧
  (∀ s, s.tap.access = none → exec .trst s = .next (portReset 3 { s with tap := { s.tap with ir := 0x01 } })) ∧
  (∀ s, s.tap.access ≠ none → exec .trst s = .next { s with tap := { s.tap with ir := 0x01, resetDue := true } })

/-! ### Resets and bring-up (chapter 15) -/

/-- Resets.  PWROK deasserted and a supply that dips for 1 µs hold the device in a cold reset (R538, R613); a reset pin that is asserted for 10 µs
holds it in a system reset, one of less than 1 µs is ignored (R615), and one that comes while a reset is held only joins it (R556).  Release
samples the straps, and S1 runs with nothing of the old state but the ledger, unless STRAP_BIF is reserved, which fails S1 (R539, R540, R564).  The
root PLL locks in S1 (R537); its loss of lock is a system reset (R536), and so is an HBM PHY PLL's from S3 on (R562); a serdes PLL's brings its
port down, or fails its training (R563). -/
def Obligations.ResetEvents : Prop :=
  (∀ s, exec .pwrokDeassert s = .next (heldInReset true { heldBring s with pwrok := false } s)) ∧
  (∀ s ns, 1000 ≤ ns → exec (.supplyDip ns) s = .next (heldInReset true { heldBring s with pwrok := false } s)) ∧
  (∀ s ns, 10000 ≤ ns → s.bring.inReset = false → exec (.sysRst ns) s = .next (heldInReset false { heldBring s with sysrst := true } s)) ∧
  (∀ s ns, 10000 ≤ ns → s.bring.inReset = false → exec (.perst ns) s = .next (heldInReset false { heldBring s with perst := true } s)) ∧
  (∀ s ns, 10000 ≤ ns → s.bring.inReset = true →
    exec (.sysRst ns) s = .next { s with bring := { heldBring s with sysrst := true } } ∧
    exec (.perst ns) s = .next { s with bring := { heldBring s with perst := true } }) ∧
  (∀ s ns, ns < 1000 → exec (.sysRst ns) s = .next s ∧ exec (.perst ns) s = .next s ∧ exec (.supplyDip ns) s = .next s) ∧
  (∀ s b a d, s.bring.inReset = true → b % 4 < 2 → exec (.resetRelease b a d) s = .next { State.released s.ledger (b % 4) (a % 8) d with
    pending := s.pending, freeCtr := s.freeCtr, hostOut := s.hostOut, cplOut := s.cplOut, tap := s.tap }) ∧
  (∀ s b a d, s.bring.inReset = true → 2 ≤ b % 4 → exec (.resetRelease b a d) s = .next (
    let t := State.released s.ledger (b % 4) (a % 8) d
    raise attnBringup .all { t with
      pending := s.pending, freeCtr := s.freeCtr, hostOut := s.hostOut, cplOut := s.cplOut, tap := s.tap
      bring := { t.bring with failStage := 1, failCause := 0x04 } })) ∧
  (∀ s, stageRuns s = true → s.bring.stage = 1 → exec .rootPllLock s = .next { s with bring := { s.bring with pll := true } }) ∧
  (∀ s, s.bring.inReset = false → s.bring.pll = true → exec (.pllLockLoss none) s = .next (heldInReset false (heldBring s) s)) ∧
  (∀ s k, k < 8 → s.bring.inReset = false → s.bring.pll = true → 3 ≤ s.bring.stage →
    exec (.pllLockLoss (some k)) s = .next (heldInReset false (heldBring s) s)) ∧
  (∀ s p, (tget s.pel p).st = .active ∨ (tget s.pel p).st = .sleep → exec (.serdesPllLockLoss p) s = .next (portDown p downFrame false s)) ∧
  (∀ s p, (tget s.pel p).st = .training → exec (.serdesPllLockLoss p) s = .next (trainFail p stLinkTrainFailed downTrain false s))

/-- Stages end in order with their times in µs: S1's end counts the power-up and starts each regulator's loop from its read-back (R430, R473);
S2's powers every domain, with the Peloc ports DOWN (R544); S3's has all stacks trained; S4 is reached, and a part with REPLACE pinned is RETIRED
(R430, R546, R547).  A stage that fails for one of its causes is the last, and the record of Table 15.3 is written where the cause has one (R548,
R549). -/
def Obligations.StageEvents : Prop :=
  (∀ s avs, stageRuns s = true → s.bring.pll = true → s.bring.stage = 1 → s.bring.s3done = false →
    exec (.stageEnd avs) s = .next (raise attnBringup .all ([0, 1, 2, 3, 4].foldl (fun u n => startLoop avs n u) { s with
      ledger := { s.ledger with powerups := (s.ledger.powerups + 1) % 2 ^ 32 }
      bring := { s.bring with stage := 2, ends := s.bring.ends.set 0 (s.timebase / 100) } }))) ∧
  (∀ s avs, stageRuns s = true → s.bring.pll = true → s.bring.stage = 2 → s.bring.s3done = false →
    exec (.stageEnd avs) s = .next (raise attnBringup .all { s with
      bring := { s.bring with stage := 3, ends := s.bring.ends.set 1 (s.timebase / 100) }
      doms := domainCodes.map (fun d => (d, { on := true }))
      pel := (List.range 16).map (fun p => (p, { st := .down })) })) ∧
  (∀ s avs, stageRuns s = true → s.bring.pll = true → s.bring.stage = 3 → s.bring.s3done = false →
    exec (.stageEnd avs) s = .next (raise attnBringup .all { s with
      bring := { s.bring with s3done := true, trained := 0xFF, ends := s.bring.ends.set 2 (s.timebase / 100) } })) ∧
  (∀ s, stageRuns s = true → s.bring.stage = 3 → s.bring.s3done = true → replacePinned s = false →
    exec .s4Reached s = .next (raise attnBringup .all { s with
      bring := { s.bring with stage := 4, ends := s.bring.ends.set 3 (s.timebase / 100) } })) ∧
  (∀ s, stageRuns s = true → s.bring.stage = 3 → s.bring.s3done = true → replacePinned s = true →
    exec .s4Reached s = .next (raise attnBringup .all (beginCondition attnReplace { s with
      bring := { s.bring with stage := 4, ends := s.bring.ends.set 3 (s.timebase / 100) }, integ := { s.integ with dstate := .retired } }))) ∧
  (∀ s cause unit n, stageRuns s = true → runningStage s.bring ≠ 3 → (causesOf (runningStage s.bring)).contains cause = true →
    unrecorded cause = true →
    exec (.stageDeadline cause unit n) s = .next (raise attnBringup .all { s with
      bring := { s.bring with failStage := runningStage s.bring, failCause := cause } })) ∧
  (∀ s cause unit n, stageRuns s = true → runningStage s.bring ≠ 3 → (causesOf (runningStage s.bring)).contains cause = true →
    unrecorded cause = false → causeNames cause unit = true →
    exec (.stageDeadline cause unit n) s = .next (
      let t := raise attnBringup .all { s with bring := { s.bring with failStage := runningStage s.bring, failCause := cause } }
      queueRec (mkRec t kindBringup (bringupVerdict t (runningStage s.bring) unit) unit 0 0 none (runningStage s.bring) cause) t)) ∧
  (∀ s cause unit n, stageRuns s = true → runningStage s.bring = 3 → (causesOf 3).contains cause = true → causeNames cause unit = true →
    exec (.stageDeadline cause unit n) s = .next (
      let t := raise attnBringup .all { s with bring := { s.bring with
        failStage := 3, failCause := cause, failed := n % 256, trained := 255 - n % 256 } }
      queueRec (mkRec t kindBringup (bringupVerdict t 3 unit) unit 0 0 none 3 cause) t))

/-! ### Tiles (chapter 05) -/

/-- The sequencer.  A tile that can issue issues its next bundle, once a CODEC bundle's descriptor is not behind a fence, which makes it
wait (R167, R254); an uncorrectable bundle word ends its job (R431).  Token signals reach a counter (R151).  A tile that has waited in vain
ends with ST_WATCHDOG (R174; of a tile that has issued HALT the bundle named is the model's choice, assumption 156).  A program's run closes
once it is ending or all its tiles have finished (R183), and a load ends once nothing on its tiles holds it up (R164). -/
def Obligations.SequencerEvents : Prop :=
  (∀ s t f s1, canIssue s t = true → isShadow s t = false → fatalEcc f = false → s1 = countEcc (unitId 0x01 t) f s → codecFence t s1 = none →
    exec (.bundleIssue t f) s = .next (issueBundle t s1)) ∧
  (∀ s t f s1 w, canIssue s t = true → isShadow s t = false → fatalEcc f = false → s1 = countEcc (unitId 0x01 t) f s →
    codecFence t s1 = some w →
    exec (.bundleIssue t f) s = .next (
      let s2 := turnedAway (viaTile t) (some (tilePart s t)) w s1
      { s2 with tiles := tmod s2.tiles t (fun x => { x with ctries := x.ctries + 1 }) })) ∧
  (∀ s t f, canIssue s t = true → isShadow s t = false → fatalEcc f = true →
    exec (.bundleIssue t f) s = .next (arrayDies t (unitId 0x01 t) 0 (tget s.tiles t).pc (countEcc (unitId 0x01 t) f s))) ∧
  (∀ s t c n, t < 64 → c < 16 → 1 ≤ n → n ≤ 8 → exec (.tokenArrival t c n) s = .next (addTokens t c n s)) ∧
  (∀ s t, (tget s.tiles t).running = true → finished s t = false → canIssue s t = false → isShadow s t = false →
    exec (.watchdog t) s = .next (endTile t stWatchdog 0 (tget s.tiles t).pc 0 s)) ∧
  (∀ s k, (tget s.progs k).running = true → (tget s.progs k).ending.isSome = true ∨ allFinished s (tget s.progs k) = true →
    exec (.programComplete k) s = .next (closeRun k s)) ∧
  (∀ s o, s.loads.find? (fun x => x.ticket == o.ticket) = some o → loadWaits s (loadTiles s o) = false →
    exec (.programLoadComplete o.ticket) s = .next (finishLoad o s))

/-- MOVE.  The queue's front operation starts (R159): a COPY or an MCAST that fails the window check of its source or its destination ends
with that check's status (R194), and otherwise the COPY's reads go out, and an MCAST with a free tag sends its MC_RESERVE and reads its
source (R248); without a tag it waits.  A COPY whose runs have all landed sends its token and counts (R169), and an MCAST whose results are
all in ends (R251). -/
def Obligations.MoveEvents : Prop :=
  (∀ s t o e s0, nextMove s t 1 = some o → s0 = { s with tiles := tmod s.tiles t (fun x => { x with mq := x.mq.tail }) } →
    xlate s0 (tilePart s t) false o.a1 o.b.moveLen = .error e → exec (.copy t) s = .next (faultTile t e slotMove o.bundle s0)) ∧
  (∀ s t o src e s0, nextMove s t 1 = some o → s0 = { s with tiles := tmod s.tiles t (fun x => { x with mq := x.mq.tail }) } →
    xlate s0 (tilePart s t) false o.a1 o.b.moveLen = .ok src → xlate s0 (tilePart s t) true o.a2 o.b.moveLen = .error e →
    exec (.copy t) s = .next (faultTile t e slotMove o.bundle s0)) ∧
  (∀ s t o src dst s0, nextMove s t 1 = some o → s0 = { s with tiles := tmod s.tiles t (fun x => { x with mq := x.mq.tail }) } →
    xlate s0 (tilePart s t) false o.a1 o.b.moveLen = .ok src → xlate s0 (tilePart s t) true o.a2 o.b.moveLen = .ok dst →
    exec (.copy t) s = .next (
      let cs := copyChunks src dst
      let s1 := dst.foldl (fun u p => countSpill (tilePart s t) true p u) (src.foldl (fun u p => countSpill (tilePart s t) false p u) s0)
      let s2 := onTile t (fun x => { x with mv := some { op := o, active := cs.length, dest := dst.head?.bind (fun p => tileAt p.dev) } }) s1
      cs.foldl (fun u c => sendReq (rdPkt (tileRouter t) 0 (tilePart s t) false c.src c.len) (.moveRead t c) (noteSource c u)) s2)) ∧
  (∀ s t o e, nextMove s t 2 = some o → mcastSource s (tilePart s t) o = .error e →
    exec (.mcast t) s = .next (faultTile t e slotMove o.bundle { s with tiles := tmod s.tiles t (fun x => { x with mq := x.mq.tail }) })) ∧
  (∀ s t o src tag, nextMove s t 2 = some o → mcastSource s (tilePart s t) o = .ok src → freeTag s (tileRouter t) 0 = some tag →
    exec (.mcast t) s = .next (startMcast t o s)) ∧
  (∀ s t o src, nextMove s t 2 = some o → mcastSource s (tilePart s t) o = .ok src → freeTag s (tileRouter t) 0 = none →
    exec (.mcast t) s = .next s) ∧
  (∀ s t m, (tget s.tiles t).mv = some m → m.active = 0 →
    exec (.moveComplete t) s = .next (endMove t m.op (copyToken t m
      { s with tiles := tmod s.tiles t (fun y => { y with mv := none }) }))) ∧
  (∀ s t m, (tget s.tiles t).mv = none → (tget s.tiles t).send = some m → m.finished = true →
    exec (.moveComplete t) s = .next (endMcast t m s))

/-- EXPAND starts (R160).  Its next block, in hand with its context where it is ordered and held up by no commit (R249), is decoded in every
copy (R28, R437): it is consumable, its failed copies are set to be fetched again, or it fails.  Copies that failed are fetched from where
they came, counted, and decoded once more, and a replay that waited for that starts (R29, R40). -/
def Obligations.ExpandEvents : Prop :=
  (∀ s t o, expandReady s t = some o → exec (.expand t) s = .next (startExpand t o s)) ∧
  (∀ s t act g e x, isShadow s t = false → blockAt s t act = some e → blockCopies t (e.glitched t g) s = .error x →
    exec (.blockConsumable t act g) s = .next (stopExpand t (e.glitched t g) x s)) ∧
  (∀ s t act g e cs s1, isShadow s t = false → blockAt s t act = some e → blockCopies t (e.glitched t g) s = .ok (cs, s1) →
    exec (.blockConsumable t act g) s = .next (decodedBlock t (e.glitched t g) cs s1)) ∧
  (∀ s t act, isShadow s t = true → exec (.blockConsumable t act true) s = .next (
    { s with tiles := tmod s.tiles (t - 1) (fun x =>
      x.setExpander act ((x.expander act).map (fun e => { e with spoilt := t :: e.spoilt }))) })) ∧
  (∀ s t act g e s1, (tget s.tiles t).expander act = some e → e.refetch ≠ [] → fetched t e s = .ok s1 →
    exec (.blockRefetch t act g) s = .next (
      let r : ExpOp := { e with refetch := [], again := e.again ++ e.refetch }
      runDue t (expandBlock t (r.glitched t g) { s1 with tiles := tmod s1.tiles t (fun x => x.setExpander act (some r)) }))) ∧
  (∀ s t act g e x, (tget s.tiles t).expander act = some e → e.refetch ≠ [] → fetched t e s = .error x →
    exec (.blockRefetch t act g) s = .next (stopExpand t e x s))

/-- MAC takes its slots and writes its rows, on a DUAL tile's shadow too (R145, R146, R149, R437).  PACK reads and converts its rows; the
checker lets it pass or has its window replayed (R162, R179, R434); its output is written once it holds its context (R171).  An uncorrectable
word of a slot, accumulator or staging buffer ends the job that reads it (R431). -/
def Obligations.MacPackEvents : Prop :=
  (∀ s t f o s1, macReady s t = some o → s1 = arrayEcc t (tilePart s t) (macBad s t o.b) f s → arrayFatal (macBad s t o.b) f = false →
    exec (.mac t f) s = .next (macSlots t o.b .inUse .inUse
      { s1 with tiles := tmod s1.tiles t (fun x => { x with maq := x.maq.tail, mc := some { op := o } }) })) ∧
  (∀ s t f o, macReady s t = some o → arrayFatal (macBad s t o.b) f = true →
    exec (.mac t f) s =
      .next (arrayDies t (unitId 0x01 t) slotMac o.bundle (arrayEcc t (tilePart s t) (macBad s t o.b) f s))) ∧
  (∀ s t w m s1, (tget s.tiles t).mc = some m → gangStalled s t = false → shadowOf s t = none → m.row + 1 < m.op.b.mrows →
    s1 = spoilRow t (m.op.b.maccr + m.row * m.op.b.mstep) (errorsOf false w) (macResult t (membersOf s t) m.op.b m.row s) →
    exec (.rowResultWritten t w) s = .next (onTile t (fun x => { x with mc := some { m with row := m.row + 1 } }) s1)) ∧
  (∀ s t w m s1, (tget s.tiles t).mc = some m → gangStalled s t = false → shadowOf s t = none → ¬ m.row + 1 < m.op.b.mrows →
    s1 = spoilRow t (m.op.b.maccr + m.row * m.op.b.mstep) (errorsOf false w) (macResult t (membersOf s t) m.op.b m.row s) →
    exec (.rowResultWritten t w) s = .next (endMac t m.op s1)) ∧
  (∀ s t w m u r s1 s2, (tget s.tiles t).mc = some m → gangStalled s t = false → shadowOf s t = some u →
    r = m.op.b.maccr + m.row * m.op.b.mstep →
    s1 = spoilRow t r (errorsOf false w) (macResult t (membersOf s t) m.op.b m.row s) →
    s2 = spoilRow u r (errorsOf true w) (macResult u ((membersOf s t).map (· + 1)) m.op.b m.row s1) →
    exec (.rowResultWritten t w) s = .next (
      if m.row + 1 < m.op.b.mrows then onTile t (fun x => { x with mc := some { m with row := m.row + 1 } }) s2 else endMac t m.op s2)) ∧
  (∀ s t f o, packReady s t = some o → arrayFatal (packBad s t o.b) f = true →
    exec (.pack t f) s =
      .next (arrayDies t (unitId 0x03 t) slotPack o.bundle (arrayEcc t (tilePart s t) (packBad s t o.b) f s))) ∧
  (∀ s t f o, packReady s t = some o → arrayFatal (packBad s t o.b) f = false →
    exec (.pack t f) s = .next (packRead t o (arrayEcc t (tilePart s t) (packBad s t o.b) f s))) ∧
  (∀ s t o, packReady s t = some o → packBad s t o.b = [] → packBound (tget s.tiles t) o.b = none → shadowOf s t = none →
    (progOf s t).mode = .off →
    exec (.pack t .clean) s = .next (countConv (unitId 0x03 t) (packConv (tget s.tiles t) o.b)
      { s with tiles := tmod s.tiles t (fun y =>
          let c := packConv (tget s.tiles t) o.b
          { y with pq := y.pq.tail, pk := some { bytes := c.bytes, elems := c.elems.map (fun e => BitVec.ofNat 8 e.x), op := o, passed := true } }) })) ∧
  (∀ s t g k s1, (tget s.tiles t).pk = some k → k.passed = false → (tget s.tiles t).due = none → decidePack t k g s = (none, s1) →
    exec (.plausibilityDecision t g) s = .next { s1 with tiles := tmod s1.tiles t (fun y => { y with pk := some { k with passed := true } }) }) ∧
  (∀ s t g k f s1, (tget s.tiles t).pk = some k → k.passed = false → (tget s.tiles t).due = none → decidePack t k g s = (some f, s1) →
    exec (.plausibilityDecision t g) s = .next (outputFailed t f s1)) ∧
  (∀ s t f k n s1, (tget s.tiles t).pk = some k → k.passed = true → (tget s.tiles t).stalled = false → fatalEcc f = false →
    s1 = countEcc (unitId 0x01 t) f s → n = ((tget s1.tiles t).streams.getD k.op.b.psidx (0, 0)).1 → streamsOpen s1 = true →
    exec (.packOutputWritten t f) s = .next (
      let s2 := askCtx (packUnit t) n (fillCtx n s1)
      if holdsCtx s2 (packUnit t) n then writePack t n k s2 else s2)) ∧
  (∀ s t k f, (tget s.tiles t).pk = some k → k.passed = true → (tget s.tiles t).stalled = false → fatalEcc f = true →
    exec (.packOutputWritten t f) s =
      .next (arrayDies t (packUnit t) slotPack k.op.bundle (countEcc (unitId 0x01 t) f s)))

/-! ### Stream contexts and codec jobs (chapter 04) -/

/-- Stream contexts.  A context that a unit waits for is filled (R111); the unit that has waited longest takes it, once it is resident and
free, after a queued flush and with what the cache's code finds (R110, R418); CONTEXT_BASE completes with every context zero (R112). -/
def Obligations.ContextEvents : Prop :=
  (∀ s n, hasWaiters s n = true → streamsOpen s = true → exec (.contextFill n) s = .next (fillCtx n s)) ∧
  (∀ s u n f, s.cm.waiting.find? (fun w => w.2 == n) = some (u, n) → tget s.cm.holder n = none → resident s n = true →
    exec (.contextAcquire u n f) s =
      .next (takeCtx u n (ctxEcc n stPoisonConsumed (some (tget s.ctxs n).owner) f false (runFlush n s)))) ∧
  (∀ s tk b, s.cm.clearing = some tk → s.cm.base = some b →
    exec .contextBaseComplete s = .next (post tk stOk [] { zeroRange b 0x400000 s with
      ctxs := [], cm := { (zeroRange b 0x400000 s).cm with clearing := none, resident := [] } }))

/-- Codec engines.  A free engine takes the job of its next slice, unless a lower one takes it, and an ordered job asks for its context
(R121).  It starts and does a block of its job, and at the block's end the context goes to those who wait and a slice of 256 blocks ends
(R110, R121, R131); a fence has it try again (R254).  A sizing pass ends in ST_OUTPUT_FULL with the bytes needed, or begins the writing pass
(R128).  A job that has ended is closed, and a program's job writes its result first (R116). -/
def Obligations.CodecEvents : Prop :=
  (∀ s e j, e < 8 → (tget s.engines e).job = none → sliceFor s e = some j → lowestFree s e j = true → j.d.ordered = false → j.didSize = false →
    exec (.codecSliceStart e) s = .next (putJob (j.onto e s)
      { s with engines := tset s.engines e { job := some j.id, slice := 0, lastPart := j.part } })) ∧
  (∀ s e j, e < 8 → (tget s.engines e).job = none → sliceFor s e = some j → lowestFree s e j = true → j.d.ordered = true → j.didSize = false →
    exec (.codecSliceStart e) s = .next (askCtx (engineKey e) j.d.stream (fillCtx j.d.stream (putJob (j.onto e s)
      { s with engines := tset s.engines e { job := some j.id, slice := 0, lastPart := j.part } })))) ∧
  (∀ s e glitch j, (tget s.engines e).job.bind (jobOf s) = some j → blockReady s e j = true → j.pass = .queued →
    (jobStart j s).1.ending.isSome = false →
    exec (.codecBlockDone e glitch) s = .next (blockDone e j (blockWork (jobStart j s).1 glitch (jobStart j s).2) s)) ∧
  (∀ s e glitch j, (tget s.engines e).job.bind (jobOf s) = some j → blockReady s e j = true → j.pass = .queued →
    (jobStart j s).1.ending.isSome = true →
    exec (.codecBlockDone e glitch) s = .next (blockDone e j (jobStart j s) s)) ∧
  (∀ s e glitch j, (tget s.engines e).job.bind (jobOf s) = some j → blockReady s e j = true → j.pass ≠ .queued →
    exec (.codecBlockDone e glitch) s = .next (blockDone e j (blockWork j glitch s) s)) ∧
  (∀ s e j, (tget s.engines e).job.bind (jobOf s) = some j → j.pass = .sized → j.d.dstlen < j.need →
    exec (.sizingPassDone e) s = .next (putJob { j with ending := some stOutputFull, aux := j.need } s)) ∧
  (∀ s e j, (tget s.engines e).job.bind (jobOf s) = some j → j.pass = .sized → j.need ≤ j.d.dstlen →
    exec (.sizingPassDone e) s = .next (putJob
      { j.rewind with pass := .writing, saved := if j.d.ordered then j.saved else j.ownCtx } s)) ∧
  (∀ s e j st, (tget s.engines e).job.bind (jobOf s) = some j → j.ending = some st → j.prog = none →
    exec (.codecJobEnd e) s = .next (closeJob false j st s)) ∧
  (∀ s e j st k t, (tget s.engines e).job.bind (jobOf s) = some j → j.ending = some st → j.prog = some (k, t) →
    (resultGot j s).stop.again j.tries = none →
    exec (.codecJobEnd e) s = .next (jobEndTile j k t (resultStatus j st s) (closeJob false j (resultStatus j st s) s))) ∧
  (∀ s e j st f, (tget s.engines e).job.bind (jobOf s) = some j → j.ending = some st → (resultGot j s).stop.again j.tries = some f →
    exec (.codecJobEnd e) s = .next (putJob { j with tries := j.tries + 1 } (turnedAway j.via (some j.part) f s)))

/-! ### Memory (chapter 06) -/

/-- Memory in time.  A map completes: its new HBM and Loam pages hold zeros, the window is valid, and the final status reports its resident
and spilled pages (R204).  The scrubber reads a word with what waits in it (R208, R422), and the last burst of a pass counts it.  Refresh and
calibration change nothing (R207). -/
def Obligations.MemoryEvents : Prop :=
  (∀ s part win, (tget s.windows (winKey part win)).zeroing = true →
    exec (.windowMapComplete part win) s = .next (
      let w := tget s.windows (winKey part win)
      let t := (zeroedRanges w).foldl (fun u r => zeroRange r.1 r.2 u) s
      post w.ticket stOk [dw w.resident, dw w.spilled]
        { t with windows := tset t.windows (winKey part win) { w with valid := true, zeroing := false, ticket := 0 } })) ∧
  (∀ s unit a found, scrubs s unit a = true →
    exec (.scrubBurst unit a found true) s = .next (bump cntScrubPass unit
      (eccAt a (scrubFinding (surface (latentIn s a 1) s) a found) false (surface (latentIn s a 1) s)))) ∧
  (∀ s unit a found, scrubs s unit a = true →
    exec (.scrubBurst unit a found false) s = .next
      (eccAt a (scrubFinding (surface (latentIn s a 1) s) a found) false (surface (latentIn s a 1) s))) ∧
  (∀ s stack, exec (.hbmRefresh stack) s = .next s) ∧
  (∀ s stack channel, exec (.hbmCalibration stack channel) s = .next s)

/-! ### The on-chip network (chapter 07) -/

/-- Requests at their targets.  A memory or tile that serves an RD answers with RD_DATA, the host interface reads host memory as bus master
and answers when that ends (R212, R232); a WR is written and acknowledged; a TOKEN raises the tile's counter; a SYS configuration access
writes, or reads what was written (R232).  A tile refuses what Table 07.3 forbids (R243), an endpoint that serves no such request refuses it
(the status is the model's, assumption 144), a Peloc port takes what goes over its link, and a fence refuses all requests with its HINT,
counted at the requester's router (R253, R254).  A packet of any unicast type with a bad or damaged header is discarded, and one
for no endpoint misrouted (R245). -/
def Obligations.NocRequests : Prop :=
  (∀ s s0 k d, s0 = spoilWords d.ecc s → wholeAt s0 0x01 0 k d = true → memoryAt (landed k d s0) (asTaken k) = true → levelOf k.addr ≠ .host →
    exec (.rd k d) s = .next (
      let r := readPiece none { dev := k.addr, len := 16 * k.len } (landed k d s0)
      sendPkt (answerPkt (asTaken k) 0x08 0 0 r.1 (toSectors r.2.1)) r.2.2)) ∧
  (∀ s s0 k d h, s0 = spoilWords d.ecc s → wholeAt s0 0x01 0 k d = true → memoryAt (landed k d s0) (asTaken k) = true → levelOf k.addr = .host →
    (landed k d s0).hostSpill = some h → noTransport (landed k d s0) k.addr = false →
    exec (.rd k d) s = .next (hostRead h.fn (h.base + (k.addr - hostBase)) (16 * k.len) (.noc (asTaken k)) (landed k d s0))) ∧
  (∀ s s0 k d, s0 = spoilWords d.ecc s → wholeAt s0 0x01 0 k d = true → memoryAt (landed k d s0) (asTaken k) = true → levelOf k.addr = .host →
    noTransport (landed k d s0) k.addr = true → exec (.rd k d) s = .next (readFailed (asTaken k) (landed k d s0))) ∧
  (∀ s k d, wholeAt s 0x02 0 k d = true → memoryAt (landed k d s) (asTaken k) = true → noTransport (landed k d s) k.addr = false →
    exec (.wr k d) s = .next (sendPkt (answerPkt (asTaken k) 0x09 0 0 [] [])
      (storeWrite k.addr k.data (toGranules (asTaken k).pois) (landed k d s)))) ∧
  (∀ s k d, wholeAt s 0x02 0 k d = true → memoryAt (landed k d s) (asTaken k) = true → noTransport (landed k d s) k.addr = true →
    exec (.wr k d) s = .next (sendPkt (answerPkt (asTaken k) 0x09 0 0 [] [])
      (accessFailed (asTaken k) (storeWrite k.addr k.data (toGranules (asTaken k).pois) (landed k d s))))) ∧
  (∀ s k d t, wholeAt s 0x03 0 k d = true → fenceBefore (landed k d s) (asTaken k) = none → routerTile k.dest = some t →
    isShadow (landed k d s) t = false → k.sys = true ∨ (tget (landed k d s).tiles t).owner = some k.part →
    exec (.token k d) s = .next (addTokens t k.tcnt (k.tval + 1) (sendPkt (answerPkt (asTaken k) 0x09 0 0 [] []) (landed k d s)))) ∧
  (∀ s k d, wholeAt s 0x04 0 k d = true → fenceBefore (landed k d s) (asTaken k) = none → k.sys = true →
    exec (.cfgRd k d) s = .next (
      let bs := (List.range (16 * k.len)).map (cfgByte (landed k d s) (asTaken k))
      sendPkt (answerPkt (asTaken k) 0x08 0 0 bs []) { landed k d s with freeCtr := (landed k d s).freeCtr + 16 * k.len })) ∧
  (∀ s k d, wholeAt s 0x05 0 k d = true → fenceBefore (landed k d s) (asTaken k) = none → k.sys = true →
    exec (.cfgWr k d) s = .next (sendPkt (answerPkt (asTaken k) 0x09 0 0 [] []) (cfgPut (asTaken k) (landed k d s)))) ∧
  (∀ s k d, fenceBefore (landed k d s) (asTaken k) = none → k.sys = false →
    (wholeAt s 0x04 0 k d = true → exec (.cfgRd k d) s = .next (nackPkt (asTaken k) stWindowFault 0 (landed k d s))) ∧
    (wholeAt s 0x05 0 k d = true → exec (.cfgWr k d) s = .next (nackPkt (asTaken k) stWindowFault 0 (landed k d s)))) ∧
  (∀ s k d h, fenceBefore (landed k d s) (asTaken k) = some h →
    (wholeAt s 0x02 0 k d = true → exec (.wr k d) s =
      .next (nackPkt (asTaken k) stDomainFenced h (bump cntNocFenceNack (routerUnit k.src) (landed k d s)))) ∧
    (wholeAt s 0x03 0 k d = true → exec (.token k d) s =
      .next (nackPkt (asTaken k) stDomainFenced h (bump cntNocFenceNack (routerUnit k.src) (landed k d s)))) ∧
    (wholeAt s 0x04 0 k d = true → exec (.cfgRd k d) s =
      .next (nackPkt (asTaken k) stDomainFenced h (bump cntNocFenceNack (routerUnit k.src) (landed k d s)))) ∧
    (wholeAt s 0x05 0 k d = true → exec (.cfgWr k d) s =
      .next (nackPkt (asTaken k) stDomainFenced h (bump cntNocFenceNack (routerUnit k.src) (landed k d s))))) ∧
  (∀ s s0 k d h, s0 = spoilWords d.ecc s → wholeAt s0 0x01 0 k d = true → fenceBefore (landed k d s0) (asTaken k) = some h →
    exec (.rd k d) s = .next (nackPkt (asTaken k) stDomainFenced h (bump cntNocFenceNack (routerUnit k.src) (landed k d s0)))) ∧
  (∀ s k d t st, fenceBefore (landed k d s) (asTaken k) = none → routerTile k.dest = some t →
    tileCheck (landed k d s) t (asTaken k) = st → st ≠ 0 →
    (wholeAt s 0x02 0 k d = true → exec (.wr k d) s = .next (nackPkt (asTaken k) st 0 (landed k d s))) ∧
    (wholeAt s 0x03 0 k d = true → exec (.token k d) s = .next (nackPkt (asTaken k) st 0 (landed k d s)))) ∧
  (∀ s s0 k d t st, s0 = spoilWords d.ecc s → wholeAt s0 0x01 0 k d = true → fenceBefore (landed k d s0) (asTaken k) = none →
    routerTile k.dest = some t → tileCheck (landed k d s0) t (asTaken k) = st → st ≠ 0 →
    exec (.rd k d) s = .next (nackPkt (asTaken k) st 0 (landed k d s0))) ∧
  (∀ s s0 k d p mk, (k.typ, mk) ∈ [(0x01, Instr.rd), (0x02, Instr.wr), (0x03, Instr.token)] →
    s0 = (if k.typ = 0x01 then spoilWords d.ecc s else s) → wholeAt s0 k.typ 0 k d = true →
    fenceBefore (landed k d s0) (asTaken k) = none → routerTile k.dest = none → k.dport = 2 → routerPeloc k.dest = some p →
    exec (mk k d) s = .next (chipToPort p (asTaken k) (landed k d s0))) ∧
  (∀ s s0 k d mk, (k.typ, mk) ∈ [(0x01, Instr.rd), (0x02, Instr.wr), (0x03, Instr.token)] →
    s0 = (if k.typ = 0x01 then spoilWords d.ecc s else s) → wholeAt s0 k.typ 0 k d = true →
    fenceBefore (landed k d s0) (asTaken k) = none → routerTile k.dest = none → k.dport ≠ 2 →
    k.typ = 0x03 ∨ placeOf k.addr ≠ (k.dest, k.dport) ∨ levelOf k.addr = .nothing →
    exec (mk k d) s = .next (nackPkt (asTaken k) stWindowFault 0 (landed k d s0))) ∧
  (∀ s s0 k d a t mk, (k.typ, mk) ∈ [(0x01, Instr.rd), (0x02, Instr.wr), (0x03, Instr.token), (0x04, Instr.cfgRd), (0x05, Instr.cfgWr),
      (0x08, Instr.rdData), (0x09, Instr.wrAck), (0x0A, Instr.nack), (0x0B, Instr.mcGrant), (0x0C, Instr.mcResult)] →
    s0 = (if k.typ = 0x01 then spoilWords d.ecc s else s) → arrive k d s0 = (a, t) → a.came = true →
    (99 < k.dest → exec (mk k d) s = .next (dropPkt k.src (bump cntNocMisroute (routerUnit k.src) t))) ∧
    (k.dest ≤ 99 → localPort k.dest k.dport = false →
      exec (mk k d) s = .next (dropPkt k.dest (bump cntNocMisroute (routerUnit k.dest) t))) ∧
    (k.dest ≤ 99 → localPort k.dest k.dport = true → badHeader k = true → exec (mk k d) s = .next (dropPkt k.dest t)) ∧
    (k.dest ≤ 99 → localPort k.dest k.dport = true → badHeader k = false → a.real.header = true ∨ a.forced.header = true →
      exec (mk k d) s = .next (dropPkt k.dest (parityRec a.k k.dest 0 (!a.real.header) t))))

/-- Responses at their requester, and its timers.  Data and acknowledgements end the request (R242); a NACK of a fence whose return is in view
holds it back for a retry, at most 16 times, and any other ends its job (R254); a response that answers nothing is counted (R246).  A timer
that expires delivers poison to a read and ends anything else with ST_NOC_TIMEOUT (R246), and a retry sends the request again once no fence
stands at its source (R253, R254). -/
def Obligations.NocResponses : Prop :=
  (∀ s k d x, wholeAt s 0x08 1 k d = true → reqOf (landed k d s) k.dest k.dport k.tag = some x → x.pkt.typ = 0x01 ∨ x.pkt.typ = 0x04 →
    exec (.rdData k d) s = .next (readCame x k.data (payloadMarks (asTaken k) k.data.length) (dropReq k.dest k.dport k.tag (landed k d s)))) ∧
  (∀ s k d x, wholeAt s 0x09 1 k d = true → reqOf (landed k d s) k.dest k.dport k.tag = some x →
    x.pkt.typ = 0x02 ∨ x.pkt.typ = 0x03 ∨ x.pkt.typ = 0x05 →
    exec (.wrAck k d) s = .next (ackCame x (dropReq k.dest k.dport k.tag (landed k d s)))) ∧
  (∀ s k d x, wholeAt s 0x0A 1 k d = true → reqOf (landed k d s) k.dest k.dport k.tag = some x →
    k.status = stDomainFenced → k.hint ≠ 0xFFFF → x.attempts < 16 →
    exec (.nack k d) s = .next { landed k d s with
      reqs := (landed k d s).reqs.map (fun y => if y = x then { y with backoff := some k.hint } else y) }) ∧
  (∀ s k d x, wholeAt s 0x0A 1 k d = true → reqOf (landed k d s) k.dest k.dport k.tag = some x →
    k.status ≠ stDomainFenced ∨ k.hint = 0xFFFF ∨ 16 ≤ x.attempts →
    exec (.nack k d) s = .next (failReq x k.status k.hint (dropReq k.dest k.dport k.tag (landed k d s)))) ∧
  (∀ s k d, reqOf (landed k d s) k.dest k.dport k.tag = none →
    (wholeAt s 0x08 1 k d = true → exec (.rdData k d) s = .next (bump cntNocLate (routerUnit k.dest) (landed k d s))) ∧
    (wholeAt s 0x09 1 k d = true → exec (.wrAck k d) s = .next (bump cntNocLate (routerUnit k.dest) (landed k d s))) ∧
    (wholeAt s 0x0A 1 k d = true → exec (.nack k d) s = .next (bump cntNocLate (routerUnit k.dest) (landed k d s)))) ∧
  (∀ s r q tag x, reqOf s r q tag = some x → timed x.pkt = true → x.backoff = none → x.pkt.typ = 0x01 →
    exec (.requestTimeout r q tag) s = .next (readCame x (List.replicate (16 * x.pkt.len) 0) (List.range x.pkt.len)
      (bump cntNocTimeout (routerUnit r) (dropReq r q tag s)))) ∧
  (∀ s r q tag x, reqOf s r q tag = some x → timed x.pkt = true → x.backoff = none → x.pkt.typ ≠ 0x01 →
    exec (.requestTimeout r q tag) s = .next (failReq x stNocTimeout 0 (bump cntNocTimeout (routerUnit r) (dropReq r q tag s)))) ∧
  (∀ s r q tag m, reqOf s r q tag = none → sendAt s r q = some m → m.tag = tag → m.granted = false →
    exec (.requestTimeout r q tag) s = .next (
      let late := (maskTiles m.mask).filter (fun i => tget m.grants i == 0)
      onMc r q tag (fun x => { x with grants := late.foldl (fun g i => tset g i (reasonTimeout + 1)) x.grants })
        (sendPkt (abortPkt m r q (tilesMask late)) (bumpBy cntNocTimeout (routerUnit r) late.length s)))) ∧
  (∀ s r q tag m, reqOf s r q tag = none → sendAt s r q = some m → m.tag = tag → m.granted = true → m.sent = true →
    exec (.requestTimeout r q tag) s = .next (
      let late := (maskTiles m.mask).filter (fun i => tget m.grants i == 1 && tget m.results i == 0)
      onMc r q tag (fun x => { x with results := late.foldl (fun g i => tset g i (reasonTimeout + 1)) x.results })
        (bumpBy cntNocTimeout (routerUnit r) late.length s))) ∧
  (∀ s r q tag x, reqOf s r q tag = some x → x.backoff.isSome = true → srcFenced s x.pkt = false →
    exec (.fenceRetry r q tag) s = .next (sendPkt x.pkt
      { s with reqs := s.reqs.map (fun y => if y = x then { y with backoff := none, attempts := y.attempts + 1 } else y) }))

/-- On-chip multicasts.  A reserve is granted or refused by Table 07.11's checks at each tile of its mask, or waits behind another; the
grants and results reach the sender (R248); the data gather in the landing buffer, and what has no place there is discarded (R250, with the
MASK of assumption 160); the commit writes the store and answers, unless the tile has another owner (R249, R256, R257); an abort and a
landing that never completes free the buffer (R251, R258); tokens go to the delivered tiles (R232). -/
def Obligations.Multicast : Prop :=
  (∀ s k d, wholeAtMask s 0x10 k d = true → exec (.mcReserve k d) s = .next ((maskTiles k.mask).foldl (fun u t =>
    if reserveReason u t (asTaken k) = 0 ∧ (tget u.tiles t).landing.isSome = true then
      bump cntMcastWait (unitId 0x01 t) (onTile t (fun x => { x with landq := x.landq ++ [asTaken k] }) u)
    else answerReserve t (asTaken k) u) (landed k d s))) ∧
  (∀ s k d t, wholeAtTile s 0x10 k d t = true → (tget (landed k d s).tiles t).landing = none →
    exec (.mcReserve k d) s = .next (answerReserve t (asTaken k) (landed k d s))) ∧
  (∀ s k d m t, wholeAt s 0x0B 1 k d = true → sendAt (landed k d s) k.dest k.dport = some m → routerTile k.src = some t → m.tag = k.tag →
    m.mask.getLsbD t = true → tget m.grants t = 0 →
    exec (.mcGrant k d) s = .next (onMc k.dest k.dport k.tag (fun m => { m with grants := tset m.grants t (k.reason + 1) }) (landed k d s))) ∧
  (∀ s k d m t, wholeAt s 0x0C 1 k d = true → sendAt (landed k d s) k.dest k.dport = some m → routerTile k.src = some t → m.tag = k.tag →
    tget m.grants t = 1 → tget m.results t = 0 →
    exec (.mcResult k d) s = .next (onMc k.dest k.dport k.tag (fun m => { m with results := tset m.results t (k.reason + 1) }) (landed k d s))) ∧
  (∀ s k d, sendAt (landed k d s) k.dest k.dport = none →
    (wholeAt s 0x0B 1 k d = true → exec (.mcGrant k d) s = .next (bump cntNocLate (routerUnit k.dest) (landed k d s))) ∧
    (wholeAt s 0x0C 1 k d = true → exec (.mcResult k d) s = .next (bump cntNocLate (routerUnit k.dest) (landed k d s)))) ∧
  (∀ s k d t l, wholeAtTile s 0x11 k d t = true → (tget (landed k d s).tiles t).landing = some l → l.of (asTaken k) = true → l.off ≤ k.addr →
    (k.addr - l.off) / 16 + k.len ≤ l.total → (∀ g, g < k.len → l.got.contains ((k.addr - l.off) / 16 + g) = false) →
    exec (.mcData k d) s = .next (
      let g0 := (k.addr - l.off) / 16
      let got := ((List.range k.len).map (· + g0)).foldl sput l.got
      onTile t (fun x => { x with landing := some { l with
        got := got, data := putBytes l.data (16 * g0) k.data, whole := got.length == l.total
        pois := l.pois ++ (payloadMarks (asTaken k) (16 * k.len)).map (· + g0) } }) (landed k d s))) ∧
  (∀ s k d t, wholeAtTile s 0x11 k d t = true → (tget (landed k d s).tiles t).landing = none →
    exec (.mcData k d) s = .next (dropPkt (tileRouter t) (landed k d s))) ∧
  (∀ s k d t l, wholeAtTile s 0x11 k d t = true → (tget (landed k d s).tiles t).landing = some l →
    l.of (asTaken k) = false ∨ k.addr < l.off ∨ l.total < (k.addr - l.off) / 16 + k.len →
    exec (.mcData k d) s = .next (dropPkt (tileRouter t) (landed k d s))) ∧
  (∀ s k d, wholeAtMask s 0x12 k d = true → exec (.mcAbort k d) s = .next ((maskTiles k.mask).foldl (fun u t =>
    let v := onTile t (fun x => { x with landq := x.landq.filter (fun q => !(q.src == k.src && q.sport == k.sport && q.tag == k.tag)) }) u
    match (tget v.tiles t).landing with
    | some l => if l.of (asTaken k) && !l.whole then freeLanding t v else v
    | none => v) (landed k d s))) ∧
  (∀ s k d, wholeAtMask s 0x13 k d = true → exec (.mcToken k d) s = .next ((maskTiles k.mask).foldl (fun u t =>
    if (tget u.tiles t).owner = some k.part then addTokens t k.tcnt (k.tval + 1) u else u) (landed k d s))) ∧
  (∀ s t l, (tget s.tiles t).landing = some l → l.whole = true → (tget s.tiles t).owner = some l.part →
    exec (.mcastCommitDone t) s = .next (sendPkt (mcAnswer t 0x0C 0 l.src l.sport l.part l.tag l.sys) (freeLanding t (commitLanding t l s)))) ∧
  (∀ s t l, (tget s.tiles t).landing = some l → l.whole = true → (tget s.tiles t).owner ≠ some l.part →
    exec (.mcastCommitDone t) s = .next (sendPkt (mcAnswer t 0x0C reasonNotOwned l.src l.sport l.part l.tag l.sys) (freeLanding t s))) ∧
  (∀ s t l, (tget s.tiles t).landing = some l → l.whole = false → exec (.mcastLandingTimeout t) s = .next (freeLanding t s))

/-- A fenced domain that has drained is switched off with a POWER_DOWN record and its ticket's final status, a quadrant's loop suspended and a
Peloc port DOWN with reason OFF (R253, R301, R526); a waking one has its endpoints reset, a SYNC record, its fence lowered, and the waiting
tickets answered (R255, R521, Table 07.12). -/
def Obligations.DomainEvents : Prop :=
  (∀ s d tk, (tget s.doms d).offTk = some tk → (tget s.doms d).fenced = true → (tget s.doms d).on = true → domainQuiet s d = true →
    exec (.domainDrained d) s = .next (
      let s1 := owlNote ([dw (0x3 + 2 ^ 16 * d), dw s.timebase] ++ timeDws s.timebase ++ [dw (domainProbes s d), 0, 0, 0]) s
      let s2 := onDom d (fun m => { m with on := false, offTk := none }) s1
      post tk stOk [] (if d < 4 then suspendLoop d s2 else portDown (d - 0x10) downOff true s2))) ∧
  (∀ s d, (tget s.doms d).on = false → (tget s.doms d).onTks ≠ [] →
    exec (.domainWake d) s = .next (
      let s1 := wakeEndpoints d s
      let s2 := owlNote (syncRecord 1 d (domainProbes s1 d) s1.timebase) s1
      let s3 := applyWaiting d (onDom d (fun m => { m with on := true, fenced := false, onTks := [] }) s2)
      (tget s.doms d).onTks.foldl (fun u tk => post tk stOk [] u) (if d < 4 then resumeLoop d s3 else s3)))

/-! ### Peloc Link (chapter 08) -/

/-- Flits.  A good one acknowledges and brings credit; one in sequence is taken, and acknowledged by the next flit that leaves; one ahead of it
is met with a NAK, and a duplicate is dropped (R284, R285).  A bad one is counted, and is met with a NAK where it would have been sequenced
(R270, R285).  A NAK replays from its ACK + 1, unless that replay is under way, and so does the timer (R286, R303); after 16 without progress
the port goes DOWN. -/
def Obligations.Flits : Prop :=
  (∀ s p raw d f, listens s p = true → flitBad raw d = false → f = parseFlit raw → f.kind = 0 →
    exec (.flitIdle p raw d) s = .next (takeAck p f (countFlit p false d s))) ∧
  (∀ s p raw d, listens s p = true → flitBad raw d = true →
    exec (.flitIdle p raw d) s = .next (countFlit p true d s) ∧
    exec (.flitNak p raw d) s = .next (countFlit p true d s) ∧
    exec (.flitData p raw d) s = .next (sendNak p (countFlit p true d s)) ∧
    exec (.flitCtrl p raw d) s = .next (sendNak p (countFlit p true d s))) ∧
  (∀ s p raw d f t, listens s p = true → flitBad raw d = false → f = parseFlit raw → t = takeAck p f (countFlit p false d s) →
    (tget t.pel p).arrival f.seq = .expected →
    (f.kind = 1 → exec (.flitData p raw d) s = .next (catchUp p (takeData p f (onPel p (fun x => { x with rxSeq := f.seq, nakSent := false }) t)))) ∧
    (f.kind = 3 → exec (.flitCtrl p raw d) s = .next (catchUp p (takeCtrl p f.body (onPel p (fun x => { x with rxSeq := f.seq, nakSent := false }) t))))) ∧
  (∀ s p raw d f t, listens s p = true → flitBad raw d = false → f = parseFlit raw → t = takeAck p f (countFlit p false d s) →
    (tget t.pel p).arrival f.seq = .ahead →
    (f.kind = 1 → exec (.flitData p raw d) s = .next (sendNak p t)) ∧ (f.kind = 3 → exec (.flitCtrl p raw d) s = .next (sendNak p t))) ∧
  (∀ s p raw d f t, listens s p = true → flitBad raw d = false → f = parseFlit raw → t = takeAck p f (countFlit p false d s) →
    (tget t.pel p).arrival f.seq = .duplicate →
    (f.kind = 1 → exec (.flitData p raw d) s = .next t) ∧ (f.kind = 3 → exec (.flitCtrl p raw d) s = .next t)) ∧
  (∀ s p raw d f t, listens s p = true → flitBad raw d = false → f = parseFlit raw → f.kind = 2 →
    t = onPel p (fun x => { x.acked f.ack with txCredit := tset x.txCredit f.crvc f.crtot }) (countFlit p false d s) →
    (replayingFrom t p ((f.ack + 1) % 4096) = false → exec (.flitNak p raw d) s = .next (pump p (replayDue p t))) ∧
    (replayingFrom t p ((f.ack + 1) % 4096) = true → exec (.flitNak p raw d) s = .next (pump p t))) ∧
  (∀ s p, listens s p = true → (tget s.pel p).replay ≠ [] → (tget s.pel p).replays < 16 →
    exec (.replayTimer p) s = .next (replayAll p s)) ∧
  (∀ s p, listens s p = true → (tget s.pel p).replay ≠ [] → 16 ≤ (tget s.pel p).replays →
    exec (.replayTimer p) s = .next (portDown p downRetry false s))

/-- Link-control messages are acted on in their order (Table 08.8): a HELLO of a peer that the port accepts is answered, and a HELLO_ACK brings
the port up, another fails the training (R282, R283); a port asked to sleep agrees or not, and enters SLEEP once both have agreed (R299, R306,
R307); DEGRADE names the width and frame of the transmit direction's switch (R298); DOWN_NOTICE brings the port down (R302). -/
def Obligations.LinkControl : Prop :=
  (∀ s p m t, inHello s p = true → frontCtrl s p 1 = some m → t = onPel p (fun x => { x with ctrl := x.ctrl.tail }) s →
    (helloOk m = true → exec (.hello p) s = .next (sendCtrl p (helloMsg t p 2) (onPel p (fun x => { x with peer := m }) t))) ∧
    (helloOk m = false → exec (.hello p) s = .next (trainFail p stLinkTrainFailed downTrain true t))) ∧
  (∀ s p m t, inHello s p = true → frontCtrl s p 2 = some m → t = onPel p (fun x => { x with ctrl := x.ctrl.tail }) s →
    (helloOk m = true → exec (.helloAck p) s = .next (linkUp p (onPel p (fun x => { x with peer := m }) t))) ∧
    (helloOk m = false → exec (.helloAck p) s = .next (trainFail p stLinkTrainFailed downTrain true t))) ∧
  (∀ s p m t, (tget s.pel p).st = .active → frontCtrl s p 3 = some m → t = onPel p (fun x => { x with ctrl := x.ctrl.tail }) s →
    ((tget t.pel p).sleepReq = true → exec (.sleepReq p) s = .next (enterSleep p t)) ∧
    ((tget t.pel p).sleepReq = false → (tget t.pel p).cfg.sleepidle ≠ 0 → (tget t.pel p).degRx = none → portQuiet t p = true →
      exec (.sleepReq p) s = .next (enterSleep p (sendCtrl p [4] t))) ∧
    ((tget t.pel p).sleepReq = false → (tget t.pel p).cfg.sleepidle = 0 ∨ (tget t.pel p).degRx ≠ none ∨ portQuiet t p = false →
      exec (.sleepReq p) s = .next (sendCtrl p [5] t))) ∧
  (∀ s p m t, (tget s.pel p).st = .active → frontCtrl s p 4 = some m → t = onPel p (fun x => { x with ctrl := x.ctrl.tail }) s →
    (tget t.pel p).sleepReq = true → exec (.sleepAck p) s = .next (enterSleep p t)) ∧
  (∀ s p m, frontCtrl s p 5 = some m →
    exec (.sleepNak p) s = .next (onPel p (fun x => { x with sleepReq := false }) (onPel p (fun x => { x with ctrl := x.ctrl.tail }) s))) ∧
  (∀ s p m, (tget s.pel p).st = .active → frontCtrl s p 6 = some m → (m.getD 1 0).toNat = 1 ∨ (m.getD 1 0).toNat = 2 →
    exec (.degrade p) s = .next (onPel p (fun x => { x with degTx := some ((m.getD 1 0).toNat, (m.getD 2 0).toNat) })
      (onPel p (fun x => { x with ctrl := x.ctrl.tail }) s))) ∧
  (∀ s p m, frontCtrl s p 7 = some m →
    exec (.downNotice p) s = .next (trainFail p stLinkTrainFailed downPeer false (onPel p (fun x => { x with ctrl := x.ctrl.tail }) s)))

/-- Training and lanes.  A frame is heard on its lane and the training goes on as far as the lanes allow (R279, R282); a deadline fails the lanes
that are behind, and the training unless four lanes suffice (R283); no peer ends it.  Four good frame words give lock: training sends HELLO, and
a waking port is ACTIVE again (R268, R282, R299); a loss of lock brings the port down (R276).  A lane's fault has the receive direction go to
four lanes, by a DEGRADE message that names the frame (open within the bound of R298, assumption 63), or brings the port down; at that frame
the direction switches (R298). -/
def Obligations.LinkTraining : Prop :=
  (∀ s p l f, (tget s.pel p).st = .training → (tget s.pel p).step ≤ 2 → l < 8 →
    exec (.trainingFrame p l f) s =
      .next (trainOn p (onPel p (fun y => { y with lanes := tmod y.lanes l (fun q => q.hear p l y.step f) }) s))) ∧
  (∀ s p x x1, tget s.pel p = x → x.st = .training → x.step = 1 ∨ x.step = 2 →
    x1 = { x with lanes := (List.range 8).foldl (fun m l => tmod m l (fun q =>
      if (if x.step = 1 then laneLocked q else laneReady q) then q else { q with failed := true })) x.lanes } →
    (x1.hopeless = false → exec (.trainingStepDeadline p) s = .next (trainOn p (onPel p (fun _ => x1) s))) ∧
    (x1.hopeless = true → exec (.trainingStepDeadline p) s = .next (trainFail p stLinkTrainFailed downTrain false s))) ∧
  (∀ s p, (tget s.pel p).st = .training → 3 ≤ (tget s.pel p).step →
    exec (.trainingStepDeadline p) s = .next (trainFail p stLinkTrainFailed downTrain false s)) ∧
  (∀ s p, (tget s.pel p).st = .training → (tget s.pel p).step = 0 →
    exec (.peerWaitExpiry p) s = .next (trainFail p stLinkNoPeer downNoPeer false s)) ∧
  (∀ s p ws rev, givesLock ws = true → (tget s.pel p).st = .training → (tget s.pel p).step = 3 → (tget s.pel p).order = some rev →
    exec (.frameLock ⟨p, ws⟩) s = .next (sendCtrl p (helloMsg s p 1)
      (onPel p (fun y => { y.renumber rev with step := 4, frameLock := true, txSeq := 0, rxSeq := 0 }) s))) ∧
  (∀ s p ws, givesLock ws = true → (tget s.pel p).st = .sleep → (tget s.pel p).waking = true →
    exec (.frameLock ⟨p, ws⟩) s = .next (pump p (linkChange p (onPel p (fun y => { y with st := .active, waking := false, frameLock := true }) s)))) ∧
  (∀ s p ws, losesLock ws = true → (tget s.pel p).st = .active → exec (.frameLockLoss ⟨p, ws⟩) s = .next (portDown p downFrame false s)) ∧
  (∀ s p l lost fcnt x x1, tget s.pel p = x → x.st = .active → x.usesLane l = true → laneBad s p l lost = true →
    x1 = { x with lanes := tmod x.lanes l (fun q => { q with failed := true }), sleepReq := false } →
    (x.live.degauto = false ∨ x.live.wmin = false ∨ x.rxWidth ≠ 0 ∨ x1.half (1 - l / 4) (fun q => !q.failed) = false →
      exec (.laneFault p ⟨l, lost, fcnt⟩) s = .next (portDown p downLanes false (onPel p (fun _ => x1) s))) ∧
    (x.live.degauto = true → x.live.wmin = true → x.rxWidth = 0 → x1.half (1 - l / 4) (fun q => !q.failed) = true → x.degRx = none →
      ∃ n, n < 256 ∧ 16 ≤ (n + 256 - fcnt % 256) % 256 ∧ exec (.laneFault p ⟨l, lost, fcnt⟩) s = .next (
        sendCtrl p [6, BitVec.ofNat 8 (1 - l / 4 + 1), BitVec.ofNat 8 n]
          (drawFree (onPel p (fun y => { y with degRx := some (1 - l / 4 + 1, n) }) (onPel p (fun _ => x1) s)))))) ∧
  (∀ s p w n, (tget s.pel p).degRx = some (w, n) →
    exec (.widthSwitch ⟨p, false, n⟩) s = .next (switched p w (onPel p (fun y => { y with rxWidth := w, degRx := none }) s))) ∧
  (∀ s p w n, (tget s.pel p).degTx = some (w, n) →
    exec (.widthSwitch ⟨p, true, n⟩) s = .next (switched p w (onPel p (fun y => { y with txWidth := w, degTx := none }) s)))

/-- Sleep, wake and recalibration.  An idle port asks for sleep, one that is to wake counts it and drops its lock, and a wake that takes too long
brings it down (R299); a recalibration step is counted, and LINK_RECAL completes with its steps counted, at least one (R300; how many is open,
assumption 3). -/
def Obligations.LinkPower : Prop :=
  (∀ s p, (tget s.pel p).st = .active → (tget s.pel p).cfg.sleepidle ≠ 0 → (tget s.pel p).sleepReq = false → portQuiet s p = true →
    exec (.sleepIdleTimer p) s = .next (sendCtrl p [3] (onPel p (fun y => { y with sleepReq := true }) s))) ∧
  (∀ s p, (tget s.pel p).st = .sleep → (tget s.pel p).waking = false →
    exec (.wake p) s = .next (bump cntPelocWake (pelUnit p) (onPel p (fun y => { y with waking := true, frameLock := false }) s))) ∧
  (∀ s p, (tget s.pel p).st = .sleep → (tget s.pel p).waking = true → exec (.wakeTimeout p) s = .next (portDown p downWake false s)) ∧
  (∀ s p, (tget s.pel p).st = .active → (tget s.pel p).live.recal = true →
    exec (.recalStep p) s = .next (bump cntPelocRecal (pelUnit p) s)) ∧
  (∀ s p t r, (tget s.pel p).recalTks = t :: r →
    ∃ n, 1 ≤ n ∧ exec (.linkRecalComplete p) s = .next (post t stOk []
      (bumpBy cntPelocRecal (pelUnit p) n (drawFree (onPel p (fun x => { x with recalTks := r }) s)))))

/-- Transactions of a port.  One that Table 08.2 refuses, under what was in force when its first flit came, is answered with a NACK of the
failed check's status; any other goes to the chip, and its flits stay in the receive buffer until its requests have left (R267, R287, R290,
R292, R294).  Responses end the outbound transaction they answer (R289); a timer expires unless a response has come (R291, R304); a push ends
with its counts (R293). -/
def Obligations.PelocTransactions : Prop :=
  (∀ s p t st h, inboundStatus s t = st → st ≠ 0 → h = (if st = stDomainFenced then t.gate.fence.getD 0 else 0) →
    (frontTx s p ttRd = some t → exec (.pelocRd p) s = .next (refuseTx p t st h (takeTx p t s))) ∧
    (frontTx s p ttWr = some t → exec (.pelocWr p) s = .next (refuseTx p t st h (takeTx p t s))) ∧
    (frontTx s p ttToken = some t → exec (.pelocToken p) s = .next (refuseTx p t st h (takeTx p t s))) ∧
    (frontTx s p ttPush = some t → exec (.blockPush p) s = .next (refuseTx p t st h (takeTx p t s)))) ∧
  (∀ s p t, inboundStatus s t = 0 →
    (frontTx s p ttRd = some t → exec (.pelocRd p) s = .next (startInbound p t (pullTx p t s))) ∧
    (frontTx s p ttWr = some t → exec (.pelocWr p) s = .next (startInbound p t (pullTx p t s))) ∧
    (frontTx s p ttToken = some t → exec (.pelocToken p) s = .next (startInbound p t (pullTx p t s))) ∧
    (frontTx s p ttPush = some t → exec (.blockPush p) s = .next (startInbound p t (pullTx p t s)))) ∧
  (∀ s p t k, frontTx s p ttRdData = some t → (tget (tget s.pel p).out t.tag).live = true → (tget (tget s.pel p).out t.tag).ttype = ttRd →
    (tget (tget s.pel p).out t.tag).why = .chip k →
    exec (.pelocRdData p) s = .next (pumpPushes p (readReturned k t (dropOut p t.tag (takeTx p t s))))) ∧
  (∀ s p t k, frontTx s p ttAck = some t → (tget (tget s.pel p).out t.tag).live = true →
    (tget (tget s.pel p).out t.tag).ttype = ttWr ∨ (tget (tget s.pel p).out t.tag).ttype = ttToken →
    (tget (tget s.pel p).out t.tag).why = .chip k →
    exec (.pelocAck p) s = .next (pumpPushes p (sendPkt (answerPkt k 0x09 0 0 [] []) (pageWritten k (dropOut p t.tag (takeTx p t s)))))) ∧
  (∀ s p t id b n, frontTx s p ttAck = some t → (tget (tget s.pel p).out t.tag).live = true → (tget (tget s.pel p).out t.tag).ttype = ttPush →
    (tget (tget s.pel p).out t.tag).why = .push id b n →
    exec (.pelocAck p) s = .next (pumpPushes p (onPush p id (fun q =>
      { q with flying := q.flying - 1, pushed := q.pushed + 1, bytes := q.bytes + n }) (dropOut p t.tag (takeTx p t s))))) ∧
  (∀ s p t, frontTx s p ttNack = some t → (tget (tget s.pel p).out t.tag).live = true →
    (tget (tget s.pel p).out t.tag).ttype ∈ [ttRd, ttWr, ttToken, ttPush] →
    exec (.pelocNack p) s = .next (pumpPushes p (failOut p t.tag t.status t.hint (takeTx p t s)))) ∧
  (∀ s p t, (tget (tget s.pel p).out t.tag).live = false →
    (frontTx s p ttRdData = some t → exec (.pelocRdData p) s = .next (takeTx p t s)) ∧
    (frontTx s p ttAck = some t → exec (.pelocAck p) s = .next (takeTx p t s)) ∧
    (frontTx s p ttNack = some t → exec (.pelocNack p) s = .next (takeTx p t s))) ∧
  (∀ s p tag, (tget (tget s.pel p).out tag).live = true → hasAnswer s p tag = false →
    exec (.pelocTimeout p tag) s = .next (pumpPushes p (failOut p tag stPelocTimeout 0 (bump cntPelocTimeout (pelUnit p) s)))) ∧
  (∀ s p q, (tget s.pel p).pushes.find? (fun q => q.flying == 0 && (q.failed.isSome || q.left == 0)) = some q →
    exec (.linkPushComplete p) s = .next (post q.ticket
      (if q.failed.isSome then q.status else if q.poisoned ≠ 0 then stPoisonPropagated else stOk)
      [dw q.pushed, dw q.bytes, dw (q.failed.getD 0xFFFFFFFF)]
      (poisonPropagated q.part q.poisoned (onPel p (fun x => { x with pushes := x.pushes.erase q }) s))))

/-- Link multicasts at a node.  A reserve is granted and forwarded, or refused with the first failed reason, for the rest of the subtree too;
grants and results go up or are taken by the root (R296); the data gather, and land once they are whole; an abort and the timer give up
(R296, Table 08.17).  A segment or an abort that checks 1 or 2 of Table 08.2 refuse is answered with a NACK (R267). -/
def Obligations.LinkMulticastEvents : Prop :=
  (∀ s p t, frontTx s p ttReserve = some t → reserveRefusal s p t = 0 →
    exec (.lmcReserve p) s = .next (
      let g := tget s.groups t.rtile
      let s2 := onPel p (fun x => { x with lmc := some { group := t.rtile, total := t.nmask } }) (takeTx p t s)
      let s3 := onGroup t.rtile (fun h => { h with run := some { total := t.nmask, granted := 2 ^ g.node } }) s2
      g.children.foldl (fun u q => sendTx q { ttype := ttReserve, lch := g.lch, rtile := t.rtile, nmask := t.nmask } u)
        (sendGrant p t.lch t.rtile (2 ^ g.node) 0 s3))) ∧
  (∀ s p t why, frontTx s p ttReserve = some t → reserveRefusal s p t = why → why ≠ 0 →
    exec (.lmcReserve p) s = .next (
      let g := tget s.groups t.rtile
      let own := 2 ^ g.node
      let s2 := if reserveCounts t then bump cntPelocInboundRefused (pelUnit p) (takeTx p t s) else takeTx p t s
      let s3 := sendGrant p t.lch t.rtile own why s2
      let rest := g.subtree ^^^ (g.subtree &&& own)
      if rest = 0 then s3 else sendGrant p t.lch t.rtile rest lmcUpstream s3)) ∧
  (∀ s p t, frontTx s p ttGrant = some t → fromChild (tget s.groups t.rtile) p = true →
    exec (.lmcGrant p) s = .next (
      let s2 := onRun t.rtile (fun r => r.grant p t.nmask t.reason) (takeTx p t s)
      if (tget s.groups t.rtile).root then lmcProceed t.rtile s2 else sendTx (tget s.groups t.rtile).parent { t with tag := 0 } s2)) ∧
  (∀ s p t b, frontTx s p ttLmcData = some t → t.barred = 0 → (tget s.pel p).lmc = some b → b.group = t.rtile → b.whole = false →
    (b.take t).full = false →
    exec (.lmcData p) s = .next (onPel p (fun x => { x with lmc := some (b.take t) }) (takeTx p t s))) ∧
  (∀ s p t b tag, frontTx s p ttLmcData = some t → t.barred = 0 → (tget s.pel p).lmc = some b → b.group = t.rtile → b.whole = false →
    (b.take t).full = true → freeTag s (pelocRouter p) 2 = some tag →
    exec (.lmcData p) s = .next (lmcLand p tag (b.take t) (takeTx p t s))) ∧
  (∀ s p t, t.barred ≠ 0 →
    (frontTx s p ttLmcData = some t → exec (.lmcData p) s = .next (refuseTx p t t.barred (t.gate.fence.getD 0) (takeTx p t s))) ∧
    (frontTx s p ttAbort = some t → exec (.lmcAbort p) s = .next (refuseTx p t t.barred (t.gate.fence.getD 0) (takeTx p t s)))) ∧
  (∀ s p t, frontTx s p ttResult = some t → fromChild (tget s.groups t.rtile) p = true → (tget s.groups t.rtile).root = true →
    exec (.lmcResult p) s = .next (lmcProceed t.rtile (onRun t.rtile (fun r => r.result t) (takeTx p t s)))) ∧
  (∀ s p t, frontTx s p ttResult = some t → fromChild (tget s.groups t.rtile) p = true → (tget s.groups t.rtile).root = false →
    exec (.lmcResult p) s = .next (onGroup t.rtile (fun h => { h with run := match h.run with
      | some r => if maskIn r.granted r.answered then none else some r
      | none => none }) (sendTx (tget s.groups t.rtile).parent { t with tag := 0 } (onRun t.rtile (fun r => r.result t) (takeTx p t s))))) ∧
  (∀ s p t, frontTx s p ttAbort = some t → t.barred = 0 → (tget s.groups t.rtile).valid = true → (tget s.groups t.rtile).parent = p →
    (tget s.groups t.rtile).root = false →
    exec (.lmcAbort p) s = .next (sendAborts t.rtile t.nmask
      (if t.nmask.testBit (tget s.groups t.rtile).node then lmcDrop false t.rtile (takeTx p t s) else takeTx p t s))) ∧
  (∀ s k r, (tget s.groups k).run = some r → r.root = true → r.dataSent = true →
    exec (.lmcTimeout k) s = .next (lmcClose k 0 reasonTimeout s)) ∧
  (∀ s k r, (tget s.groups k).run = some r → r.root = true → r.dataSent = false →
    exec (.lmcTimeout k) s = .next (lmcClose k 0 reasonTimeout (sendAborts k (tget s.groups k).subtree (onRun k (fun q =>
      let near := (maskNodes q.granted).filter (fun n => !q.lost.testBit n)
      { q with
        ents := near.foldl (fun m n => tset m n { tget m n with reason := reasonAborted }) q.ents
        refused := q.refused ||| bitSum near }) s)))) ∧
  (∀ s k r, (tget s.groups k).run = some r → r.root = false →
    (∀ p ∈ lmcPorts s k, ∀ b, (tget s.pel p).lmc = some b → b.whole = false) →
    exec (.lmcTimeout k) s = .next (onGroup k (fun h => { h with run := none }) (lmcDrop false k s)))

/-! ### Kestrel and the board (chapters 13 and 16) -/

/-- Kestrel's events.  A sample takes the errors of its memories, runs the inner loops and the outer ones that are due (R474, R483, R493); an
AVSBus frame ends 256 cycles after it started, be it a read-back, a voltage write or a partner's access (R474, R492, R498, R505); a write that
comes too late is dropped (R477); a mark reaches the loops that learn (R485); droop forces the stretch (R495); 1 ms of cooling ends throttling
by the sensors (R618). -/
def Obligations.KestrelEvents : Prop :=
  (∀ s y, sampleReady s = true →
    exec (.innerSample y) s = .next (
      let s0 := y.ecc.foldl (fun t e => kestrelError e t) s
      let s1 := latchTemps y { s0 with samples := s0.samples + 1, loops := tmap (fun _ (l : KLoop) => { l with droop := false }) s0.loops }
      let s2 := sampleInner y 4 (sampleInner y 3 (sampleInner y 2 (sampleInner y 1 (sampleInner y 0 s1))))
      sampleFan (countOuter 6 (countOuter 5 (addMeans y (applyStretch s2)))))) ∧
  (∀ s n ok v st, (tget s.avs n).frame = some (.readback, st) →
    exec (.avsFrameDone n ok v (st + 256)) s =
      .next (readbackDone n (ok && !pinsTaken s) v (st + 256) { s with avs := tmod s.avs n (fun b => { b with frame := none }) })) ∧
  (∀ s n ok v mv re st, (tget s.avs n).frame = some (.write mv re, st) →
    exec (.avsFrameDone n ok v (st + 256)) s =
      .next (writeDone n mv (ok && !pinsTaken s) (st + 256) re { s with avs := tmod s.avs n (fun b => { b with frame := none }) })) ∧
  (∀ s n ok v op mv x st, (tget s.avs n).frame = some (.partner op mv x, st) →
    exec (.avsFrameDone n ok v (st + 256)) s =
      .next (partnerDone n op mv x (ok && !pinsTaken s) v (st + 256) { s with avs := tmod s.avs n (fun b => { b with frame := none }) })) ∧
  (∀ s n, (tget s.avs n).late = true →
    exec (.lateWriteDrop n) s = .next (onChan n 0 (fun c => { c with dcyc := some 800 }) (onLoop n (fun l => { l with avsFails := 0 })
      (bump (cntKstLate n) 0 { s with avs := tmod s.avs n (fun b => { b with late := false }) })))) ∧
  (∀ s k, exec (.periodMark k) s = .next { s with loops := tmap (fun _ (l : KLoop) =>
    if l.teacher = some k ∧ l.markDue = true then { l with markDue := false, marked := true } else l) s.loops }) ∧
  (∀ s n, n < 5 → (tget s.loops n).w 0x0AD ≠ 0 → s.bring.inReset = false → 2 ≤ s.bring.stage → (tget s.loops n).suspended = false →
    exec (.droopTrip n) s = .next (forceNow [0, 1, 2, 3, 4] (onLoop n (fun l => { l with droop := true }) (bump (cntKstDroop n) 0 s)))) ∧
  (∀ s t0, s.board.hot = true ∨ s.board.critical = true → s.board.coolSince = some t0 → t0 + 10 ^ 5 ≤ s.timebase →
    exec .throttleRelease s = .next (applyStretch { s with board := { s.board with hot := false, critical := false, coolSince := none } }))

/-- The board.  Rejected pulses are counted and an alert's new level is accepted (R586, R587); one that stays 1 s is STUCK (R587); edges give
the speed, 1 s without an edge is standstill, and speed 0 under 3 s of duty is STUCK (R589 to R592); a period of FAN_PWM takes L7's duty, or
1,000 when forced (R593). -/
def Obligations.BoardEvents : Prop :=
  (∀ s g, s.bring.inReset = false → s.board.pwr = false →
    exec (.alertAccepted true true g) s = .next (forceNow [0, 1, 2, 3, 4] (raise attnBoardInput .admin (bump cntPwrAlert 0
      { bumpBy cntInputGlitch 0 g s with board := { s.board with pwr := true, pwrSince := s.timebase } })))) ∧
  (∀ s g, s.bring.inReset = false → s.board.pwr = true →
    exec (.alertAccepted true false g) s = .next (applyStretch (raise attnBoardInput .admin
      { bumpBy cntInputGlitch 0 g s with board := { s.board with pwr := false, pwrStuck := false } }))) ∧
  (∀ s g, s.bring.inReset = false → s.board.therm = false →
    exec (.alertAccepted false true g) s = .next (forceNow [0, 1, 2, 3, 4, 7] (raise attnBoardInput .admin (thermalEvent 1 (bump cntThermAlert 0
      { bumpBy cntInputGlitch 0 g s with board := { s.board with therm := true, thermSince := s.timebase } }))))) ∧
  (∀ s g, s.bring.inReset = false → s.board.therm = true →
    exec (.alertAccepted false false g) s = .next (applyStretch (raise attnBoardInput .admin
      { bumpBy cntInputGlitch 0 g s with board := { s.board with therm := false, thermStuck := false } }))) ∧
  (∀ s, s.board.pwr = true → s.board.pwrStuck = false → s.board.pwrSince + 10 ^ 8 ≤ s.timebase →
    exec (.alertStuck true) s = .next (raise attnBoardInput .admin { s with board := { s.board with pwrStuck := true } })) ∧
  (∀ s, s.board.therm = true → s.board.thermStuck = false → s.board.thermSince + 10 ^ 8 ≤ s.timebase →
    exec (.alertStuck false) s = .next (raise attnBoardInput .admin (thermalEvent 2 { s with board := { s.board with thermStuck := true } }))) ∧
  (∀ s n g, n < 2 → s.bring.inReset = false → (tget s.board.tach n).edges.head? ≠ some s.timebase →
    exec (.tachEdge n g) s = .next (overrangeEvents n (tget s.board.tach n).fast ((tget s.board.tach n).edge s.timebase).fast
      { bumpBy cntInputGlitch 0 g s with board := { s.board with tach := tmod s.board.tach n (fun _ => (tget s.board.tach n).edge s.timebase) } })) ∧
  (∀ s n, n < 2 → (tget s.board.tach n).edges ≠ [] → (tget s.board.tach n).edges.getD 0 0 + 10 ^ 8 ≤ s.timebase →
    exec (.tachStandstill n) s = .next (overrangeEvents n (tget s.board.tach n).fast false
      { s with board := { s.board with tach := tmod s.board.tach n (fun b => { stuck := b.stuck }) } })) ∧
  (∀ s n t0, n < 2 → (tget s.board.tach n).stuck = false → (tget s.board.tach n).speed s.timebase = 0 → s.board.dutySince = some t0 →
    t0 + 3 * 10 ^ 8 ≤ s.timebase →
    exec (.tachStuck n) s = .next (raise attnBoardInput .admin (bump (if n = 0 then cntTach0Stuck else cntTach1Stuck) 0
      { s with board := { s.board with tach := tmod s.board.tach n (fun b => { b with stuck := true }) } }))) ∧
  (∀ s, exec .fanPwmPeriod s = .next (
    let d := if dutyForced s.board then 1000 else s.board.dutyNext
    { s with board := { s.board with
      duty := d, dutySince := if 200 ≤ d then some (s.board.dutySince.getD s.timebase) else none } }))

/-! ### Integrity, partitions, the trace and firmware in time -/

/-- Integrity.  A background kernel starts on the tile whose turn it is, and a confirmation on a tile where one is due (R440, R443); a kernel
whose output's CRC-32C is right ends, and one that fails runs once more and then ends (R441).  The front record of the ledger's queue is
written and verified (R445), with what the command processor's and the ledger's memories find (R418).  A drain ends its jobs at its deadline
and completes once none is left, after which a suspect device is RETIRED (R447, R448). -/
def Obligations.IntegrityEvents : Prop :=
  (∀ s t k, s.bring.inReset = false → s.integ.selfEn = true → s.integ.dstate = .running → backgroundRuns s = false →
    nextTileOf s = some t → nextKernelOf s t = some k →
    exec (.kernelStart t k) s = .next (startKernel t { k := k, why := .background, idle := (tget s.tiles t).idle.isSome }
      { s with integ := { s.integ with rotate := (t + 1) % 64 } })) ∧
  (∀ s t i, s.integ.confirms.findIdx? (fun c => !c.running && (match c.left with | r :: _ => r / 32 == t | [] => false)) = some i →
    (tget s.doms (quadOf t)).on = true → s.bring.inReset = false → exec (.confirmationStart t) s = .next (runConfirm i s)) ∧
  (∀ s t k crc, (tget s.tiles t).kernel = some k → k.rerun = false → armed s (unitId 0x01 t) 9 = false → crc = Config.kakExpected k.k →
    exec (.kernelComplete t crc) s = .next (endKernel t { k with forced := false } { first := crc, last := crc } (bump cntKakRun (unitId 0x01 t) s))) ∧
  (∀ s t k crc, (tget s.tiles t).kernel = some k → k.rerun = false → armed s (unitId 0x01 t) 9 = false → crc ≠ Config.kakExpected k.k →
    exec (.kernelComplete t crc) s = .next (startKernel t { k with forced := false, rerun := true, firstCrc := crc, firstReal := true }
      (bump cntKakFail (unitId 0x01 t) (bump cntKakRun (unitId 0x01 t) s)))) ∧
  (∀ s t k crc, (tget s.tiles t).kernel = some k → k.rerun = true → k.forced = false → crc = Config.kakExpected k.k →
    exec (.kernelComplete t crc) s = .next (endKernel t k { first := k.firstCrc, last := crc, bad1 := k.firstReal, bad2 := false }
      (bump cntKakRun (unitId 0x01 t) s))) ∧
  (∀ s t k crc, (tget s.tiles t).kernel = some k → k.rerun = false → armed s (unitId 0x01 t) 9 = true →
    exec (.kernelComplete t crc) s = .next (startKernel t
      { k with forced := true, rerun := true, firstCrc := crc, firstReal := crc != Config.kakExpected k.k }
      (bump cntKakFail (unitId 0x01 t) (bump cntKakRun (unitId 0x01 t) (takeInject (unitId 0x01 t) 9 s))))) ∧
  (∀ s t k crc, (tget s.tiles t).kernel = some k → k.rerun = true → k.forced = true → crc = Config.kakExpected k.k →
    exec (.kernelComplete t crc) s = .next (endKernel t k { first := k.firstCrc, last := crc, bad1 := k.firstReal, bad2 := false }
      (bump cntKakFail (unitId 0x01 t) (bump cntKakRun (unitId 0x01 t) s)))) ∧
  (∀ s t k crc, (tget s.tiles t).kernel = some k → k.rerun = true → crc ≠ Config.kakExpected k.k →
    exec (.kernelComplete t crc) s = .next (endKernel t k { first := k.firstCrc, last := crc, bad1 := k.firstReal, bad2 := true }
      (bump cntKakFail (unitId 0x01 t) (bump cntKakRun (unitId 0x01 t) s)))) ∧
  (∀ s ok f g, s.bring.inReset = false →
    exec (.ledgerWrite ok f g) s = .next (controlEcc (unitId 0x10 0) g (controlEcc (unitId 0x0D 0) f (drainNow (writeRec ok s))))) ∧
  (∀ s, s.integ.dstate = .draining → s.integ.drainOver = false → s.integ.deadline ≠ 0xFFFFFFFF →
    s.integ.drainStart + s.integ.deadline * 10 ^ 5 ≤ s.timebase → exec .drainDeadlineExpiry s = .next (drainOver s)) ∧
  (∀ s tk, s.integ.dstate = .draining → s.integ.drainOver = false → jobsLeft s = false → s.integ.drainTk = some tk → s.integ.drainSuspect = false →
    exec .drainComplete s = .next (post tk stOk [] { s with integ := { s.integ with drainTk := none } })) ∧
  (∀ s, s.integ.dstate = .draining → s.integ.drainOver = false → jobsLeft s = false → s.integ.drainTk = none → s.integ.drainSuspect = true →
    exec .drainComplete s = .next (retire s))

/-- A partition's reset ends once nothing of it is awaited: step 4's clearing, then the final statuses (R407), then a destroy that was
accepted meanwhile (R408); and so does its destroy, which answers the resets that came later with ST_PARTITION_RESET (R409, R414). -/
def Obligations.PartitionEvents : Prop :=
  (∀ s part, (tget s.parts part).state = .resetting → partAwaited s part = false → (tget s.parts part).laterTks = [] →
    exec (.partResetComplete part) s = .next (
      let t := resetPart part s
      (tget s.parts part).resetTks.foldl (fun u k => post k stOk [] u)
        { t with parts := tmod t.parts part (fun y => { y with state := .active, resetTks := [], laterTks := [] }) })) ∧
  (∀ s part, (tget s.parts part).state = .resetting → partAwaited s part = false → (tget s.parts part).laterTks ≠ [] →
    exec (.partResetComplete part) s = .next (beginDestroy part (tget s.parts part).laterTks (
      let t := resetPart part s
      (tget s.parts part).resetTks.foldl (fun u k => post k stOk [] u)
        { t with parts := tmod t.parts part (fun y => { y with state := .active, resetTks := [], laterTks := [] }) }))) ∧
  (∀ s part, (tget s.parts part).state = .destroying → partAwaited s part = false →
    exec (.partDestroyComplete part) s = .next (postAll (tget s.parts part).lateResets stPartitionReset
      (postAll (tget s.parts part).destroyTks stOk (giveUp part (resetPart part s)))))

/-- The trace.  Its timer writes a group that is not full, once its buffer's errors are dealt with and where it can be sent (R522, R524); each
time bit 31 of the timebase changes, a PERIODIC SYNC record is formed (R521, R526); and a stop is complete once nothing is left to write
(R527). -/
def Obligations.TraceEvents : Prop :=
  (∀ s t f, t = owlPump 17 (owlEcc f s) → owlCanSend (min t.owl.group t.owl.buf.length) t = true →
    exec (.owlGroupTimer f) s = .next (owlSend (min t.owl.group t.owl.buf.length) t)) ∧
  (∀ s t f, t = owlPump 17 (owlEcc f s) → owlCanSend (min t.owl.group t.owl.buf.length) t = false →
    exec (.owlGroupTimer f) s = .next t) ∧
  (∀ s, s.timebase % 2 ^ 31 = 0 → exec .timebaseBit31 s = .next (owlNote (syncRecord 2 0 0 s.timebase) s)) ∧
  (∀ s, s.owl.running = true → s.owl.stopping = true → s.owl.buf = [] → owlOut s = [] →
    exec .traceStopComplete s = .next { s with owl := { s.owl with running := false, stopping := false } })

/-- Firmware.  A patch image that passes is installed, one that does not leaves what was there, and one that cannot be read ends with that
read's status (R552, R553); a removed patch is gone (R553); a nonce lives 10 s (R583). -/
def Obligations.FirmwareEvents : Prop :=
  (∀ s tk p r t, s.fw.loadTk = some tk → r = sysRead viaProc s.fw.loadAddr s.fw.loadLen s →
    t = onFw (fun f => { f with loadTk := none }) r.s →
    (r.reply.status = 0 → patchOk s.fw.loadLen r.bytes = true → r.bad = [] → p = false →
      exec (.patchLoadComplete p) s = .next (raisePatch (post tk stOk []
        (onFw (fun f => { f with patch := some (patchInfo r.bytes), rejected := false }) t)))) ∧
    (r.reply.status = 0 → patchOk s.fw.loadLen r.bytes = false ∨ r.bad ≠ [] ∨ p = true →
      exec (.patchLoadComplete p) s = .next (raisePatch (post tk stPatchSignature [] (onFw (fun f => { f with rejected := true }) t)))) ∧
    (r.reply.status ≠ 0 → exec (.patchLoadComplete p) s = .next (post tk r.reply.status r.reply.result t))) ∧
  (∀ s tk, s.fw.removeTk = some tk →
    exec .patchRemoveComplete s = .next (raisePatch (post tk stOk [] (onFw (fun f => { f with removeTk := none, patch := none }) s)))) ∧
  (∀ s n, s.fw.nonce = some n → s.fw.nonceTime + 10 ^ 9 ≤ s.timebase →
    exec .nonceExpiry s = .next { s with fw := { s.fw with nonce := none } })


/-! ### Rules over many commands -/

/-- Every firmware-answered command passes the same checks in the same order before its effect.  One that is not its carrier's next, or
whose carrier's turn has not come, changes nothing (R312, R333); a failed check of 6 to 9 is the reply, and a queue pair's parameter block
is asked for once 6 to 8 are passed (R317, R330); a PEND command of a partition that is being reset or destroyed takes a slot and ends with
ST_PARTITION_RESET, or finds none free (R332, R408); a reserved parameter bit replies ST_PARAM_RESERVED (R317); a failed check of the entry's own replies its status,
with the counters that the entry counts (R351); and a stageable command whose checks pass while its owner's sequence is open is staged with
its position, or refused at 64, and does nothing else (R357, R399). -/
def Obligations.ChecksBeforeEffect : Prop :=
  ∀ i op c p s, asCommand i = some (op, c, p) →
    (ready s op c p = none → exec i s = .next s) ∧
    (∀ x, ready s op c p = some x → gateStatus (turned c s) x ≠ 0 →
      exec i s = .next (finish x { status := gateStatus (turned c s) x } (turned c s))) ∧
    (∀ x, ready s op c p = some x → gateStatus (turned c s) x = 0 → needsBlock x = true →
      exec i s = .next (
        if canMaster s x.port then
          hostRead x.port ((x.pkt.dwn 4).toNat + 2 ^ 32 * (x.pkt.dwn 5).toNat) (4 * x.pkt.plen) (.block x.id)
            (onCmd x (fun y => { y with gated := true, waits := 1 }) (turned c s))
        else finish x { status := stHostFault } (turned c s))) ∧
    (∀ x, ready s op c p = some x → gateStatus (turned c s) x = 0 → needsBlock x = false → pendDoomed (turned c s) x = true →
      let q := takeSlot x (!partScope x) (turned c s)
      exec i s = .next (
        if slotFree s x.port then post q.1 stPartitionReset [] (finish x { status := stPending, result := [dw q.1] } q.2)
        else finish x { status := stResultFull } (turned c s))) ∧
    (∀ x, ready s op c p = some x → gateStatus (turned c s) x = 0 → needsBlock x = false → pendDoomed (turned c s) x = false →
      paramsClear x = false → exec i s = .next (finish x { status := stParamReserved } (turned c s))) ∧
    (∀ x v, reached s op c p x = true → v = ownCheck op (turned c s) x → v.status ≠ 0 →
      exec i s = .next (finish x { status := v.status, result := v.result }
        (v.counts.foldl (fun t k => bump k.1 k.2 t) (turned c s)))) ∧
    (∀ x q, reached s op c p x = true → (ownCheck op (turned c s) x).status = 0 → (attr op).staged = true → tget s.seqs x.carrier = q →
      q.lock.isSome = true →
      exec i s = .next (
        if 64 ≤ q.staged.length then finish x { status := stQueueFull } (turned c s)
        else finish x { result := [dw (q.staged.length + 1 + 2 ^ 31)] }
          { turned c s with seqs := tset s.seqs x.carrier { q with staged := q.staged ++ [x] } }))

/-- A command that would reply ST_PENDING takes a result slot of its port; without a free one it replies ST_RESULT_FULL and has no other
effect.  For the fifteen rows that always start pending work both are said; for those that may answer at once, the refusal (R332). -/
def Obligations.ResultSlots : Prop :=
  TakesSlot 0x0101 .partDestroy unchecked partDestroyStart ∧
  TakesSlot 0x0102 .partReset unchecked partResetStart ∧
  TakesSlot 0x0400 .windowMap windowMapCheck windowMapStart ∧
  TakesSlot 0x0405 .contextBase contextBaseCheck (fun x ticket s =>
    { s with cm := { s.cm with base := some (x.par64 4), clearing := some ticket } }) ∧
  TakesSlot 0x0500 .codecSubmit codecSubmitCheck codecSubmitStart ∧
  TakesSlot 0x0600 .programLoad unchecked programLoadStart ∧
  TakesSlot 0x0701 .linkTrain linkTrainCheck linkTrainStart ∧
  TakesSlot 0x0704 .linkRecal linkRecalCheck linkRecalStart ∧
  TakesSlot 0x0708 .linkPush linkPushCheck linkPushStart ∧
  TakesSlot 0x0709 .linkMcast linkMcastCheck linkMcastStart ∧
  TakesSlot 0x0804 .loopTrace loopTraceCheck loopTraceStart ∧
  TakesSlot 0x0805 .loopInject loopInjectCheck loopInjectStart ∧
  TakesSlot 0x0903 .kakRun kakRunCheck kakRunStart ∧
  TakesSlot 0x0905 .drainStart drainStartCheck drainStartStart ∧
  TakesSlot 0x0B00 .domainOff domainOffCheck (fun x tk s =>
    { s with doms := tmod s.doms (x.fld 4 4 0) (fun m =>
        { m with fenced := true, hint := x.fld 5 15 0, since := s.timebase, offTk := some tk }) }) ∧
  (∀ s c p x, served s 0x0601 c p x programRunCheck = true → slotFree s x.port = false →
    loadWaits s (maskTiles (tget s.progs x.progSlot).tilemask) = false →
    exec (.programRun c p) s = .next (finish x { status := stResultFull } (turned c s))) ∧
  (∀ s c p x, served s 0x0B01 c p x domainOnCheck = true → (tget s.doms (x.fld 4 4 0)).on = false → slotFree s x.port = false →
    exec (.domainOn c p) s = .next (finish x { status := stResultFull } (turned c s))) ∧
  (∀ s c p x, served s 0x0C00 c p x patchLoadCheck = true → olderWaits s x = false → slotFree s x.port = false →
    exec (.patchLoad c p) s = .next (finish x { status := stResultFull } (turned c s))) ∧
  (∀ s c p x, served s 0x0C01 c p x patchRemoveCheck = true → olderWaits s x = false → slotFree s x.port = false →
    exec (.patchRemove c p) s = .next (finish x { status := stResultFull } (turned c s))) ∧
  (∀ s c p x t, served s 0x0506 c p x streamFlushCheck = true → t = readCtx x.stream stOk none (fillCtx x.stream (turned c s)) →
    (tget t.ctxs x.stream).useStatus x.part true = 0 → (tget t.ctxs x.stream).held = true ∨ hasWaiters t x.stream = true →
    slotFree t x.port = false →
    exec (.streamFlush c p) s = .next (finish x { status := stResultFull } t))

/-- SEQ_ABORT discards what is staged and closes the sequence, with every lock as it was; while the caller's sequence is open on a
lock, LOCK_RELEASE of that lock replies ST_STATE_BUSY (R401). -/
def Obligations.SequenceAbort : Prop :=
  (∀ s c p x, reached s 0x0204 c p x = true → (tget s.seqs x.carrier).lock = some x.lockNo →
    exec (.seqAbort c p) s = .next (finish x {} { turned c s with seqs := tset s.seqs x.carrier {} })) ∧
  (∀ s c p x, reached s 0x0201 c p x = true → tget s.locks x.lockNo = .held x.carrier → (tget s.seqs x.carrier).lock = some x.lockNo →
    exec (.lockRelease c p) s = .next (finish x { status := stStateBusy } (turned c s)))

/-- BUF_FREE checks the handle in Table 10.7's order: one that passes makes the buffer FREE and leaves GEN, one that fails changes
nothing and is counted in the pool's partition, and one that names no pool is counted nowhere (R405). -/
def Obligations.BufferFree : Prop :=
  (∀ s c p x, reached s 0x0303 c p x = true → (tget s.pools x.poolNo).owner = none →
    exec (.bufFree c p) s = .next (finish x { status := stParamRange } (turned c s))) ∧
  (∀ s c p x o, reached s 0x0303 c p x = true → (tget s.pools x.poolNo).owner = some o → (tget s.pools x.poolNo).count ≤ x.fld 5 19 0 →
    exec (.bufFree c p) s = .next (finish x { status := stParamRange } (bump cntBufBadHandle o (turned c s)))) ∧
  (∀ s c p x o b, reached s 0x0303 c p x = true → (tget s.pools x.poolNo).owner = some o → x.fld 5 19 0 < (tget s.pools x.poolNo).count →
    tget (tget s.pools x.poolNo).bufs (x.fld 5 19 0) = b →
    exec (.bufFree c p) s = .next (
      if b.gen ≠ x.fld 5 31 20 then finish x { status := stBufStale } (bump cntBufStale o (turned c s))
      else if b.allocated = false then finish x { status := stBufAlreadyFree } (bump cntBufDoubleFree o (turned c s))
      else if byOwner s x (tget s.pools x.poolNo) b = false then finish x { status := stBufNotOwner } (bump cntBufNotOwner o (turned c s))
      else finish x {} { turned c s with pools := tset s.pools x.poolNo { tget s.pools x.poolNo with
        bufs := tset (tget s.pools x.poolNo).bufs (x.fld 5 19 0) { gen := b.gen } } }))

/-- A reply and what it leaves alone: in a mailbox, RPLY holds it with PHASE equal to the toggled MPHASE and BUSY clears; on a queue
pair, its 32 bytes are written to the next completion entry, in one write, and PHASE inverts at the wrap; a discarded reply changes nothing
but that the command is no longer in progress.  While no trace runs, nothing else of the state changes (R318, R327, R329, R334). -/
def Obligations.ReplyWritten : Prop :=
  (∀ s x r, s.owl.running = false → finish x r s = finishQuiet x r s) ∧
  (∀ s x r, s.cmds.find? (fun y => y.id == x.id) = some x → x.owed = true → isQp x.carrier = false →
    finishQuiet x r s = { s with
      cmds := s.cmds.filter (fun y => y.id != x.id)
      mbx := tset s.mbx x.port { tget s.mbx x.port with
        rply := replyDws x.pkt.tag r.status (viewOf s (64 * x.port)).summary (!(tget s.mbx x.port).mphase) r.reread false 0 r.result
        mphase := !(tget s.mbx x.port).mphase, busy := false, last := some (dwBytes x.pkt.dws) } }) ∧
  (∀ s x r q, s.cmds.find? (fun y => y.id == x.id) = some x → x.owed = true → isQp x.carrier = true → canMaster s x.port = true →
    tget s.qps x.carrier = q → q.en = true → q.enWaits = false → q.cqbase % 4096 = 0 →
    finishQuiet x r s = { s with
      cmds := s.cmds.filter (fun y => y.id != x.id)
      qps := tset s.qps x.carrier { q with
        cqw := if q.cqw + 1 < 2 ^ q.cqlog then q.cqw + 1 else 0, phase := if q.cqw + 1 < 2 ^ q.cqlog then q.phase else !q.phase
        reserved := q.reserved - 1, unread := q.unread + 1 }
      hostOut := s.hostOut ++ [{ fn := x.port, addr := q.cqbase + 32 * q.cqw
                                 data := dwBytes (replyDws x.pkt.tag r.status (viewOf s x.carrier).summary q.phase r.reread false q.fetch r.result) }] }) ∧
  (∀ s x r, s.cmds.find? (fun y => y.id == x.id) = some x → x.owed = false →
    isQp x.carrier = false ∨ x.carrier % 64 ≠ 0 ∨ (tget s.qps x.carrier).rdy = false →
    finishQuiet x r s = { s with cmds := s.cmds.filter (fun y => y.id != x.id) }) ∧
  (∀ tag st attn phase reread dup h res, (dwBytes (replyDws tag st attn phase reread dup h res)).length = 32)

/-- A counter stops at 0xFFFFFFFF and never wraps; counting changes no other counter, and nothing but the ports' and queue pairs'
views beside it (R15, R360). -/
def Obligations.CounterSaturates : Prop :=
  ∀ s cid inst n, twf s.cnt = true →
    tget (bumpBy cid inst n s).cnt (cntKey cid inst) = min (tget s.cnt (cntKey cid inst) + n) 0xFFFFFFFF ∧
    (∀ k, k ≠ cntKey cid inst → tget (bumpBy cid inst n s).cnt k = tget s.cnt k) ∧
    twf (bumpBy cid inst n s).cnt = true ∧
    (∀ p, isAdmin (bumpBy cid inst n s) p = isAdmin s p) ∧
    bumpBy cid inst n s = { s with
      cnt := (bumpBy cid inst n s).cnt, ports := (bumpBy cid inst n s).ports, qps := (bumpBy cid inst n s).qps }

/-- A lock that breaks: its holder's sequence on it is discarded and closed, it is BROKEN with no holder, the break and each
discarded change are counted, and every existing ADMIN port sees ATTN_LOCK_BROKEN; other locks and sequences stay as they were, and
no owner that lost its carrier holds a lock afterwards (R397, R398). -/
def Obligations.LockBreaks : Prop :=
  (∀ s n o, twf s.locks = true → twf s.seqs = true → twf s.cnt = true → tget s.locks n = .held o →
    tget (breakLock s n).locks n = .broken ∧
    (∀ m, m ≠ n → tget (breakLock s n).locks m = tget s.locks m) ∧
    ((tget s.seqs o).lock = some n → tget (breakLock s n).seqs o = {}) ∧
    (∀ m, m ≠ o → tget (breakLock s n).seqs m = tget s.seqs m) ∧
    tget (breakLock s n).cnt (cntKey cntLockBroken 0) = min (tget s.cnt (cntKey cntLockBroken 0) + 1) 0xFFFFFFFF ∧
    tget (breakLock s n).cnt (cntKey cntSeqDiscarded 0) = min (tget s.cnt (cntKey cntSeqDiscarded 0) +
      (if (tget s.seqs o).lock = some n then (tget s.seqs o).staged.length else 0)) 0xFFFFFFFF ∧
    (∀ p, portExists s p = true → isAdmin s p = true → (tget (tget (breakLock s n).ports p).view.bits attnLockBroken).isSet = true)) ∧
  (∀ s own n o, twf s.locks = true → tget (breakLocks own s).locks n = .held o → own o = false)

/-- SEQ_COMMIT is all or nothing: where a change fails its re-check, the reply carries its status and its position, the sequence
closes, and beside that only counters and views change; where none fails, each has been applied in order of position (R400). -/
def Obligations.CommitAllOrNothing : Prop :=
  (∀ x s n v, commitFrom 1 (tget s.seqs x.carrier).staged s = .error (n, v) →
    v.status ≠ 0 ∧ 1 ≤ n ∧ n ≤ (tget s.seqs x.carrier).staged.length ∧
    (seqCommitApply x s).1.status = v.status ∧ (seqCommitApply x s).1.result = [dw n] ∧
    (seqCommitApply x s).2 = { s with
      seqs := tset s.seqs x.carrier {}, cnt := (seqCommitApply x s).2.cnt, ports := (seqCommitApply x s).2.ports
      qps := (seqCommitApply x s).2.qps }) ∧
  (∀ x s t, commitFrom 1 (tget s.seqs x.carrier).staged s = .ok t →
    t = (tget s.seqs x.carrier).staged.foldl (fun u y => stagedApply y.pkt.opcode y u) s ∧
    (seqCommitApply x s).1.status = 0 ∧ (seqCommitApply x s).2 = { t with seqs := tset t.seqs x.carrier {} }) ∧
  (∀ x s, (tget s.seqs x.carrier).staged = [] → seqCommitApply x s = ({ result := [0] }, { s with seqs := tset s.seqs x.carrier {} }))

/-- A ticket's final status is posted once: the slot then holds it with six RESULT dwords, a second post changes nothing, and a
post to a slot that is not held, or that another generation holds, changes nothing (R335, Table 09.7). -/
def Obligations.ResultPosts : Prop :=
  (∀ s tk st res r, tget s.slots (tkSlot tk) = r → r.held = true → r.gen = tkGen tk → r.final = none → r.orphan = false →
    tget (post tk st res s).slots (tkSlot tk) = { r with final := some st, result := (res ++ List.replicate 6 0).take 6 } ∧
    (∀ k, twf s.slots = true → k ≠ tkSlot tk → tget (post tk st res s).slots k = tget s.slots k) ∧
    (∀ st' res', post tk st' res' (post tk st res s) = post tk st res s)) ∧
  (∀ s tk st res, (tget s.slots (tkSlot tk)).held = false ∨ (tget s.slots (tkSlot tk)).gen ≠ tkGen tk → post tk st res s = s)

/-- Device memory reads back what was written, keeps its canonical form, and changes nowhere else; a cleared range reads as zero (R200,
R204).  A SYS write keeps the form too, and while no injected memory error is armed or latent it changes no byte but those of its range and
their copies, one page on, in a shadow's store (R437). -/
def Obligations.MemoryReadBack : Prop :=
  (∀ s a data, Memory.wf s.mem → Memory.wf (memPut a data s).mem ∧ memBytes (memPut a data s) a data.length = data ∧
    (∀ b, b < a ∨ a + data.length ≤ b → memByte (memPut a data s) b = memByte s b)) ∧
  (∀ s a n, Memory.wf s.mem → Memory.wf (memZero a n s).mem ∧
    (∀ b, memByte (memZero a n s) b = if a ≤ b ∧ b < a + n then 0 else memByte s b)) ∧
  (∀ s via a data, Memory.wf s.mem → Memory.wf (sysWrite via a data s).s.mem ∧
    (∀ b, s.integ.inject = [] → s.integ.latent = [] → b < a ∨ a + data.length ≤ b →
      b < a + pageSize ∨ a + pageSize + data.length ≤ b → memByte (sysWrite via a data s).s b = memByte s b))

/-! ### Reset and the invariants -/

/-- What reset leaves: an empty queue, ADMIN on P0 and P2 and on no other port, memory of zeros (R200), counters of 0, locks FREE,
no partition, no attention, empty router buffers; and both invariants hold.  The values that the spec leaves to the model are those of
assumption 5. -/
def Obligations.ResetState : Prop :=
  State.reset.pending = [] ∧ isAdmin State.reset 0 = true ∧ isAdmin State.reset 1 = false ∧ isAdmin State.reset 2 = true ∧
  isAdmin State.reset 3 = false ∧ (∀ a, memByte State.reset a = 0) ∧ (∀ cid inst, counter State.reset cid inst = 0) ∧
  (∀ n, tget State.reset.locks n = .free) ∧ (∀ n, partExists State.reset n = false) ∧
  (∀ c, (viewOf State.reset c).bits = []) ∧ (∀ k, tget State.reset.mesh.bufs k = []) ∧ Memory.wf State.reset.mem ∧
  DebugLocked State.reset ∧ ManagementLegal State.reset

/-- Every step keeps debug locked where the fuses or STRAP_DBGOFF forbid it, and P3's ADMIN with debug (R313, R582, R583). -/
def Obligations.DebugLockedKept : Prop :=
  ∀ s s' : State, DebugLocked s → step s = .next s' → DebugLocked s'

/-- Every step keeps the values that P2's registers, the test access port's instruction and the timebase may hold (R566, R568, R580,
R521). -/
def Obligations.ManagementLegalKept : Prop :=
  ∀ s s' : State, ManagementLegal s → step s = .next s' → ManagementLegal s'
end

