-- ==== Sys2Proof/Laws/Tab.lean ====
section
/-! SUPPORT. Sparse tables: what a write leaves to read, and that every table operation keeps the canonical form. -/

namespace Sys2Proof.Laws

open Sys2Proof.Machine

variable {α : Type}

/-! ### The order of keys -/

theorem tsorted_mono {lo hi : Nat} (t : Tab α) (h : lo ≤ hi) (hs : tsorted hi t = true) : tsorted lo t = true := by
  cases t with
  | nil => rfl
  | cons e r =>
    obtain ⟨k, v⟩ := e
    simp only [tsorted, Bool.and_eq_true, decide_eq_true_eq] at hs ⊢
    exact ⟨by omega, hs.2⟩

theorem tsorted_tput {lo : Nat} (t : Tab α) (k : Nat) (v : α) (hlo : lo ≤ k) (hs : tsorted lo t = true) : tsorted lo (tput t k v) = true := by
  induction t generalizing lo with
  | nil => simp [tput, tsorted, hlo]
  | cons e r ih =>
    obtain ⟨k', v'⟩ := e
    simp only [tsorted, Bool.and_eq_true, decide_eq_true_eq] at hs
    simp only [tput]
    split
    · simp only [tsorted, Bool.and_eq_true, decide_eq_true_eq]
      exact ⟨hlo, by omega, hs.2⟩
    · split
      · rename_i _ h1
        subst h1
        simp only [tsorted, Bool.and_eq_true, decide_eq_true_eq]
        exact ⟨hlo, hs.2⟩
      · simp only [tsorted, Bool.and_eq_true, decide_eq_true_eq]
        exact ⟨hs.1, ih (by omega) hs.2⟩

theorem tsorted_tdel {lo : Nat} (t : Tab α) (k : Nat) (hs : tsorted lo t = true) : tsorted lo (tdel t k) = true := by
  induction t generalizing lo with
  | nil => rfl
  | cons e r ih =>
    obtain ⟨k', v'⟩ := e
    simp only [tsorted, Bool.and_eq_true, decide_eq_true_eq] at hs
    simp only [tdel]
    split
    · exact tsorted_mono _ (by omega) (ih hs.2)
    · simp only [tsorted, Bool.and_eq_true, decide_eq_true_eq]
      exact ⟨hs.1, ih hs.2⟩

theorem tsorted_filter {lo : Nat} (t : Tab α) (p : Nat × α → Bool) (hs : tsorted lo t = true) : tsorted lo (t.filter p) = true := by
  induction t generalizing lo with
  | nil => rfl
  | cons e r ih =>
    obtain ⟨k', v'⟩ := e
    simp only [tsorted, Bool.and_eq_true, decide_eq_true_eq] at hs
    simp only [List.filter]
    split
    · simp only [tsorted, Bool.and_eq_true, decide_eq_true_eq]
      exact ⟨hs.1, ih hs.2⟩
    · exact tsorted_mono _ (by omega) (ih hs.2)

theorem tsorted_map {lo : Nat} (t : Tab α) (f : Nat → α → α) (hs : tsorted lo t = true) :
    tsorted lo (t.map (fun e => (e.1, f e.1 e.2))) = true := by
  induction t generalizing lo with
  | nil => rfl
  | cons e r ih =>
    obtain ⟨k', v'⟩ := e
    simp only [tsorted, Bool.and_eq_true, decide_eq_true_eq] at hs
    simp only [List.map, tsorted, Bool.and_eq_true, decide_eq_true_eq]
    exact ⟨hs.1, ih hs.2⟩

theorem mem_tput {t : Tab α} {k : Nat} {v : α} {e : Nat × α} (h : e ∈ tput t k v) : e = (k, v) ∨ e ∈ t := by
  induction t with
  | nil => simpa [tput] using h
  | cons x r ih =>
    obtain ⟨k', v'⟩ := x
    simp only [tput] at h
    split at h
    · simpa using h
    · split at h
      · rcases List.mem_cons.mp h with h | h
        · exact .inl h
        · exact .inr (List.mem_cons_of_mem _ h)
      · rcases List.mem_cons.mp h with h | h
        · exact .inr (h ▸ List.mem_cons_self ..)
        · rcases ih h with h | h
          · exact .inl h
          · exact .inr (List.mem_cons_of_mem _ h)

theorem mem_tdel {t : Tab α} {k : Nat} {e : Nat × α} (h : e ∈ tdel t k) : e ∈ t := by
  induction t with
  | nil => exact h
  | cons x r ih =>
    obtain ⟨k', v'⟩ := x
    simp only [tdel] at h
    split at h
    · exact List.mem_cons_of_mem _ (ih h)
    · rcases List.mem_cons.mp h with h | h
      · exact h ▸ List.mem_cons_self ..
      · exact List.mem_cons_of_mem _ (ih h)

variable [Inhabited α]

/-! ### Reading after writing -/

@[simp] theorem tget_nil (k : Nat) : tget ([] : Tab α) k = default := rfl

/-- A key that has been removed holds the default. -/
theorem tget_tdel_self (t : Tab α) (k : Nat) : tget (tdel t k) k = default := by
  induction t with
  | nil => rfl
  | cons e r ih =>
    obtain ⟨k', v⟩ := e
    by_cases h : k' = k <;> simp [tdel, tget, h, ih]

/-- Removing a key leaves the others. -/
theorem tget_tdel_of_ne (t : Tab α) {j k : Nat} (h : j ≠ k) : tget (tdel t k) j = tget t j := by
  induction t with
  | nil => rfl
  | cons e r ih =>
    obtain ⟨k', v⟩ := e
    by_cases h1 : k' = k
    · subst h1
      simp [tdel, tget, ih, Ne.symm h]
    · simp [tdel, tget, h1, ih]

theorem tget_tput_self (t : Tab α) (k : Nat) (v : α) : tget (tput t k v) k = v := by
  induction t with
  | nil => simp [tput, tget]
  | cons e r ih =>
    obtain ⟨k', v'⟩ := e
    simp only [tput]
    split
    · simp [tget]
    · split
      · simp [tget]
      · have : k' ≠ k := fun h => by omega
        simp [tget, this, ih]

theorem tget_tput_of_ne (t : Tab α) {j k : Nat} (v : α) (h : j ≠ k) : tget (tput t k v) j = tget t j := by
  induction t with
  | nil => simp [tput, tget, Ne.symm h]
  | cons e r ih =>
    obtain ⟨k', v'⟩ := e
    simp only [tput]
    split
    · simp [tget, Ne.symm h]
    · split
      · rename_i _ h1
        subst h1
        simp [tget, Ne.symm h]
      · simp [tget, ih]

/-- A key below every entry holds the default. -/
theorem tget_of_lt {lo : Nat} (t : Tab α) (hs : tsorted lo t = true) {k : Nat} (h : k < lo) : tget t k = default := by
  induction t generalizing lo with
  | nil => rfl
  | cons e r ih =>
    obtain ⟨k', v⟩ := e
    simp only [tsorted, Bool.and_eq_true, decide_eq_true_eq] at hs
    have : k' ≠ k := by omega
    simp only [tget, this, if_false]
    exact ih hs.2 (by omega)

/-- Keeping some entries returns the others to the default. -/
theorem tget_tfilter {lo : Nat} (p : Nat → Bool) (t : Tab α) (hs : tsorted lo t = true) (k : Nat) :
    tget (tfilter (fun j _ => p j) t) k = if p k = true then tget t k else default := by
  induction t generalizing lo with
  | nil => simp [tfilter, tget]
  | cons e r ih =>
    obtain ⟨k', v⟩ := e
    simp only [tsorted, Bool.and_eq_true, decide_eq_true_eq] at hs
    have ih := ih hs.2
    simp only [tfilter] at ih ⊢
    by_cases h1 : k' = k
    · subst h1
      by_cases h2 : p k' = true
      · simp [List.filter, h2, tget]
      · simp only [List.filter, h2]
        exact tget_of_lt _ (tsorted_filter _ _ hs.2) (by omega)
    · by_cases h2 : p k' = true
      · simp [List.filter, h2, tget, h1, ih]
      · simp [List.filter, h2, tget, h1, ih]

variable [DecidableEq α]

/-- A key reads as what was written there last. -/
@[simp] theorem tget_tset_self (t : Tab α) (k : Nat) (v : α) : tget (tset t k v) k = v := by
  unfold tset
  split
  · rename_i h
    rw [tget_tdel_self, h]
  · exact tget_tput_self t k v

/-- A write leaves every other key. -/
theorem tget_tset_of_ne (t : Tab α) {j k : Nat} (v : α) (h : j ≠ k) : tget (tset t k v) j = tget t j := by
  unfold tset
  split
  · exact tget_tdel_of_ne t h
  · exact tget_tput_of_ne t v h

/-- Reading after a write, both cases. -/
theorem tget_tset (t : Tab α) (j k : Nat) (v : α) : tget (tset t k v) j = if j = k then v else tget t j := by
  split
  · rename_i h
    rw [h, tget_tset_self]
  · exact tget_tset_of_ne t v ‹_›

@[simp] theorem tget_tmod_self (t : Tab α) (k : Nat) (f : α → α) : tget (tmod t k f) k = f (tget t k) := tget_tset_self ..

theorem tget_tmod_of_ne (t : Tab α) {j k : Nat} (f : α → α) (h : j ≠ k) : tget (tmod t k f) j = tget t j := tget_tset_of_ne t _ h

theorem tget_tmod (t : Tab α) (j k : Nat) (f : α → α) : tget (tmod t k f) j = if j = k then f (tget t k) else tget t j := tget_tset ..

/-- What does not change under a change of one entry does not change in any. -/
theorem tget_tmod_proj {β : Type} (t : Tab α) (j k : Nat) (f : α → α) (g : α → β) (h : ∀ a, g (f a) = g a) :
    g (tget (tmod t k f) j) = g (tget t j) := by
  rw [tget_tmod]
  split
  · rename_i h1
    rw [h, h1]
  · rfl

/-- The same of a write whose value agrees with what stood there. -/
theorem tget_tset_proj {β : Type} (t : Tab α) (j k : Nat) (v : α) (g : α → β) (h : g v = g (tget t k)) :
    g (tget (tset t k v) j) = g (tget t j) := by
  rw [tget_tset]
  split
  · rename_i h1
    rw [h, h1]
  · rfl

/-! ### The canonical form -/

/-- The form in words: sorted, and no entry equal to the default. -/
theorem twf_iff (t : Tab α) : twf t = true ↔ tsorted 0 t = true ∧ ∀ e ∈ t, e.2 ≠ default := by
  simp [twf, List.all_eq_true]

/-- A write keeps the canonical form. -/
theorem twf_tset (t : Tab α) (k : Nat) (v : α) (h : twf t = true) : twf (tset t k v) = true := by
  rw [twf_iff] at h ⊢
  unfold tset
  split
  · exact ⟨tsorted_tdel _ _ h.1, fun e he => h.2 e (mem_tdel he)⟩
  · refine ⟨tsorted_tput _ _ _ (by omega) h.1, fun e he => ?_⟩
    rcases mem_tput he with rfl | he
    · assumption
    · exact h.2 e he

theorem twf_tmod (t : Tab α) (k : Nat) (f : α → α) (h : twf t = true) : twf (tmod t k f) = true := twf_tset _ _ _ h

theorem twf_tfilter (p : Nat → α → Bool) (t : Tab α) (h : twf t = true) : twf (tfilter p t) = true := by
  rw [twf_iff] at h ⊢
  exact ⟨tsorted_filter _ _ h.1, fun e he => h.2 e ((List.mem_filter.mp he).1)⟩

theorem twf_tmap (f : Nat → α → α) (t : Tab α) (h : twf t = true) : twf (tmap f t) = true := by
  rw [twf_iff] at h ⊢
  refine ⟨tsorted_filter _ _ (tsorted_map _ _ h.1), fun e he => ?_⟩
  simpa using (List.mem_filter.mp he).2

end Sys2Proof.Laws
end

