-- ==== Sys2Proof/Laws/Kept.lean ====
section
/-! SUPPORT. What almost every command leaves alone: the firmware's and debug's state, STRAP_DBGOFF, P2's target, the test access port,
the timebase, and P3's privilege.  The lemmas of this name say of each shared operation that it keeps all of it; the few that do
not have none. -/

namespace Sys2Proof.Laws

open Sys2Proof.Machine

/-- The part of the state that few commands change. -/
def kept (s : State) : Fw × Bool × P2St × TapSt × Nat × Bool := (s.fw, s.bring.dbgoff, s.p2, s.tap, s.timebase, isAdmin s 3)

/-- A change of other fields. -/
@[simp] theorem kept_mk_other (t : State) (pending : List Instr) (aclk : Aclk) (freeCtr : Nat) (cnt : Tab Nat) (qps : Tab Qp) (mbx : Tab Mbx) (cmds : List Cmd) (nextId : Nat) (rota : Rota) (hostReads : List HostRead) (hostOut : List HostWrite) (cplOut : List CplOut) (fns : Tab PcieFn) (slots : Tab RSlot) (parts : Tab Part) (locks : Tab Lock) (seqs : Tab Seq) (pools : Tab Pool) (mem : List Host.Cell) (poison : List Nat) (pagePoison : Tab PageMark) (windows : Tab Window) (hostSpill : Option SpillRange) (peerSpill : Tab SpillRange) (segs : Tab Seg) (ctxs : Tab Ctx) (cm : CtxMgr) (sslots : Tab StaticSlot) (jobs : List Job) (engines : Tab Engine) (progs : Tab Prog) (loads : List LoadOp) (tiles : Tab Tile) (flights : List (NocPkt × Damage)) (mesh : Mesh) (reqs : List NocReq) (netq : List (NocPkt × Purpose)) (doms : Tab Domain) (pel : Tab Peloc) (chans : Tab Chan) (groups : Tab Group) (loops : Tab KLoop) (avs : Tab AvsBus) (samples : Nat) (board : Board) (ledger : Ledger) (integ : Integ) (owl : Owl) :
    kept ⟨pending, t.timebase, aclk, freeCtr, t.bring, cnt, t.ports, qps, mbx, cmds, nextId, rota, hostReads, hostOut, cplOut, fns, t.p2, t.tap, slots, parts, locks, seqs, pools, mem, poison, pagePoison, windows, hostSpill, peerSpill, segs, ctxs, cm, sslots, jobs, engines, progs, loads, tiles, flights, mesh, reqs, netq, doms, pel, chans, groups, loops, avs, samples, board, ledger, integ, owl, t.fw⟩ = kept t := rfl

/-- One of bring-up's or the ports' fields too, where STRAP_DBGOFF and P3's privilege stay. -/
@[simp] theorem kept_mk (t : State) (pending : List Instr) (aclk : Aclk) (freeCtr : Nat) (bring : Bring) (cnt : Tab Nat) (ports : Tab Port) (qps : Tab Qp) (mbx : Tab Mbx) (cmds : List Cmd) (nextId : Nat) (rota : Rota) (hostReads : List HostRead) (hostOut : List HostWrite) (cplOut : List CplOut) (fns : Tab PcieFn) (slots : Tab RSlot) (parts : Tab Part) (locks : Tab Lock) (seqs : Tab Seq) (pools : Tab Pool) (mem : List Host.Cell) (poison : List Nat) (pagePoison : Tab PageMark) (windows : Tab Window) (hostSpill : Option SpillRange) (peerSpill : Tab SpillRange) (segs : Tab Seg) (ctxs : Tab Ctx) (cm : CtxMgr) (sslots : Tab StaticSlot) (jobs : List Job) (engines : Tab Engine) (progs : Tab Prog) (loads : List LoadOp) (tiles : Tab Tile) (flights : List (NocPkt × Damage)) (mesh : Mesh) (reqs : List NocReq) (netq : List (NocPkt × Purpose)) (doms : Tab Domain) (pel : Tab Peloc) (chans : Tab Chan) (groups : Tab Group) (loops : Tab KLoop) (avs : Tab AvsBus) (samples : Nat) (board : Board) (ledger : Ledger) (integ : Integ) (owl : Owl)
    (hb : bring.dbgoff = t.bring.dbgoff) (hp : (tget ports 3).admin = (tget t.ports 3).admin) :
    kept ⟨pending, t.timebase, aclk, freeCtr, bring, cnt, ports, qps, mbx, cmds, nextId, rota, hostReads, hostOut, cplOut, fns, t.p2, t.tap, slots, parts, locks, seqs, pools, mem, poison, pagePoison, windows, hostSpill, peerSpill, segs, ctxs, cm, sslots, jobs, engines, progs, loads, tiles, flights, mesh, reqs, netq, doms, pel, chans, groups, loops, avs, samples, board, ledger, integ, owl, t.fw⟩ = kept t := by
  simp [kept, isAdmin, hb, hp]

@[simp] theorem kept_ite (c : Prop) [Decidable c] (a b : State) : kept (if c then a else b) = if c then kept a else kept b := apply_ite kept c a b

@[simp] theorem kept_snd_ite {α : Type} (c : Prop) [Decidable c] (a b : α × State) :
    kept (if c then a else b).2 = if c then kept a.2 else kept b.2 := by split <;> rfl

/-- Repeating what keeps it. -/
theorem kept_foldl {α : Type} (g : State → α → State) (h : ∀ t a, kept (g t a) = kept t) (l : List α) (s : State) :
    kept (l.foldl g s) = kept s := by
  induction l generalizing s with
  | nil => rfl
  | cons a r ih => rw [List.foldl_cons, ih, h]

@[simp] theorem admin_tset (t : Tab Port) (k j : Nat) (v : Port) (h : v.admin = (tget t k).admin) :
    (tget (tset t k v) j).admin = (tget t j).admin := tget_tset_proj t j k v Port.admin h

@[simp] theorem admin_tmod (t : Tab Port) (k j : Nat) (f : Port → Port) (h : ∀ a, (f a).admin = a.admin) :
    (tget (tmod t k f) j).admin = (tget t j).admin := tget_tmod_proj t j k f Port.admin h

theorem admin_fold (ks : List Nat) (f : Port → Port) (h : ∀ o, (f o).admin = o.admin) (t : Tab Port) (j : Nat) :
    (tget (ks.foldl (fun u p => tmod u p f) t) j).admin = (tget t j).admin := by
  induction ks generalizing t with
  | nil => rfl
  | cons k r ih => rw [List.foldl_cons, ih, admin_tmod _ _ _ _ h]

end Sys2Proof.Laws
end

