-- ==== Sys2Proof/Laws/KeptOps.lean ====
section
/-! SUPPORT. The shared operations keep what `kept` names. -/

namespace Sys2Proof.Laws

open Sys2Proof.Machine

/-! ### Machine/Basics.lean -/

@[simp] theorem drawFree_kept (s : State) : kept (drawFree s) = kept s := by
  simp [drawFree]

@[simp] theorem takeId_kept (s : State) : kept (takeId s) = kept s := by
  simp [takeId]

@[simp] theorem raisePort_kept (s : State) (b : Nat) (sc : Scope) (p : Nat) : kept (raisePort s b sc p) = kept s := by
  simp [raisePort]

@[simp] theorem raise_kept (b : Nat) (sc : Scope) (s : State) : kept (raise b sc s) = kept s := by
  simp [raise]

@[simp] theorem raiseOwn_kept (s : State) (p : Nat) (qp : Option Nat) : kept (raiseOwn s p qp) = kept s := by
  unfold raiseOwn
  repeat' first | intro _ | simp | split

@[simp] theorem fireThresholds_kept (s : State) (cid : Nat) (inst : Nat) (old : Nat) (new : Nat) : kept (fireThresholds s cid inst old new) = kept s := by
  unfold fireThresholds
  repeat' first | intro _ | simp | split | refine (kept_foldl _ (fun _ _ => ?_) _ _).trans ?_

@[simp] theorem bumpBy_kept (cid : Nat) (inst : Nat) (n : Nat) (s : State) : kept (bumpBy cid inst n s) = kept s := by
  simp [bumpBy]

@[simp] theorem bump_kept (cid : Nat) (inst : Nat) (s : State) : kept (bump cid inst s) = kept s := by
  simp [bump]

/-! ### Machine/NetSend.lean -/

@[simp] theorem takeInject_kept (unit : Nat) (kind : Nat) (s : State) : kept (takeInject unit kind s) = kept s := by
  simp [takeInject]

@[simp] theorem setSend_kept (r : Nat) (q : Nat) (m : Option McSend) (s : State) : kept (setSend r q m s) = kept s := by
  unfold setSend
  repeat' first | intro _ | simp | split

@[simp] theorem injectNoc_kept (k : NocPkt) (s : State) : kept (injectNoc k s).2 = kept s := by
  simp [injectNoc]

@[simp] theorem sendPkt_kept (k : NocPkt) (s : State) : kept (sendPkt k s) = kept s := by
  simp [sendPkt]

@[simp] theorem sendReq_kept (k : NocPkt) (why : Purpose) (s : State) : kept (sendReq k why s) = kept s := by
  unfold sendReq
  repeat' first | intro _ | simp | split

/-! ### Machine/Owl.lean -/

@[simp] theorem owlSend_kept (n : Nat) (s : State) : kept (owlSend n s) = kept s := by
  simp [owlSend]

@[simp] theorem owlPump_kept (x0 : Nat) (s : State) : kept (owlPump x0 s) = kept s := by
  fun_induction owlPump x0 s <;> simp_all

@[simp] theorem owlPut_kept (r : List Dword) (s : State) : kept (owlPut r s) = kept s := by
  simp [owlPut]

@[simp] theorem owlRecord_kept (r : List Dword) (s : State) : kept (owlRecord r s) = kept s := by
  simp [owlRecord]

@[simp] theorem owlNote_kept (r : List Dword) (s : State) : kept (owlNote r s) = kept s := by
  simp [owlNote]

@[simp] theorem owlSettle_kept (s : State) : kept (owlSettle s) = kept s := by
  simp [owlSettle]

@[simp] theorem owlWritten_kept (records : List (List Dword)) (s : State) : kept (owlWritten records s) = kept s := by
  simp [owlWritten]

@[simp] theorem owlFailed_kept (records : List (List Dword)) (s : State) : kept (owlFailed records s) = kept s := by
  simp [owlFailed]

/-! ### Machine/Ops.lean -/

@[simp] theorem breakLock_kept (s : State) (n : Nat) : kept (breakLock s n) = kept s := by
  unfold breakLock
  repeat' first | intro _ | simp | split

@[simp] theorem breakLocks_kept (own : Nat → Bool) (s : State) : kept (breakLocks own s) = kept s := by
  unfold breakLocks
  repeat' first | intro _ | simp | split | refine (kept_foldl _ (fun _ _ => ?_) _ _).trans ?_

@[simp] theorem orphanBuffers_kept (own : Nat → Bool) (s : State) : kept (orphanBuffers own s) = kept s := by
  simp [orphanBuffers]

@[simp] theorem disown_kept (own : Nat → Bool) (s : State) : kept (disown own s) = kept s := by
  simp [disown]

@[simp] theorem stopQp_kept (c : Nat) (cause : Nat) (s : State) : kept (stopQp c cause s) = kept s := by
  simp [stopQp]

@[simp] theorem hostWrite_kept (spill : Bool) (fn : Nat) (addr : Nat) (data : List Byte) (s : State) : kept (hostWrite spill fn addr data s) = kept s := by
  simp [hostWrite]

@[simp] theorem replyQp_kept (c : Nat) (tag : Nat) (r : Reply) (s : State) : kept (replyQp c tag r s) = kept s := by
  simp [replyQp]

@[simp] theorem replyMbx_kept (p : Nat) (sent : List Byte) (tag : Nat) (r : Reply) (s : State) : kept (replyMbx p sent tag r s) = kept s := by
  simp [replyMbx]

@[simp] theorem enableQp0_kept (c : Nat) (s : State) : kept (enableQp0 c s) = kept s := by
  simp [enableQp0]

@[simp] theorem settleQp0_kept (c : Nat) (s : State) : kept (settleQp0 c s) = kept s := by
  simp [settleQp0]

@[simp] theorem finishQuiet_kept (c : Cmd) (r : Reply) (s : State) : kept (finishQuiet c r s) = kept s := by
  simp [finishQuiet]

@[simp] theorem finish_kept (c : Cmd) (r : Reply) (s : State) : kept (finish c r s) = kept s := by
  simp [finish]

@[simp] theorem takeSlot_kept (c : Cmd) (device : Bool) (s : State) : kept (takeSlot c device s).2 = kept s := by
  simp [takeSlot]

@[simp] theorem post_kept (ticket : Nat) (st : Nat) (res : List Dword) (s : State) : kept (post ticket st res s) = kept s := by
  simp [post]

theorem portReset_kept (p : Nat) (hp : p < 2) (s : State) : kept (portReset p s) = kept s := by
  have h2 : ¬p = 2 := by omega
  have h3 : ¬p = 3 := by omega
  unfold portReset
  split
  · rfl
  · simp only [orphanBuffers_kept, breakLocks_kept, h3, if_false, false_and]
    have ha : (tget s.ports 3).admin = (tget (disown (fun c => portOf c == p) s).ports 3).admin := by
      have := disown_kept (fun c => portOf c == p) s
      simp only [kept, isAdmin, Prod.mk.injEq] at this
      exact this.2.2.2.2.2.symm
    refine Eq.trans (kept_mk (disown (fun c => portOf c == p) s) (hb := rfl) (hp := ?_) ..) (disown_kept _ _)
    rw [tget_tset, if_neg (Ne.symm h3)]

/-! ### Machine/Operands.lean -/

@[simp] theorem memPut_kept (a : Nat) (data : List Byte) (s : State) : kept (memPut a data s) = kept s := by
  simp [memPut]

@[simp] theorem memPutBad_kept (a : Nat) (data : List Byte) (bad : List Nat) (s : State) : kept (memPutBad a data bad s) = kept s := by
  simp [memPutBad]

@[simp] theorem memZero_kept (a : Nat) (n : Nat) (s : State) : kept (memZero a n s) = kept s := by
  simp [memZero]

@[simp] theorem countFault_kept (part : Nat) (st : Nat) (s : State) : kept (countFault part st s) = kept s := by
  simp [countFault]

/-! ### Machine/Faults.lean -/

@[simp] theorem queueRec_kept (r : LRec) (s : State) : kept (queueRec r s) = kept s := by
  simp [queueRec]

@[simp] theorem judge_kept (r : LRec) (injected : Bool) (s : State) : kept (judge r injected s) = kept s := by
  simp [judge]

@[simp] theorem poisonMet_kept (part : Nat) (unit : Nat) (addr : Nat) (bundle : Nat) (s : State) : kept (poisonMet part unit addr bundle s) = kept s := by
  simp [poisonMet]

@[simp] theorem poisonConsumed_kept (part : Nat) (unit : Nat) (addr : Nat) (bundle : Nat) (s : State) : kept (poisonConsumed part unit addr bundle s) = kept s := by
  simp [poisonConsumed]

@[simp] theorem poisonPropagated_kept (part : Nat) (blocks : Nat) (s : State) : kept (poisonPropagated part blocks s) = kept s := by
  simp [poisonPropagated]

@[simp] theorem corrected_kept (cid : Nat) (unit : Nat) (limit : Nat) (injected : Bool) (s : State) : kept (corrected cid unit limit injected s) = kept s := by
  simp [corrected]

@[simp] theorem markSector_kept (a : Nat) (s : State) : kept (markSector a s) = kept s := by
  simp [markSector]

@[simp] theorem sramUncorr_kept (a : Nat) (passed : Bool) (injected : Bool) (s : State) : kept (sramUncorr a passed injected s) = kept s := by
  simp [sramUncorr]

@[simp] theorem hbmUncorr_kept (a : Nat) (injected : Bool) (s : State) : kept (hbmUncorr a injected s) = kept s := by
  simp [hbmUncorr]

@[simp] theorem eccAt_kept (a : Nat) (f : EccFinding) (injected : Bool) (s : State) : kept (eccAt a f injected s) = kept s := by
  unfold eccAt
  repeat' first | intro _ | simp | split

@[simp] theorem wordEcc_kept (unit : Nat) (st : Nat) (part : Option Nat) (f : EccFinding) (injected : Bool) (s : State) : kept (wordEcc unit st part f injected s) = kept s := by
  unfold wordEcc
  repeat' first | intro _ | simp | split

@[simp] theorem countEcc_kept (unit : Nat) (f : EccFinding) (s : State) : kept (countEcc unit f s) = kept s := by
  unfold countEcc
  repeat' first | intro _ | simp | split

@[simp] theorem controlEcc_kept (unit : Nat) (f : EccFinding) (s : State) : kept (controlEcc unit f s) = kept s := by
  unfold controlEcc
  repeat' first | intro _ | simp | split

@[simp] theorem beginCondition_kept (b : Nat) (s : State) : kept (beginCondition b s) = kept s := by
  simp [beginCondition]

@[simp] theorem beginDrain_kept (suspect : Bool) (unit : Nat) (slot : Option Nat) (reason : Nat) (s : State) : kept (beginDrain suspect unit slot reason s) = kept s := by
  simp [beginDrain]

@[simp] theorem suspectDrain_kept (unit : Nat) (slot : Nat) (s : State) : kept (suspectDrain unit slot s) = kept s := by
  unfold suspectDrain
  repeat' first | intro _ | simp | split

@[simp] theorem retire_kept (s : State) : kept (retire s) = kept s := by
  simp [retire]

@[simp] theorem putRec_kept (k : Nat) (r : LRec) (s : State) : kept (putRec k r s) = kept s := by
  simp [putRec]

@[simp] theorem unqueue_kept (s : State) : kept (unqueue s) = kept s := by
  simp [unqueue]

@[simp] theorem dropRec_kept (r : LRec) (s : State) : kept (dropRec r s) = kept s := by
  simp [dropRec]

@[simp] theorem writeRec_kept (verified : Bool) (s : State) : kept (writeRec verified s) = kept s := by
  unfold writeRec
  repeat' first | intro _ | simp | split

/-! ### Machine/Probes.lean -/

@[simp] theorem countProbe_kept (n : Nat) (m : Nat) (s : State) : kept (countProbe n m s) = kept s := by
  simp [countProbe]

@[simp] theorem probeSees_kept (k : NocPkt) (c : Crossing) (n : Nat) (s : State) : kept (probeSees k c n s) = kept s := by
  simp [probeSees]

@[simp] theorem observeAt_kept (k : NocPkt) (s : State) (c : Crossing) : kept (observeAt k s c) = kept s := by
  unfold observeAt
  repeat' first | intro _ | simp | split | refine (kept_foldl _ (fun _ _ => ?_) _ _).trans ?_

@[simp] theorem observeOn_kept (k : NocPkt) (path : List Crossing) (s : State) : kept (observeOn k path s) = kept s := by
  unfold observeOn
  repeat' first | intro _ | simp | split | refine (kept_foldl _ (fun _ _ => ?_) _ _).trans ?_

@[simp] theorem observePkt_kept (k : NocPkt) (s : State) : kept (observePkt k s) = kept s := by
  simp [observePkt]

/-! ### Machine/Carry.lean -/

@[simp] theorem parityRec_kept (k : NocPkt) (r : Nat) (word : Nat) (injected : Bool) (s : State) : kept (parityRec k r word injected s) = kept s := by
  simp [parityRec]

@[simp] theorem dropPkt_kept (r : Nat) (s : State) : kept (dropPkt r s) = kept s := by
  simp [dropPkt]

@[simp] theorem countParity_kept (k : NocPkt) (r : Nat) (injected : Bool) (ss : List Nat) (s : State) : kept (countParity k r injected ss s) = kept s := by
  unfold countParity
  repeat' first | intro _ | simp | split | refine (kept_foldl _ (fun _ _ => ?_) _ _).trans ?_

@[simp] theorem carry_kept (k : NocPkt) (s : State) : kept (carry k s).2 = kept s := by
  simp [carry]

theorem carry_keeps (k : NocPkt) (s : State) (oo : _) (uu : State) (hh : carry k s = (oo, uu)) : kept uu = kept s := (congrArg (fun r => kept r.2) hh).symm.trans (carry_kept k s)

@[simp] theorem requestLost_kept (via : Via) (k : NocPkt) (s : State) : kept (requestLost via k s) = kept s := by
  simp [requestLost]

@[simp] theorem fenceRefuses_kept (via : Via) (k : NocPkt) (hint : Nat) (s : State) : kept (fenceRefuses via k hint s) = kept s := by
  simp only [fenceRefuses]
  (repeat' split) <;> (try simp) <;> (try grind [→ carry_keeps])

/-! ### Machine/Access.lean -/

@[simp] theorem onTile_kept (t : Nat) (f : Tile → Tile) (s : State) : kept (onTile t f s) = kept s := by
  simp [onTile]

@[simp] theorem onPair_kept (t : Nat) (f : Tile → Tile) (s : State) : kept (onPair t f s) = kept s := by
  unfold onPair
  repeat' first | intro _ | simp | split | refine (kept_foldl _ (fun _ _ => ?_) _ _).trans ?_

@[simp] theorem spoilWords_kept (ws : List (Nat × EccFinding)) (s : State) : kept (spoilWords ws s) = kept s := by
  simp [spoilWords]

@[simp] theorem surface_kept (ls : List (Nat × Nat)) (s : State) : kept (surface ls s) = kept s := by
  unfold surface
  repeat' first | intro _ | simp | split | refine (kept_foldl _ (fun _ _ => ?_) _ _).trans ?_

@[simp] theorem coverLatent_kept (a : Nat) (n : Nat) (s : State) : kept (coverLatent a n s) = kept s := by
  simp [coverLatent]

@[simp] theorem plantFaults_kept (a : Nat) (n : Nat) (s : State) : kept (plantFaults a n s) = kept s := by
  unfold plantFaults
  repeat' first | intro _ | simp | split | refine (kept_foldl _ (fun _ _ => ?_) _ _).trans ?_

@[simp] theorem zeroRange_kept (a : Nat) (n : Nat) (s : State) : kept (zeroRange a n s) = kept s := by
  simp [zeroRange]

@[simp] theorem mirrorStore_kept (a : Nat) (n : Nat) (s : State) : kept (mirrorStore a n s) = kept s := by
  unfold mirrorStore
  repeat' first | intro _ | simp | split

@[simp] theorem raiseSpill_kept (part : Nat) (s : State) : kept (raiseSpill part s) = kept s := by
  simp [raiseSpill]

@[simp] theorem countSpill_kept (part : Nat) (wr : Bool) (p : Piece) (s : State) : kept (countSpill part wr p s) = kept s := by
  simp [countSpill]

@[simp] theorem countSpillError_kept (part : Nat) (p : Piece) (s : State) : kept (countSpillError part p s) = kept s := by
  simp [countSpillError]

@[simp] theorem countHostFault_kept (a : Nat) (s : State) : kept (countHostFault a s) = kept s := by
  unfold countHostFault
  repeat' first | intro _ | simp | split

@[simp] theorem readPiece_kept (part : Option Nat) (p : Piece) (s : State) : kept (readPiece part p s).2.2 = kept s := by
  unfold readPiece
  repeat' first | intro _ | simp | split

@[simp] theorem readRun_kept (via : Via) (part : Option Nat) (p : Piece) (s : State) : kept (readRun via part p s).s = kept s := by
  simp only [readRun]
  split
  · rename_i t h
    simpa using carry_keeps _ _ _ _ h
  · rename_i k1 t h
    have h1 := carry_keeps _ _ _ _ h
    split
    · rename_i u h2
      simpa [h1] using carry_keeps _ _ _ _ h2
    · rename_i k2 u h2
      simpa [h1] using carry_keeps _ _ _ _ h2

@[simp] theorem readRuns_kept (via : Via) (part : Option Nat) (o : Nat) (ps : List Piece) (s : State) : kept (readRuns via part o ps s).s = kept s := by
  induction ps generalizing o s with
  | nil => rfl
  | cons p r ih => simp [readRuns, ih]

@[simp] theorem forgetPages_kept (s : State) : kept (forgetPages s) = kept s := by
  simp [forgetPages]

@[simp] theorem markPage_kept (a : Nat) (s : State) : kept (markPage a s) = kept s := by
  simp [markPage]

@[simp] theorem writePiece_kept (part : Option Nat) (p : Piece) (data : List Byte) (bad : List Nat) (s : State) : kept (writePiece part p data bad s) = kept s := by
  unfold writePiece
  repeat' first | intro _ | simp | split

@[simp] theorem writeRun_kept (via : Via) (part : Option Nat) (p : Piece) (data : List Byte) (bad : List Nat) (s : State) :
    kept (writeRun via part p data bad s).2 = kept s := by
  simp only [writeRun]
  split
  · rename_i t h
    simp only [requestLost_kept]
    split <;> simpa using carry_keeps _ _ _ _ h
  · rename_i k1 t h
    have h1 := carry_keeps _ _ _ _ h
    split
    · rename_i u h2
      simpa [h1] using carry_keeps _ _ _ _ h2
    · rename_i k2 u h2
      simpa [h1] using carry_keeps _ _ _ _ h2

theorem writeRun_keeps (via : Via) (part : Option Nat) (p : Piece) (data : List Byte) (bad : List Nat) (s : State) (oo : _) (uu : State) (hh : writeRun via part p data bad s = (oo, uu)) : kept uu = kept s := (congrArg (fun r => kept r.2) hh).symm.trans (writeRun_kept via part p data bad s)

@[simp] theorem writeRuns_kept (via : Via) (part : Option Nat) (x0 : List Piece) (x1 : List Byte) (x2 : List Nat) (s : State) : kept (writeRuns via part x0 x1 x2 s).2 = kept s := by
  fun_induction writeRuns via part x0 x1 x2 s <;> (try simp_all) <;> grind [→ writeRun_keeps]

@[simp] theorem turnedAway_kept (via : Via) (part : Option Nat) (f : Fenced) (s : State) : kept (turnedAway via part f s) = kept s := by
  simp [turnedAway]

@[simp] theorem readPieces_kept (via : Via) (part : Option Nat) (ps : List Piece) (s : State) : kept (readPieces via part ps s).s = kept s := by
  unfold readPieces
  repeat' first | intro _ | simp | split

@[simp] theorem writePieces_kept (via : Via) (part : Option Nat) (ps : List Piece) (data : List Byte) (bad : List Nat) (s : State) : kept (writePieces via part ps data bad s).s = kept s := by
  unfold writePieces
  repeat' first | intro _ | simp | split

@[simp] theorem partRead_kept (via : Via) (part : Nat) (a : Nat) (n : Nat) (s : State) : kept (partRead via part a n s).s = kept s := by
  unfold partRead
  repeat' first | intro _ | simp | split

@[simp] theorem partWrite_kept (via : Via) (part : Nat) (a : Nat) (data : List Byte) (bad : List Nat) (s : State) : kept (partWrite via part a data bad s).s = kept s := by
  unfold partWrite
  repeat' first | intro _ | simp | split

@[simp] theorem sysRead_kept (via : Via) (a : Nat) (n : Nat) (s : State) : kept (sysRead via a n s).s = kept s := by
  simp [sysRead]

@[simp] theorem sysWrite_kept (via : Via) (a : Nat) (data : List Byte) (s : State) : kept (sysWrite via a data s).s = kept s := by
  simp [sysWrite]

@[simp] theorem accessFailed_kept (k : NocPkt) (s : State) : kept (accessFailed k s) = kept s := by
  simp [accessFailed]

@[simp] theorem readFailed_kept (k : NocPkt) (s : State) : kept (readFailed k s) = kept s := by
  simp [readFailed]

@[simp] theorem readServed_kept (k : NocPkt) (bytes : List Byte) (bad : List Nat) (failed : Bool) (s : State) : kept (readServed k bytes bad failed s) = kept s := by
  simp [readServed]

/-! ### Machine/NetCore.lean -/

@[simp] theorem sendWaiting_kept (x0 : Nat) (x1 : Nat) (x2 : Nat) (s : State) : kept (sendWaiting x0 x1 x2 s) = kept s := by
  fun_induction sendWaiting x0 x1 x2 s <;> simp_all

@[simp] theorem dropReq_kept (r : Nat) (q : Nat) (tag : Nat) (s : State) : kept (dropReq r q tag s) = kept s := by
  simp [dropReq]

@[simp] theorem orphanReqs_kept (own : Purpose → Bool) (s : State) : kept (orphanReqs own s) = kept s := by
  simp [orphanReqs]

@[simp] theorem repurpose_kept (f : Purpose → Purpose) (s : State) : kept (repurpose f s) = kept s := by
  simp [repurpose]

@[simp] theorem orphanTails_kept (part : Nat) (s : State) : kept (orphanTails part s) = kept s := by
  simp [orphanTails]

/-! ### Machine/Protocol.lean -/

@[simp] theorem mbxPut_kept (p : Nat) (off : Nat) (data : List Byte) (s : State) : kept (mbxPut p off data s) = kept s := by
  simp [mbxPut]

@[simp] theorem hostRead_kept (fn : Nat) (addr : Nat) (len : Nat) (k : ReadKind) (s : State) : kept (hostRead fn addr len k s) = kept s := by
  simp [hostRead]

@[simp] theorem outWrite_kept (x : Cmd) (k : Nat) (data : List Byte) (s : State) : kept (outWrite x k data s) = kept s := by
  simp [outWrite]

@[simp] theorem frontReply_kept (c : Nat) (p : Packet) (st : Nat) (s : State) : kept (frontReply c p st s) = kept s := by
  simp [frontReply]

@[simp] theorem takeIn_kept (c : Nat) (p : Packet) (s : State) : kept (takeIn c p s) = kept s := by
  simp [takeIn]

@[simp] theorem turned_kept (c : Nat) (s : State) : kept (turned c s) = kept s := by
  simp [turned]

@[simp] theorem refuse_kept (x : Cmd) (v : Verdict) (s : State) : kept (refuse x v s) = kept s := by
  unfold refuse
  repeat' first | intro _ | simp | split | refine (kept_foldl _ (fun _ _ => ?_) _ _).trans ?_

@[simp] theorem stageCmd_kept (x : Cmd) (s : State) : kept (stageCmd x s) = kept s := by
  simp [stageCmd]

@[simp] theorem pend_kept (x : Cmd) (work : Nat → State → State) (s : State) (hwork : ∀ y0 t, kept (work y0 t) = kept t) : kept (pend x work s) = kept s := by
  simp [pend, hwork]

@[simp] theorem onCmd_kept (x : Cmd) (f : Cmd → Cmd) (s : State) : kept (onCmd x f s) = kept s := by
  simp [onCmd]

@[simp] theorem stall_kept (x : Cmd) (s : State) : kept (stall x s) = kept s := by
  simp [stall]

@[simp] theorem askBlock_kept (x : Cmd) (s : State) : kept (askBlock x s) = kept s := by
  simp [askBlock]

@[simp] theorem judgeCmd_kept (x : Cmd) (chk : State → Cmd → Verdict) (act : Cmd → State → State) (s : State) (hact : ∀ y0 t, kept (act y0 t) = kept t) : kept (judgeCmd x chk act s) = kept s := by
  simp [judgeCmd, hact]

@[simp] theorem serve_kept (op : Nat) (c : Nat) (p : Packet) (chk : State → Cmd → Verdict) (act : Cmd → State → State) (s : State) (hact : ∀ y0 t, kept (act y0 t) = kept t) : kept (serve op c p chk act s) = kept s := by
  unfold serve
  repeat' first | intro _ | simp [hact] | split

@[simp] theorem actFw_kept (app : Cmd → State → Reply × State) (x : Cmd) (s : State) (happ : ∀ y0 t, kept (app y0 t).2 = kept t) : kept (actFw app x s) = kept s := by
  simp [actFw, happ]

@[simp] theorem actRead_kept (rep : State → Cmd → List Dword) (x : Cmd) (s : State) : kept (actRead rep x s) = kept s := by
  simp [actRead]

@[simp] theorem actDo_kept (app : Cmd → State → State) (x : Cmd) (s : State) (happ : ∀ y0 t, kept (app y0 t) = kept t) : kept (actDo app x s) = kept s := by
  simp [actDo, happ]

@[simp] theorem actOut_kept (k : Nat) (out : State → Cmd → List Byte) (rep : State → Cmd → List Dword) (x : Cmd) (s : State) : kept (actOut k out rep x s) = kept s := by
  simp [actOut]

@[simp] theorem answer_kept (op : Nat) (c : Nat) (p : Packet) (rep : State → Cmd → List Dword) (s : State) : kept (answer op c p rep s) = kept s := by
  unfold answer
  repeat' first | intro _ | simp | split

@[simp] theorem park_kept (x : Cmd) (s : State) : kept (park x s) = kept s := by
  simp [park]

/-! ### Machine/Counters.lean -/

@[simp] theorem clearCounters_kept (cid : Nat) (inst : Nat) (s : State) : kept (clearCounters cid inst s) = kept s := by
  simp [clearCounters]

@[simp] theorem setView_kept (c : Nat) (v : View) (s : State) : kept (setView c v s) = kept s := by
  unfold setView
  repeat' first | intro _ | simp | split

@[simp] theorem raiseView_kept (c : Nat) (s : State) : kept (raiseView c s) = kept s := by
  unfold raiseView
  repeat' first | intro _ | simp | split

end Sys2Proof.Laws
end

