-- ==== Sys2Proof/Laws/KeptUnits.lean ====
section
/-! SUPPORT. Buffers, memory, Kestrel, streams, bring-up, codecs, locks, tiles and programs keep what `kept` names. -/

namespace Sys2Proof.Laws

open Sys2Proof.Machine

/-! ### Machine/CmdBuffers.lean -/

theorem allocBuf_kept (k : Nat) (o : BufOwner) (s : State) (r : Nat × State) (h : allocBuf k o s = some r) : kept r.2 = kept s := by
  simp only [allocBuf] at h
  (repeat' split at h) <;> first | (cases h; done) | (cases h; simp; done)

@[simp] theorem poolCreateApply_kept (x : Cmd) (s : State) : kept (poolCreateApply x s) = kept s := by
  simp [poolCreateApply]

@[simp] theorem poolCreateEffect_kept (c : Nat) (p : Packet) (s : State) : kept (poolCreateEffect c p s) = kept s := by
  simp [poolCreateEffect]

@[simp] theorem poolDestroyApply_kept (x : Cmd) (s : State) : kept (poolDestroyApply x s) = kept s := by
  simp [poolDestroyApply]

@[simp] theorem poolDestroyEffect_kept (c : Nat) (p : Packet) (s : State) : kept (poolDestroyEffect c p s) = kept s := by
  simp [poolDestroyEffect]

@[simp] theorem bufAllocApply_kept (x : Cmd) (s : State) : kept (bufAllocApply x s).2 = kept s := by
  simp only [bufAllocApply]
  (repeat' split) <;> (try simp) <;> (try grind [→ allocBuf_kept])

@[simp] theorem bufAllocEffect_kept (c : Nat) (p : Packet) (s : State) : kept (bufAllocEffect c p s) = kept s := by
  simp [bufAllocEffect]

@[simp] theorem bufFreeApply_kept (x : Cmd) (s : State) : kept (bufFreeApply x s) = kept s := by
  simp [bufFreeApply]

@[simp] theorem bufFreeEffect_kept (c : Nat) (p : Packet) (s : State) : kept (bufFreeEffect c p s) = kept s := by
  simp [bufFreeEffect]

@[simp] theorem poolReadEffect_kept (c : Nat) (p : Packet) (s : State) : kept (poolReadEffect c p s) = kept s := by
  simp [poolReadEffect]

/-! ### Machine/Streams.lean -/

@[simp] theorem plantCtx_kept (n : Nat) (s : State) : kept (plantCtx n s) = kept s := by
  simp [plantCtx]

@[simp] theorem setCtx_kept (n : Nat) (x : Ctx) (s : State) : kept (setCtx n x s) = kept s := by
  simp [setCtx]

@[simp] theorem ctxEcc_kept (n : Nat) (st : Nat) (part : Option Nat) (f : EccFinding) (injected : Bool) (s : State) : kept (ctxEcc n st part f injected s) = kept s := by
  simp [ctxEcc]

@[simp] theorem readCtx_kept (n : Nat) (st : Nat) (part : Option Nat) (s : State) : kept (readCtx n st part s) = kept s := by
  unfold readCtx
  repeat' first | intro _ | simp | split | refine (kept_foldl _ (fun _ _ => ?_) _ _).trans ?_

@[simp] theorem rewriteCtx_kept (n : Nat) (x : Ctx) (s : State) : kept (rewriteCtx n x s) = kept s := by
  simp [rewriteCtx]

@[simp] theorem ctxSpill_kept (x : Ctx) (s : State) : kept (ctxSpill x s) = kept s := by
  simp [ctxSpill]

@[simp] theorem writeBack_kept (n : Nat) (s : State) : kept (writeBack n s) = kept s := by
  simp [writeBack]

@[simp] theorem evictOne_kept (s : State) : kept (evictOne s) = kept s := by
  unfold evictOne
  repeat' first | intro _ | simp | split

@[simp] theorem fillCtx_kept (n : Nat) (s : State) : kept (fillCtx n s) = kept s := by
  simp [fillCtx]

theorem readSpans_kept (via : Via) (part : Nat) (rs : List (Nat × Nat)) (s : State) (r : List PByte × State)
    (h : readSpans via part rs s = .ok r) : kept r.2 = kept s := by
  induction rs generalizing s r with
  | nil => cases h; rfl
  | cons a q ih =>
    simp only [readSpans] at h
    split at h
    · cases h
    · split at h
      · cases h
      · rename_i h2
        cases h
        simpa using ih _ _ h2

theorem writeSpans_kept (via : Via) (part : Nat) (rs : List (Nat × Nat)) (bs : List Byte) (s t : State)
    (h : writeSpans via part rs bs s = .ok t) : kept t = kept s := by
  induction rs generalizing bs s with
  | nil => cases h; rfl
  | cons a q ih =>
    simp only [writeSpans] at h
    split at h
    · cases h
    · simpa using ih _ _ h

theorem readHist_kept (via : Via) (x : Ctx) (s : State) (r : List PByte × State) (h : readHist via x s = .ok r) : kept r.2 = kept s := by
  simp only [readHist] at h
  (repeat' split at h) <;> grind [→ readSpans_kept]

theorem addHist_kept (via : Via) (x : Ctx) (linked : Bool) (coded : List Byte) (s : State) (r : Ctx × State) (h : addHist via x linked coded s = .ok r) : kept r.2 = kept s := by
  simp only [addHist] at h
  (repeat' split at h) <;> grind [→ writeSpans_kept]

theorem commitDecode_kept (via : Via) (n : Nat) (d : Decoded) (s : State) (r : State) (h : commitDecode via n d s = .ok r) : kept r = kept s := by
  simp only [commitDecode] at h
  (repeat' split at h) <;> first | (cases h; done) | (cases h; simp; done) | (cases h; simp; grind [→ addHist_kept])

@[simp] theorem failContext_kept (n : Nat) (err : Nat) (s : State) : kept (failContext n err s) = kept s := by
  simp [failContext]

@[simp] theorem failDecode_kept (unit : Nat) (stream : Option Nat) (err : Nat) (s : State) : kept (failDecode unit stream err s) = kept s := by
  unfold failDecode
  repeat' first | intro _ | simp | split

theorem formBlock_kept (via : Via) (x : Ctx) (r : FormReq) (s : State) (res : Encoded × Bool × State) (h : formBlock via x r s = .ok res) : kept res.2.2 = kept s := by
  simp only [formBlock] at h
  (repeat' split at h) <;> grind [→ readHist_kept]

theorem commitEncode_kept (via : Via) (n : Nat) (b : Encoded) (poison : Bool) (s : State) (r : State) (h : commitEncode via n b poison s = .ok r) : kept r = kept s := by
  simp only [commitEncode] at h
  (repeat' split at h) <;> first | (cases h; done) | (cases h; simp; done) | (cases h; simp; grind [→ addHist_kept])

theorem readPending_kept (via : Via) (x : Ctx) (s : State) (r : List PByte × State) (h : readPending via x s = .ok r) : kept r.2 = kept s := by
  simp only [readPending] at h
  (repeat' split at h) <;> grind [→ readSpans_kept]

theorem setPending_kept (via : Via) (n : Nat) (ps : List PByte) (s : State) (r : State) (h : setPending via n ps s = .ok r) : kept r = kept s := by
  simp only [setPending] at h
  (repeat' split at h) <;> first | (cases h; done) | (cases h; simp; done)

theorem setPendingUnits_kept (via : Via) (n : Nat) (us : List PByte) (s : State) (r : State) (h : setPendingUnits via n us s = .ok r) : kept r = kept s := by
  simp only [setPendingUnits] at h
  (repeat' split at h) <;> (first | (cases h; done) | (cases h; simp; done) | (cases h; (try simp); grind [→ setPending_kept]) | (grind [→ setPending_kept]))

theorem flushBlock_kept (n : Nat) (s : State) (r : FlushEnd × State) (h : flushBlock n s = .ok r) : kept r.2 = kept s := by
  simp only [flushBlock] at h
  split at h
  · cases h; rfl
  · split at h
    · cases h
    · rename_i h1
      split at h
      · cases h
      · rename_i h2
        split at h
        · cases h
        · split at h
          · cases h
          · rename_i h4
            split at h
            · cases h
            · rename_i h5
              cases h
              have h6 := setPending_kept _ _ _ _ _ h5
              simp only [setCtx_kept] at h6
              simp [h6, commitEncode_kept _ _ _ _ _ _ h4, formBlock_kept _ _ _ _ _ h2, readPending_kept _ _ _ _ h1]

@[simp] theorem flushCtx_kept (n : Nat) (s : State) : kept (flushCtx n s).2 = kept s := by
  simp only [flushCtx]
  (repeat' split) <;> (try simp) <;> (try grind [→ flushBlock_kept])

theorem flushCtx_keeps (n : Nat) (s : State) (oo : _) (uu : State) (hh : flushCtx n s = (oo, uu)) : kept uu = kept s := (congrArg (fun r => kept r.2) hh).symm.trans (flushCtx_kept n s)

@[simp] theorem takeCtx_kept (u : Nat) (n : Nat) (s : State) : kept (takeCtx u n s) = kept s := by
  simp [takeCtx]

@[simp] theorem askCtx_kept (u : Nat) (n : Nat) (s : State) : kept (askCtx u n s) = kept s := by
  simp [askCtx]

@[simp] theorem runFlushes_kept (n : Nat) (x0 : List Nat) (s : State) : kept (runFlushes n x0 s) = kept s := by
  fun_induction runFlushes n x0 s <;> (try simp_all) <;> grind [→ flushCtx_keeps]

@[simp] theorem runFlush_kept (n : Nat) (s : State) : kept (runFlush n s) = kept s := by
  simp [runFlush]

@[simp] theorem releaseCtx_kept (u : Nat) (n : Nat) (s : State) : kept (releaseCtx u n s) = kept s := by
  simp [releaseCtx]

@[simp] theorem boundaryCtx_kept (u : Nat) (n : Nat) (s : State) : kept (boundaryCtx u n s) = kept s := by
  simp [boundaryCtx]

@[simp] theorem forgetWaits_kept (u : Nat) (s : State) : kept (forgetWaits u s) = kept s := by
  simp [forgetWaits]

/-! ### Machine/CmdMemory.lean -/

@[simp] theorem windowMapStart_kept (x : Cmd) (ticket : Nat) (s : State) : kept (windowMapStart x ticket s) = kept s := by
  simp [windowMapStart]

@[simp] theorem windowMapEffect_kept (c : Nat) (p : Packet) (s : State) : kept (windowMapEffect c p s) = kept s := by
  simp [windowMapEffect]

@[simp] theorem windowUnmapApply_kept (x : Cmd) (s : State) : kept (windowUnmapApply x s) = kept s := by
  simp [windowUnmapApply]

@[simp] theorem windowUnmapEffect_kept (c : Nat) (p : Packet) (s : State) : kept (windowUnmapEffect c p s) = kept s := by
  simp [windowUnmapEffect]

@[simp] theorem windowReadEffect_kept (c : Nat) (p : Packet) (s : State) : kept (windowReadEffect c p s) = kept s := by
  simp [windowReadEffect]

@[simp] theorem hostSpillSetApply_kept (x : Cmd) (s : State) : kept (hostSpillSetApply x s) = kept s := by
  simp [hostSpillSetApply]

@[simp] theorem hostSpillSetEffect_kept (c : Nat) (p : Packet) (s : State) : kept (hostSpillSetEffect c p s) = kept s := by
  simp [hostSpillSetEffect]

@[simp] theorem peerSpillSetApply_kept (x : Cmd) (s : State) : kept (peerSpillSetApply x s) = kept s := by
  simp [peerSpillSetApply]

@[simp] theorem peerSpillSetEffect_kept (c : Nat) (p : Packet) (s : State) : kept (peerSpillSetEffect c p s) = kept s := by
  simp [peerSpillSetEffect]

@[simp] theorem contextBaseStart_kept (x : Cmd) (ticket : Nat) (s : State) : kept (contextBaseStart x ticket s) = kept s := by
  simp [contextBaseStart]

@[simp] theorem contextBaseEffect_kept (c : Nat) (p : Packet) (s : State) : kept (contextBaseEffect c p s) = kept s := by
  simp [contextBaseEffect]

@[simp] theorem memReadAct_kept (x : Cmd) (s : State) : kept (memReadAct x s) = kept s := by
  simp [memReadAct]

@[simp] theorem memReadEffect_kept (c : Nat) (p : Packet) (s : State) : kept (memReadEffect c p s) = kept s := by
  simp [memReadEffect]

@[simp] theorem memWriteFinish_kept (x : Cmd) (data : List Byte) (s : State) : kept (memWriteFinish x data s) = kept s := by
  simp [memWriteFinish]

@[simp] theorem memWriteAct_kept (x : Cmd) (s : State) : kept (memWriteAct x s) = kept s := by
  simp [memWriteAct]

@[simp] theorem memWriteEffect_kept (c : Nat) (p : Packet) (s : State) : kept (memWriteEffect c p s) = kept s := by
  simp [memWriteEffect]

/-! ### Machine/CmdKestrel.lean -/

@[simp] theorem onLoop_kept (n : Nat) (f : KLoop → KLoop) (s : State) : kept (onLoop n f s) = kept s := by
  simp [onLoop]

@[simp] theorem loopReadEffect_kept (c : Nat) (p : Packet) (s : State) : kept (loopReadEffect c p s) = kept s := by
  simp [loopReadEffect]

@[simp] theorem loopSetModeAct_kept (x : Cmd) (s : State) : kept (loopSetModeAct x s) = kept s := by
  simp [loopSetModeAct]

@[simp] theorem loopSetModeEffect_kept (c : Nat) (p : Packet) (s : State) : kept (loopSetModeEffect c p s) = kept s := by
  simp [loopSetModeEffect]

@[simp] theorem loopWriteCoefApply_kept (x : Cmd) (s : State) : kept (loopWriteCoefApply x s) = kept s := by
  simp [loopWriteCoefApply]

@[simp] theorem loopWriteCoefEffect_kept (c : Nat) (p : Packet) (s : State) : kept (loopWriteCoefEffect c p s) = kept s := by
  simp [loopWriteCoefEffect]

@[simp] theorem loopSetPointApply_kept (x : Cmd) (s : State) : kept (loopSetPointApply x s) = kept s := by
  simp [loopSetPointApply]

@[simp] theorem loopSetPointEffect_kept (c : Nat) (p : Packet) (s : State) : kept (loopSetPointEffect c p s) = kept s := by
  simp [loopSetPointEffect]

@[simp] theorem loopTraceStart_kept (x : Cmd) (tk : Nat) (s : State) : kept (loopTraceStart x tk s) = kept s := by
  simp [loopTraceStart]

@[simp] theorem loopTraceEffect_kept (c : Nat) (p : Packet) (s : State) : kept (loopTraceEffect c p s) = kept s := by
  simp [loopTraceEffect]

@[simp] theorem loopInjectStart_kept (x : Cmd) (tk : Nat) (s : State) : kept (loopInjectStart x tk s) = kept s := by
  simp [loopInjectStart]

@[simp] theorem loopInjectEffect_kept (c : Nat) (p : Packet) (s : State) : kept (loopInjectEffect c p s) = kept s := by
  simp [loopInjectEffect]

@[simp] theorem avsAccessAct_kept (x : Cmd) (s : State) : kept (avsAccessAct x s) = kept s := by
  simp [avsAccessAct]

@[simp] theorem avsAccessEffect_kept (c : Nat) (p : Packet) (s : State) : kept (avsAccessEffect c p s) = kept s := by
  simp [avsAccessEffect]

@[simp] theorem boardStatusEffect_kept (c : Nat) (p : Packet) (s : State) : kept (boardStatusEffect c p s) = kept s := by
  simp [boardStatusEffect]

/-! ### Machine/KestrelEv.lean -/

@[simp] theorem onChan_kept (n : Nat) (q : Nat) (f : LoopCh → LoopCh) (s : State) : kept (onChan n q f s) = kept s := by
  simp [onChan]

@[simp] theorem dropModes_kept (n : Nat) (s : State) : kept (dropModes n s) = kept s := by
  unfold dropModes
  repeat' first | intro _ | simp | split | refine (kept_foldl _ (fun _ _ => ?_) _ _).trans ?_

@[simp] theorem endTrace_kept (n : Nat) (s : State) : kept (endTrace n s) = kept s := by
  unfold endTrace
  repeat' first | intro _ | simp | split

@[simp] theorem enterFault_kept (n : Nat) (cause : Nat) (ch : Nat) (s : State) : kept (enterFault n cause ch s) = kept s := by
  simp [enterFault]

@[simp] theorem stepTrace_kept (n : Nat) (s : State) : kept (stepTrace n s) = kept s := by
  unfold stepTrace
  repeat' first | intro _ | simp | split

@[simp] theorem applyStretch_kept (s : State) : kept (applyStretch s) = kept s := by
  simp [applyStretch]

@[simp] theorem countForced_kept (n : Nat) (s : State) : kept (countForced n s) = kept s := by
  simp [countForced]

@[simp] theorem forceNow_kept (ns : List Nat) (s : State) : kept (forceNow ns s) = kept s := by
  unfold forceNow
  repeat' first | intro _ | simp | split | refine (kept_foldl _ (fun _ _ => ?_) _ _).trans ?_

@[simp] theorem thermalRecord_kept (source : Nat) (quad : Nat) (s : State) : kept (thermalRecord source quad s) = kept s := by
  simp [thermalRecord]

@[simp] theorem latchTemps_kept (y : Sensors) (s : State) : kept (latchTemps y s) = kept s := by
  unfold latchTemps
  repeat' first | intro _ | simp | split | refine (kept_foldl _ (fun _ _ => ?_) _ _).trans ?_

@[simp] theorem refuseWrites_kept (n : Nat) (x0 : List (Nat × Nat × Cmd)) (s : State) : kept (refuseWrites n x0 s) = kept s := by
  fun_induction refuseWrites n x0 s <;> simp_all

@[simp] theorem nextFrame_kept (n : Nat) (cyc : Nat) (s0 : State) : kept (nextFrame n cyc s0) = kept s0 := by
  unfold nextFrame
  repeat' first | intro _ | simp | split

@[simp] theorem beginBus_kept (n : Nat) (s : State) : kept (beginBus n s) = kept s := by
  simp [beginBus]

@[simp] theorem startFrames_kept (n : Nat) (start : Nat) (s : State) : kept (startFrames n start s) = kept s := by
  simp [startFrames]

@[simp] theorem writeDone_kept (n : Nat) (mv : Nat) (ok : Bool) (done : Nat) (retried : Bool) (s : State) : kept (writeDone n mv ok done retried s) = kept s := by
  simp [writeDone]

@[simp] theorem readbackDone_kept (n : Nat) (ok : Bool) (value : Nat) (done : Nat) (s : State) : kept (readbackDone n ok value done s) = kept s := by
  simp [readbackDone]

@[simp] theorem holdVoltage_kept (n : Nat) (mv : Nat) (done : Nat) (s : State) : kept (holdVoltage n mv done s) = kept s := by
  simp [holdVoltage]

@[simp] theorem partnerDone_kept (n : Nat) (op : Nat) (mv : Nat) (x : Cmd) (ok : Bool) (value : Nat) (done : Nat) (s : State) : kept (partnerDone n op mv x ok value done s) = kept s := by
  simp [partnerDone]

@[simp] theorem avsFrameDoneEffect_kept (n : Nat) (ok : Bool) (value : Nat) (done : Nat) (s : State) : kept (avsFrameDoneEffect n ok value done s) = kept s := by
  unfold avsFrameDoneEffect
  repeat' first | intro _ | simp | split

@[simp] theorem lateWriteDropEffect_kept (n : Nat) (s : State) : kept (lateWriteDropEffect n s) = kept s := by
  simp [lateWriteDropEffect]

@[simp] theorem requestMode_kept (n : Nat) (li : LawIn) (r : LoopMode × Cmd) (s : State) : kept (requestMode n li r s) = kept s := by
  simp [requestMode]

@[simp] theorem requestModes_kept (n : Nat) (li : LawIn) (s : State) : kept (requestModes n li s) = kept s := by
  unfold requestModes
  repeat' first | intro _ | simp | split | refine (kept_foldl _ (fun _ _ => ?_) _ _).trans ?_

@[simp] theorem observeChan_kept (n : Nat) (q : Nat) (s : State) : kept (observeChan n q s) = kept s := by
  simp [observeChan]

@[simp] theorem lawChan_kept (n : Nat) (q : Nat) (li : LawIn) (s : State) : kept (lawChan n q li s) = kept s := by
  simp [lawChan]

@[simp] theorem supervise_kept (n : Nat) (qs : List Nat) (s : State) : kept (supervise n qs s) = kept s := by
  unfold supervise
  repeat' first | intro _ | simp | split

@[simp] theorem beginSample_kept (n : Nat) (s : State) : kept (beginSample n s) = kept s := by
  simp [beginSample]

@[simp] theorem countSensors_kept (n : Nat) (ys : List (List (Option Int))) (s : State) : kept (countSensors n ys s) = kept s := by
  simp [countSensors]

@[simp] theorem stepPhase_kept (n : Nat) (s : State) : kept (stepPhase n s) = kept s := by
  unfold stepPhase
  repeat' first | intro _ | simp | split

@[simp] theorem stepLearn_kept (n : Nat) (s : State) : kept (stepLearn n s) = kept s := by
  unfold stepLearn
  repeat' first | intro _ | simp | split

@[simp] theorem sampleInner_kept (y : Sensors) (n : Nat) (s : State) : kept (sampleInner y n s) = kept s := by
  simp [sampleInner]

@[simp] theorem addMean_kept (n : Nat) (q : Nat) (v : Option Int) (s : State) : kept (addMean n q v s) = kept s := by
  unfold addMean
  repeat' first | intro _ | simp | split

@[simp] theorem addMeans_kept (y : Sensors) (s : State) : kept (addMeans y s) = kept s := by
  simp [addMeans]

@[simp] theorem sampleOuter_kept (n : Nat) (s : State) : kept (sampleOuter n s) = kept s := by
  unfold sampleOuter
  repeat' first | intro _ | simp | split | refine (kept_foldl _ (fun _ _ => ?_) _ _).trans ?_

@[simp] theorem countOuter_kept (n : Nat) (s : State) : kept (countOuter n s) = kept s := by
  simp [countOuter]

@[simp] theorem sampleFan_kept (s : State) : kept (sampleFan s) = kept s := by
  simp [sampleFan]

@[simp] theorem loseLoop_kept (n : Nat) (ok : Bool) (s : State) : kept (loseLoop n ok s) = kept s := by
  simp [loseLoop]

@[simp] theorem kestrelError_kept (e : KestrelError) (s : State) : kept (kestrelError e s) = kept s := by
  unfold kestrelError
  repeat' first | intro _ | simp | split

@[simp] theorem innerSampleEffect_kept (y : Sensors) (s : State) : kept (innerSampleEffect y s) = kept s := by
  unfold innerSampleEffect
  repeat' first | intro _ | simp | split | refine (kept_foldl _ (fun _ _ => ?_) _ _).trans ?_

@[simp] theorem periodMarkEffect_kept (slot : Nat) (s : State) : kept (periodMarkEffect slot s) = kept s := by
  simp [periodMarkEffect]

@[simp] theorem droopTripEffect_kept (n : Nat) (s : State) : kept (droopTripEffect n s) = kept s := by
  simp [droopTripEffect]

@[simp] theorem throttleReleaseEffect_kept (s : State) : kept (throttleReleaseEffect s) = kept s := by
  simp [throttleReleaseEffect]

/-! ### Machine/BoardEv.lean -/

@[simp] theorem onBoard_kept (f : Board → Board) (s : State) : kept (onBoard f s) = kept s := by
  simp [onBoard]

@[simp] theorem raiseBoard_kept (s : State) : kept (raiseBoard s) = kept s := by
  simp [raiseBoard]

@[simp] theorem thermalEvent_kept (source : Nat) (s : State) : kept (thermalEvent source s) = kept s := by
  simp [thermalEvent]

@[simp] theorem assertAlert_kept (pwr : Bool) (s : State) : kept (assertAlert pwr s) = kept s := by
  simp [assertAlert]

@[simp] theorem deassertAlert_kept (pwr : Bool) (s : State) : kept (deassertAlert pwr s) = kept s := by
  simp [deassertAlert]

@[simp] theorem rejectPulses_kept (n : Nat) (s : State) : kept (rejectPulses n s) = kept s := by
  simp [rejectPulses]

@[simp] theorem alertAcceptedEffect_kept (pwr : Bool) (asserted : Bool) (pulses : Nat) (s : State) : kept (alertAcceptedEffect pwr asserted pulses s) = kept s := by
  simp [alertAcceptedEffect]

@[simp] theorem alertStuckEffect_kept (pwr : Bool) (s : State) : kept (alertStuckEffect pwr s) = kept s := by
  simp [alertStuckEffect]

@[simp] theorem onTach_kept (n : Nat) (f : Tach → Tach) (s : State) : kept (onTach n f s) = kept s := by
  simp [onTach]

@[simp] theorem overrangeEvents_kept (n : Nat) (was : Bool) (now : Bool) (s : State) : kept (overrangeEvents n was now s) = kept s := by
  simp [overrangeEvents]

@[simp] theorem tachEdgeEffect_kept (n : Nat) (pulses : Nat) (s : State) : kept (tachEdgeEffect n pulses s) = kept s := by
  simp [tachEdgeEffect]

@[simp] theorem tachStandstillEffect_kept (n : Nat) (s : State) : kept (tachStandstillEffect n s) = kept s := by
  simp [tachStandstillEffect]

@[simp] theorem tachStuckEffect_kept (n : Nat) (s : State) : kept (tachStuckEffect n s) = kept s := by
  simp [tachStuckEffect]

@[simp] theorem fanPwmPeriodEffect_kept (s : State) : kept (fanPwmPeriodEffect s) = kept s := by
  simp [fanPwmPeriodEffect]

/-! ### Machine/Desc.lean -/

@[simp] theorem addJob_kept (j : Job) (s : State) : kept (addJob j s) = kept s := by
  simp [addJob]

/-! ### Machine/TileCore.lean -/

@[simp] theorem storeWrite_kept (a : Nat) (data : List Byte) (bad : List Nat) (s : State) : kept (storeWrite a data bad s) = kept s := by
  simp [storeWrite]

@[simp] theorem plantWord_kept (t : Nat) (w : BadWord) (s : State) : kept (plantWord t w s) = kept s := by
  simp [plantWord]

@[simp] theorem arrayEcc_kept (t : Nat) (part : Nat) (ws : List (Nat × BadWord)) (found : EccFinding) (s : State) : kept (arrayEcc t part ws found s) = kept s := by
  unfold arrayEcc
  repeat' first | intro _ | simp | split | refine (kept_foldl _ (fun _ _ => ?_) _ _).trans ?_

/-! ### Machine/Work.lean -/

@[simp] theorem dropPending_kept (n : Nat) (s : State) : kept (dropPending n s) = kept s := by
  simp [dropPending]

@[simp] theorem freeEngine_kept (drop : Bool) (j : Job) (s : State) : kept (freeEngine drop j s) = kept s := by
  unfold freeEngine
  repeat' first | intro _ | simp | split

@[simp] theorem deliverResult_kept (j : Job) (st : Nat) (s : State) : kept (deliverResult j st s) = kept s := by
  unfold deliverResult
  repeat' first | intro _ | simp | split

@[simp] theorem spoilDst_kept (j : Job) (s : State) : kept (spoilDst j s) = kept s := by
  have key : ∀ (g : State → Nat → Piece → List Byte) (ps : List Piece) (u : State × Nat),
      kept (ps.foldl (fun (u : State × Nat) p => (writePiece (some j.part) p (g u.1 u.2 p) [] u.1, u.2 + p.len)) u).1 = kept u.1 := by
    intro g ps
    induction ps with
    | nil => intro u; rfl
    | cons p r ih => intro u; rw [List.foldl_cons, ih]; simp
  simp only [spoilDst]
  split
  · rw [key (fun _ n p => (List.range p.len).map (fun i => Config.freeByte s.freeCtr (n + i)))]; simp
  · rfl

@[simp] theorem closeJob_kept (drop : Bool) (j : Job) (st : Nat) (s : State) : kept (closeJob drop j st s) = kept s := by
  simp [closeJob]

@[simp] theorem partialMcast_kept (part : Nat) (mask : BitVec 64) (reason : Nat → Nat) (s : State) : kept (partialMcast part mask reason s) = kept s := by
  simp [partialMcast]

@[simp] theorem abandonSend_kept (t : Nat) (s : State) : kept (abandonSend t s) = kept s := by
  unfold abandonSend
  repeat' first | intro _ | simp | split

@[simp] theorem answerReserve_kept (t : Nat) (k : NocPkt) (s : State) : kept (answerReserve t k s) = kept s := by
  simp [answerReserve]

@[simp] theorem nextLanding_kept (x0 : Nat) (x1 : Nat) (s : State) : kept (nextLanding x0 x1 s) = kept s := by
  fun_induction nextLanding x0 x1 s <;> simp_all

@[simp] theorem freeLanding_kept (t : Nat) (s : State) : kept (freeLanding t s) = kept s := by
  simp [freeLanding]

@[simp] theorem abortLanding_kept (t : Nat) (s : State) : kept (abortLanding t s) = kept s := by
  unfold abortLanding
  repeat' first | intro _ | simp | split

@[simp] theorem releaseAll_kept (drop : Ctx → Bool) (t : Nat) (s : State) : kept (releaseAll drop t s) = kept s := by
  unfold releaseAll
  repeat' first | intro _ | simp | split | refine (kept_foldl _ (fun _ _ => ?_) _ _).trans ?_

@[simp] theorem stopTile_kept (reset : Bool) (drop : Ctx → Bool) (t : Nat) (s : State) : kept (stopTile reset drop t s) = kept s := by
  simp [stopTile]

@[simp] theorem endRun_kept (k : Nat) (e : RunEnd) (s : State) : kept (endRun k e s) = kept s := by
  unfold endRun
  repeat' first | intro _ | simp | split | refine (kept_foldl _ (fun _ _ => ?_) _ _).trans ?_

@[simp] theorem endTileBy_kept (t : Nat) (e : RunEnd) (s : State) : kept (endTileBy t e s) = kept s := by
  unfold endTileBy
  repeat' first | intro _ | simp | split

@[simp] theorem endTile_kept (t : Nat) (st : Nat) (slotk : Nat) (bundle : Nat) (err : Nat) (s : State) : kept (endTile t st slotk bundle err s) = kept s := by
  simp [endTile]

@[simp] theorem endTileAt_kept (t : Nat) (unit : Nat) (st : Nat) (slotk : Nat) (bundle : Nat) (err : Nat) (s : State) : kept (endTileAt t unit st slotk bundle err s) = kept s := by
  simp [endTileAt]

@[simp] theorem faultTile_kept (t : Nat) (st : Nat) (slotk : Nat) (bundle : Nat) (s : State) : kept (faultTile t st slotk bundle s) = kept s := by
  simp [faultTile]

@[simp] theorem arrayDies_kept (t : Nat) (unit : Nat) (slotk : Nat) (bundle : Nat) (s : State) : kept (arrayDies t unit slotk bundle s) = kept s := by
  simp [arrayDies]

@[simp] theorem endRuns_kept (st : Nat) (part : Nat) (s : State) : kept (endRuns st part s) = kept s := by
  unfold endRuns
  repeat' first | intro _ | simp | split | refine (kept_foldl _ (fun _ _ => ?_) _ _).trans ?_

@[simp] theorem endJobs_kept (st : Nat) (part : Nat) (s : State) : kept (endJobs st part s) = kept s := by
  unfold endJobs
  repeat' first | intro _ | simp | split | refine (kept_foldl _ (fun _ _ => ?_) _ _).trans ?_

@[simp] theorem addTokens_kept (t : Nat) (c : Nat) (n : Nat) (s : State) : kept (addTokens t c n s) = kept s := by
  simp [addTokens]

@[simp] theorem setSlot_kept (slot : Nat) (v : StaticSlot) (s : State) : kept (setSlot slot v s) = kept s := by
  simp [setSlot]

/-! ### Machine/PelocCore.lean -/

@[simp] theorem onPel_kept (p : Nat) (f : Peloc → Peloc) (s : State) : kept (onPel p f s) = kept s := by
  simp [onPel]

@[simp] theorem linkChange_kept (p : Nat) (s : State) : kept (linkChange p s) = kept s := by
  simp [linkChange]

@[simp] theorem wireFlit_kept (p : Nat) (f : Flit) (s : State) : kept (wireFlit p f s) = kept s := by
  simp [wireFlit]

@[simp] theorem sendFlit_kept (p : Nat) (f : Flit) (s : State) : kept (sendFlit p f s) = kept s := by
  simp [sendFlit]

@[simp] theorem sendIdles_kept (x0 : Nat) (x1 : Nat) (s : State) : kept (sendIdles x0 x1 s) = kept s := by
  fun_induction sendIdles x0 x1 s <;> simp_all

@[simp] theorem catchUp_kept (p : Nat) (s : State) : kept (catchUp p s) = kept s := by
  simp [catchUp]

@[simp] theorem sendCtrlFlit_kept (p : Nat) (body : List Byte) (s : State) : kept (sendCtrlFlit p body s) = kept s := by
  simp [sendCtrlFlit]

@[simp] theorem sendTxFlits_kept (p : Nat) (t : PelTx) (s : State) : kept (sendTxFlits p t s) = kept s := by
  unfold sendTxFlits
  repeat' first | intro _ | simp | split | refine (kept_foldl _ (fun _ _ => ?_) _ _).trans ?_

@[simp] theorem pumpPel_kept (x0 : Nat) (x1 : Nat) (s : State) : kept (pumpPel x0 x1 s) = kept s := by
  fun_induction pumpPel x0 x1 s <;> simp_all

@[simp] theorem pump_kept (p : Nat) (s : State) : kept (pump p s) = kept s := by
  simp [pump]

@[simp] theorem wakePort_kept (p : Nat) (s : State) : kept (wakePort p s) = kept s := by
  simp [wakePort]

@[simp] theorem sendTx_kept (p : Nat) (t : PelTx) (s : State) : kept (sendTx p t s) = kept s := by
  simp [sendTx]

@[simp] theorem sendCtrl_kept (p : Nat) (body : List Byte) (s : State) : kept (sendCtrl p body s) = kept s := by
  simp [sendCtrl]

@[simp] theorem failChip_kept (k : NocPkt) (st : Nat) (hint : Nat) (s : State) : kept (failChip k st hint s) = kept s := by
  simp [failChip]

@[simp] theorem startOut_kept (p l : Nat) (k : NocPkt) (s : State) : kept (startOut p l k s) = kept s := by
  unfold startOut
  generalize (tget s.pel p).freeTag = o
  cases o with
  | none => exact onPel_kept _ _ _
  | some t => exact (sendTx_kept _ _ _).trans (onPel_kept _ _ _)

@[simp] theorem chipToPort_kept (p : Nat) (k : NocPkt) (s : State) : kept (chipToPort p k s) = kept s := by
  unfold chipToPort
  repeat' first | intro _ | simp | split

@[simp] theorem pumpHeld_kept (p : Nat) (s : State) : kept (pumpHeld p s) = kept s := by
  unfold pumpHeld
  repeat' first | intro _ | simp | split

@[simp] theorem dropOut_kept (p : Nat) (t : Nat) (s : State) : kept (dropOut p t s) = kept s := by
  simp [dropOut]

@[simp] theorem onPush_kept (p : Nat) (id : Nat) (f : PushOp → PushOp) (s : State) : kept (onPush p id f s) = kept s := by
  simp [onPush]

@[simp] theorem failOut_kept (p : Nat) (t : Nat) (st : Nat) (hint : Nat) (s : State) : kept (failOut p t st hint s) = kept s := by
  unfold failOut
  repeat' first | intro _ | simp | split

@[simp] theorem countFlit_kept (p : Nat) (bad : Bool) (d : FecResult) (s : State) : kept (countFlit p bad d s) = kept s := by
  simp [countFlit]

@[simp] theorem takeAck_kept (p : Nat) (f : Flit) (s : State) : kept (takeAck p f s) = kept s := by
  simp [takeAck]

@[simp] theorem sendNak_kept (p : Nat) (s : State) : kept (sendNak p s) = kept s := by
  simp [sendNak]

@[simp] theorem freeFlits_kept (p : Nat) (vc : Nat) (n : Nat) (s : State) : kept (freeFlits p vc n s) = kept s := by
  simp [freeFlits]

@[simp] theorem pullTx_kept (p : Nat) (t : PelTx) (s : State) : kept (pullTx p t s) = kept s := by
  simp [pullTx]

@[simp] theorem takeTx_kept (p : Nat) (t : PelTx) (s : State) : kept (takeTx p t s) = kept s := by
  simp [takeTx]

@[simp] theorem refuseTx_kept (p : Nat) (t : PelTx) (st : Nat) (hint : Nat) (s : State) : kept (refuseTx p t st hint s) = kept s := by
  simp [refuseTx]

@[simp] theorem replayAll_kept (p : Nat) (s : State) : kept (replayAll p s) = kept s := by
  unfold replayAll
  repeat' first | intro _ | simp | split | refine (kept_foldl _ (fun _ _ => ?_) _ _).trans ?_

@[simp] theorem freeLmc_kept (p : Nat) (s : State) : kept (freeLmc p s) = kept s := by
  unfold freeLmc
  repeat' first | intro _ | simp | split

@[simp] theorem linkRec_kept (p : Nat) (detail : Nat) (width : Nat) (part : Option Nat) (s : State) : kept (linkRec p detail width part s) = kept s := by
  simp [linkRec]

@[simp] theorem failAllOut_kept (p : Nat) (st : Nat) (s : State) : kept (failAllOut p st s) = kept s := by
  unfold failAllOut
  repeat' first | intro _ | simp | split | refine (kept_foldl _ (fun _ _ => ?_) _ _).trans ?_

@[simp] theorem failPushes_kept (p : Nat) (st : Nat) (s : State) : kept (failPushes p st s) = kept s := by
  simp [failPushes]

@[simp] theorem dropInbound_kept (p : Nat) (s : State) : kept (dropInbound p s) = kept s := by
  simp [dropInbound]

@[simp] theorem loseNodes_kept (p : Nat) (s : State) : kept (loseNodes p s) = kept s := by
  simp [loseNodes]

@[simp] theorem portDown_kept (p : Nat) (reason : Nat) (notice : Bool) (s : State) : kept (portDown p reason notice s) = kept s := by
  unfold portDown
  repeat' first | intro _ | simp | split | refine (kept_foldl _ (fun _ _ => ?_) _ _).trans ?_

@[simp] theorem trainFail_kept (p : Nat) (st : Nat) (reason : Nat) (notice : Bool) (s : State) : kept (trainFail p st reason notice s) = kept s := by
  unfold trainFail
  repeat' first | intro _ | simp | split

/-! ### Machine/BringEv.lean -/

@[simp] theorem failStageNow_kept (stage : Nat) (cause : Nat) (s : State) : kept (failStageNow stage cause s) = kept s := by
  simp [failStageNow]

@[simp] theorem rootPllLockEffect_kept (s : State) : kept (rootPllLockEffect s) = kept s := by
  simp [rootPllLockEffect]

@[simp] theorem serdesPllLockLossEffect_kept (p : Nat) (s : State) : kept (serdesPllLockLossEffect p s) = kept s := by
  unfold serdesPllLockLossEffect
  repeat' first | intro _ | simp | split

@[simp] theorem startLoop_kept (avs : List Bool) (n : Nat) (s : State) : kept (startLoop avs n s) = kept s := by
  simp [startLoop]

@[simp] theorem endS1_kept (avs : List Bool) (s : State) : kept (endS1 avs s) = kept s := by
  simp [endS1]

@[simp] theorem endS2_kept (s : State) : kept (endS2 s) = kept s := by
  simp [endS2]

@[simp] theorem endS3_kept (s : State) : kept (endS3 s) = kept s := by
  simp [endS3]

@[simp] theorem stampEnd_kept (s : State) : kept (stampEnd s) = kept s := by
  simp [stampEnd]

@[simp] theorem stageEndEffect_kept (avs : List Bool) (s : State) : kept (stageEndEffect avs s) = kept s := by
  simp [stageEndEffect]

@[simp] theorem s4ReachedEffect_kept (s : State) : kept (s4ReachedEffect s) = kept s := by
  simp [s4ReachedEffect]

@[simp] theorem bringupRecord_kept (stage : Nat) (cause : Nat) (unit : Nat) (s : State) : kept (bringupRecord stage cause unit s) = kept s := by
  simp [bringupRecord]

@[simp] theorem stageDeadlineEffect_kept (cause : Nat) (unit : Nat) (fails : Nat) (s : State) : kept (stageDeadlineEffect cause unit fails s) = kept s := by
  simp [stageDeadlineEffect]

/-! ### Machine/CmdBringup.lean -/

@[simp] theorem nopEffect_kept (c : Nat) (p : Packet) (s : State) : kept (nopEffect c p s) = kept s := by
  simp [nopEffect]

@[simp] theorem identifyEffect_kept (c : Nat) (p : Packet) (s : State) : kept (identifyEffect c p s) = kept s := by
  simp [identifyEffect]

@[simp] theorem getStatusEffect_kept (c : Nat) (p : Packet) (s : State) : kept (getStatusEffect c p s) = kept s := by
  simp [getStatusEffect]

@[simp] theorem getBringupEffect_kept (c : Nat) (p : Packet) (s : State) : kept (getBringupEffect c p s) = kept s := by
  simp [getBringupEffect]

@[simp] theorem clearAttnApply_kept (x : Cmd) (s : State) : kept (clearAttnApply x s).2 = kept s := by
  simp [clearAttnApply]

@[simp] theorem clearAttnEffect_kept (c : Nat) (p : Packet) (s : State) : kept (clearAttnEffect c p s) = kept s := by
  simp [clearAttnEffect]

@[simp] theorem setThresholdApply_kept (x : Cmd) (s : State) : kept (setThresholdApply x s) = kept s := by
  simp [setThresholdApply]

@[simp] theorem setThresholdEffect_kept (c : Nat) (p : Packet) (s : State) : kept (setThresholdEffect c p s) = kept s := by
  simp [setThresholdEffect]

@[simp] theorem readCountersAct_kept (x : Cmd) (s : State) : kept (readCountersAct x s) = kept s := by
  simp [readCountersAct]

@[simp] theorem readCountersEffect_kept (c : Nat) (p : Packet) (s : State) : kept (readCountersEffect c p s) = kept s := by
  simp [readCountersEffect]

@[simp] theorem clearCountersApply_kept (x : Cmd) (s : State) : kept (clearCountersApply x s) = kept s := by
  simp [clearCountersApply]

@[simp] theorem clearCountersEffect_kept (c : Nat) (p : Packet) (s : State) : kept (clearCountersEffect c p s) = kept s := by
  simp [clearCountersEffect]

/-! ### Machine/CmdCodec.lean -/

@[simp] theorem tableLoadApply_kept (x : Cmd) (s : State) : kept (tableLoadApply x s).2 = kept s := by
  simp [tableLoadApply]

@[simp] theorem tableLoadEffect_kept (c : Nat) (p : Packet) (s : State) : kept (tableLoadEffect c p s) = kept s := by
  simp [tableLoadEffect]

@[simp] theorem freeStatic_kept (k : Nat) (s : State) : kept (freeStatic k s) = kept s := by
  simp [freeStatic]

@[simp] theorem tableReleaseEffect_kept (c : Nat) (p : Packet) (s : State) : kept (tableReleaseEffect c p s) = kept s := by
  simp [tableReleaseEffect]

@[simp] theorem streamConfigApply_kept (x : Cmd) (s : State) : kept (streamConfigApply x s) = kept s := by
  simp [streamConfigApply]

@[simp] theorem streamConfigEffect_kept (c : Nat) (p : Packet) (s : State) : kept (streamConfigEffect c p s) = kept s := by
  simp [streamConfigEffect]

@[simp] theorem zeroCtx_kept (n : Nat) (s : State) : kept (zeroCtx n s) = kept s := by
  simp [zeroCtx]

@[simp] theorem streamResetEffect_kept (c : Nat) (p : Packet) (s : State) : kept (streamResetEffect c p s) = kept s := by
  simp [streamResetEffect]

@[simp] theorem ctxPoisoned_kept (x : Cmd) (n : Nat) (s : State) : kept (ctxPoisoned x n s) = kept s := by
  simp [ctxPoisoned]

@[simp] theorem streamReadAct_kept (x : Cmd) (s : State) : kept (streamReadAct x s) = kept s := by
  simp [streamReadAct]

@[simp] theorem streamReadEffect_kept (c : Nat) (p : Packet) (s : State) : kept (streamReadEffect c p s) = kept s := by
  simp [streamReadEffect]

@[simp] theorem queueFlush_kept (n : Nat) (ticket : Nat) (s : State) : kept (queueFlush n ticket s) = kept s := by
  simp [queueFlush]

@[simp] theorem streamFlushAct_kept (x : Cmd) (s : State) : kept (streamFlushAct x s) = kept s := by
  simp [streamFlushAct]

@[simp] theorem streamFlushEffect_kept (c : Nat) (p : Packet) (s : State) : kept (streamFlushEffect c p s) = kept s := by
  simp [streamFlushEffect]

@[simp] theorem codecSubmitStart_kept (x : Cmd) (ticket : Nat) (s : State) : kept (codecSubmitStart x ticket s) = kept s := by
  simp [codecSubmitStart]

@[simp] theorem codecSubmitEffect_kept (c : Nat) (p : Packet) (s : State) : kept (codecSubmitEffect c p s) = kept s := by
  simp [codecSubmitEffect]

/-! ### Machine/CmdLocks.lean -/

@[simp] theorem closeSeq_kept (c : Nat) (s : State) : kept (closeSeq c s) = kept s := by
  simp [closeSeq]

@[simp] theorem lockAcquireApply_kept (x : Cmd) (s : State) : kept (lockAcquireApply x s).2 = kept s := by
  unfold lockAcquireApply
  repeat' first | intro _ | simp | split

@[simp] theorem lockAcquireEffect_kept (c : Nat) (p : Packet) (s : State) : kept (lockAcquireEffect c p s) = kept s := by
  simp [lockAcquireEffect]

@[simp] theorem lockReleaseApply_kept (x : Cmd) (s : State) : kept (lockReleaseApply x s) = kept s := by
  simp [lockReleaseApply]

@[simp] theorem lockReleaseEffect_kept (c : Nat) (p : Packet) (s : State) : kept (lockReleaseEffect c p s) = kept s := by
  simp [lockReleaseEffect]

@[simp] theorem seqBeginApply_kept (x : Cmd) (s : State) : kept (seqBeginApply x s) = kept s := by
  simp [seqBeginApply]

@[simp] theorem seqBeginEffect_kept (c : Nat) (p : Packet) (s : State) : kept (seqBeginEffect c p s) = kept s := by
  simp [seqBeginEffect]

@[simp] theorem seqAbortEffect_kept (c : Nat) (p : Packet) (s : State) : kept (seqAbortEffect c p s) = kept s := by
  simp [seqAbortEffect]

@[simp] theorem lockReadEffect_kept (c : Nat) (p : Packet) (s : State) : kept (lockReadEffect c p s) = kept s := by
  simp [lockReadEffect]

/-! ### Machine/CodecEv.lean -/

@[simp] theorem putJob_kept (j : Job) (s : State) : kept (putJob j s) = kept s := by
  simp [putJob]

theorem readMarked_kept (via : Via) (part : Nat) (a : Nat) (n : Nat) (s : State) (r : List PByte × State) (h : readMarked via part a n s = .ok r) : kept r.2 = kept s := by
  simp only [readMarked] at h
  (repeat' split at h) <;> grind [→ readSpans_kept]

theorem readBlock_kept (j : Job) (di : DecIn) (a : Nat) (room : Nat) (s : State) (r : List PByte × State) (h : readBlock j di a room s = .ok r) : kept r.2 = kept s := by
  simp only [readBlock] at h
  (repeat' split at h) <;> grind [→ readMarked_kept]

theorem nextEntry_kept (x0 : Nat) (x1 : Job) (s : State) (r : Source × State) (h : nextEntry x0 x1 s = .ok r) : kept r.2 = kept s := by
  fun_induction nextEntry x0 x1 s generalizing r <;> grind [→ readMarked_kept]

theorem nextSource_kept (j : Job) (s : State) (r : Source × State) (h : nextSource j s = .ok r) : kept r.2 = kept s := by
  simp only [nextSource] at h
  (repeat' split at h) <;> grind [→ nextEntry_kept]

theorem listEntry_kept (j : Job) (e : List Dword) (s : State) (r : Job × State) (h : listEntry j e s = .ok r) : kept r.2 = kept s := by
  simp only [listEntry] at h
  (repeat' split at h) <;> first | (cases h; done) | (cases h; simp; done)

theorem placeOut_kept (j : Job) (n : Nat) (s : State) (r : Job × State) (h : placeOut j n s = .ok r) : kept r.2 = kept s := by
  simp only [placeOut] at h
  split at h
  · split at h <;> cases h; rfl
  · split at h
    · cases h
    · split at h
      · cases h
      · split at h
        · cases h
        · rename_i h1
          have k := listEntry_kept _ _ _ _ h
          simp only [bump_kept] at k
          exact k.trans (allocBuf_kept _ _ _ _ h1)

theorem writeOut_kept (j : Job) (data : List Byte) (s : State) (r : Job × State) (h : writeOut j data s = .ok r) : kept r.2 = kept s := by
  simp only [writeOut] at h
  (repeat' split at h) <;> first | (cases h; done) | (cases h; simp; done)

theorem jobPending_kept (j : Job) (s : State) (r : List PByte × State) (h : jobPending j s = .ok r) : kept r.2 = kept s := by
  simp only [jobPending] at h
  (repeat' split at h) <;> grind [→ readPending_kept]

@[simp] theorem clearPending_kept (j : Job) (s : State) : kept (clearPending j s).2 = kept s := by
  simp [clearPending]

theorem clearPending_keeps (j : Job) (s : State) (oo : _) (uu : State) (hh : clearPending j s = (oo, uu)) : kept uu = kept s := (congrArg (fun r => kept r.2) hh).symm.trans (clearPending_kept j s)

theorem jobHist_kept (j : Job) (s : State) (r : List Byte × State) (h : jobHist j s = .ok r) : kept r.2 = kept s := by
  simp only [jobHist] at h
  (repeat' split at h) <;> grind [→ readHist_kept]

theorem jobCommit_kept (j : Job) (b : Encoded) (pois : Bool) (hist : List Byte) (s : State) (r : Job × State) (h : jobCommit j b pois hist s = .ok r) : kept r.2 = kept s := by
  simp only [jobCommit] at h
  (repeat' split at h) <;> grind [→ commitEncode_kept]

theorem emitBlock_kept (j : Job) (b : Encoded) (pois : Bool) (hist : List Byte) (s : State) (r : Job × State) (h : emitBlock j b pois hist s = .ok r) : kept r.2 = kept s := by
  simp only [emitBlock] at h
  (repeat' split at h) <;> first | (cases h; done) | (cases h; simp; done) | (cases h; simp; grind [→ jobCommit_kept, → listEntry_kept, → placeOut_kept, → writeOut_kept])

@[simp] theorem jobForm_kept (j : Job) (r : FormReq) (s : State) : kept (jobForm j r s).2 = kept s := by
  simp only [jobForm]
  (repeat' split) <;> (try simp) <;> (try grind [→ emitBlock_kept, → jobHist_kept])

theorem jobForm_keeps (j : Job) (r : FormReq) (s : State) (oo : _) (uu : State) (hh : jobForm j r s = (oo, uu)) : kept uu = kept s := (congrArg (fun r => kept r.2) hh).symm.trans (jobForm_kept j r s)

theorem jobKeep_kept (j : Job) (units : Bool) (ps : List PByte) (s : State) (r : State) (h : jobKeep j units ps s = .ok r) : kept r = kept s := by
  simp only [jobKeep] at h
  (repeat' split at h) <;> grind [→ setPending_kept, → setPendingUnits_kept]

@[simp] theorem jobTail_kept (j : Job) (units : Bool) (tail : List PByte) (s : State) : kept (jobTail j units tail s).2 = kept s := by
  simp only [jobTail]
  (repeat' split) <;> (try simp) <;> (try grind [→ jobKeep_kept, → clearPending_keeps, → jobForm_keeps])

theorem jobTail_keeps (j : Job) (units : Bool) (tail : List PByte) (s : State) (oo : _) (uu : State) (hh : jobTail j units tail s = (oo, uu)) : kept uu = kept s := (congrArg (fun r => kept r.2) hh).symm.trans (jobTail_kept j units tail s)

@[simp] theorem compressBlock_kept (j : Job) (s : State) : kept (compressBlock j s).2 = kept s := by
  simp only [compressBlock]
  (repeat' split) <;> (try simp) <;> (try grind [→ jobPending_kept, → readMarked_kept, → clearPending_keeps, → jobForm_keeps, → jobTail_keeps])

theorem jobDecIn_kept (j : Job) (s : State) (r : DecIn × State) (h : jobDecIn j s = .ok r) : kept r.2 = kept s := by
  simp only [jobDecIn] at h
  (repeat' split at h) <;> grind [→ readHist_kept]

@[simp] theorem codecCheckRec_kept (j : Job) (a : Nat) (st : Nat) (ver : Nat) (count : Nat) (s : State) : kept (codecCheckRec j a st ver count s) = kept s := by
  simp [codecCheckRec]

theorem listFail_kept (j : Job) (e : List Dword) (s : State) (r : Job × State) (h : listFail j e s = .ok r) : kept r.2 = kept s := by
  simp only [listFail] at h
  (repeat' split at h) <;> grind [→ listEntry_kept]

@[simp] theorem jobFail_kept (j : Job) (a bad : Nat) (e : DecErr) (sound : Bool) (s : State) : kept (jobFail j a bad e sound s).2 = kept s := by
  simp only [jobFail]
  split
  · repeat' first | simp | split
  · rename_i h1
    have k := listFail_kept _ _ _ _ h1
    split
    · refine k.trans ?_
      repeat' first | simp | split
    · refine k.trans ?_
      repeat' first | simp | split

@[simp] theorem countConv_kept (unit : Nat) (c : ConvRow) (s : State) : kept (countConv unit c s) = kept s := by
  simp [countConv]

@[simp] theorem transFeed_kept (j : Job) (vs : List NVal) (all : Bool) (s : State) : kept (transFeed j vs all s).2 = kept s := by
  simp [transFeed]

@[simp] theorem transForm_kept (j : Job) (s : State) : kept (transForm j s).2 = kept s := by
  simp only [transForm]
  (repeat' split) <;> (try simp) <;> (try grind [→ jobPending_kept, → clearPending_keeps, → jobForm_keeps])

@[simp] theorem transTail_kept (j : Job) (s : State) : kept (transTail j s).2 = kept s := by
  simp only [transTail]
  (repeat' split) <;> (try simp) <;> (try grind [→ jobPending_kept, → jobTail_keeps])

@[simp] theorem transEnd_kept (j : Job) (s : State) : kept (transEnd j s).2 = kept s := by
  simp [transEnd]

theorem transEnd_keeps (j : Job) (s : State) (oo : _) (uu : State) (hh : transEnd j s = (oo, uu)) : kept uu = kept s := (congrArg (fun r => kept r.2) hh).symm.trans (transEnd_kept j s)

@[simp] theorem jobGood_kept (j : Job) (a : Nat) (d : Decoded) (s : State) : kept (jobGood j a d s).2 = kept s := by
  have k0 : kept (if j.reread then codecCheckRec j a stOk verTransient 1 s else s) = kept s := by split <;> simp
  unfold jobGood
  dsimp only
  split
  · simp [k0]
  · split
    · simp [k0]
    · rename_i s1 h1
      have k1 : kept s1 = kept s := by
        split at h1
        · exact (commitDecode_kept _ _ _ _ _ h1).trans k0
        · cases h1; exact k0
      split
      · simp [k1]
      · rename_i j1 s2 h2
        have k2 : kept s2 = kept s := by
          repeat' split at h2
          all_goals first | exact (placeOut_kept _ _ _ _ h2).trans k1 | (cases h2; exact k1) | exact absurd rfl ‹_›
        split
        · simp [k2]
        · rename_i j2 s3 h3
          have k3 : kept s3 = kept s := by
            repeat' split at h3
            all_goals first | exact (writeOut_kept _ _ _ _ h3).trans k2 | (cases h3; exact k2) | exact absurd rfl ‹_›
          split
          · simp [k3]
          · rename_i h4
            exact (listEntry_kept _ _ _ _ h4).trans k3

@[simp] theorem decodedNext_kept (j : Job) (next : Job) (a : Nat) (glitch : Bool) (bs : List PByte) (res : Except DecErr Decoded) (s : State) : kept (decodedNext j next a glitch bs res s).2 = kept s := by
  unfold decodedNext
  repeat' first | intro _ | simp | split

theorem decodedNext_keeps (j : Job) (next : Job) (a : Nat) (glitch : Bool) (bs : List PByte) (res : Except DecErr Decoded) (s : State) (oo : _) (uu : State) (hh : decodedNext j next a glitch bs res s = (oo, uu)) : kept uu = kept s := (congrArg (fun r => kept r.2) hh).symm.trans (decodedNext_kept j next a glitch bs res s)

@[simp] theorem decodeNext_kept (j : Job) (glitch : Bool) (s : State) : kept (decodeNext j glitch s).2 = kept s := by
  simp only [decodeNext]
  (repeat' split) <;> (try simp) <;> (try grind [→ jobDecIn_kept, → nextSource_kept, → readBlock_kept, → decodedNext_keeps, → transEnd_keeps])

@[simp] theorem jobStart_kept (j : Job) (s : State) : kept (jobStart j s).2 = kept s := by
  simp [jobStart]

theorem jobStart_keeps (j : Job) (s : State) (oo : _) (uu : State) (hh : jobStart j s = (oo, uu)) : kept uu = kept s := (congrArg (fun r => kept r.2) hh).symm.trans (jobStart_kept j s)

@[simp] theorem passHold_kept (u : Nat) (v : Nat) (n : Nat) (s : State) : kept (passHold u v n s) = kept s := by
  simp [passHold]

@[simp] theorem codecSliceStartEffect_kept (e : Nat) (s : State) : kept (codecSliceStartEffect e s) = kept s := by
  unfold codecSliceStartEffect
  repeat' first | intro _ | simp | split

@[simp] theorem blockBoundary_kept (e : Nat) (j : Job) (s : State) : kept (blockBoundary e j s) = kept s := by
  simp [blockBoundary]

@[simp] theorem blockWork_kept (j : Job) (glitch : Bool) (s : State) : kept (blockWork j glitch s).2 = kept s := by
  simp [blockWork]

theorem blockWork_keeps (j : Job) (glitch : Bool) (s : State) (oo : _) (uu : State) (hh : blockWork j glitch s = (oo, uu)) : kept uu = kept s := (congrArg (fun r => kept r.2) hh).symm.trans (blockWork_kept j glitch s)

theorem blockDone_kept (e : Nat) (j : Job) (r : Job × State) (s : State) (h : kept r.2 = kept s) : kept (blockDone e j r s) = kept s := by
  simp only [blockDone]
  split
  · simp
  · split <;> simp [h]

@[simp] theorem codecBlockDoneEffect_kept (e : Nat) (glitch : Bool) (s : State) : kept (codecBlockDoneEffect e glitch s) = kept s := by
  simp only [codecBlockDoneEffect]
  (repeat' split) <;> (try simp) <;> (try grind [→ blockWork_keeps, → jobStart_keeps, blockDone_kept, blockWork_kept, jobStart_kept])

@[simp] theorem sizingPassDoneEffect_kept (e : Nat) (s : State) : kept (sizingPassDoneEffect e s) = kept s := by
  unfold sizingPassDoneEffect
  repeat' first | intro _ | simp | split

@[simp] theorem contextFillEffect_kept (n : Nat) (s : State) : kept (contextFillEffect n s) = kept s := by
  simp [contextFillEffect]

@[simp] theorem contextAcquireEffect_kept (u : Nat) (n : Nat) (found : EccFinding) (s : State) : kept (contextAcquireEffect u n found s) = kept s := by
  unfold contextAcquireEffect
  repeat' first | intro _ | simp | split

@[simp] theorem contextBaseCompleteEffect_kept (s : State) : kept (contextBaseCompleteEffect s) = kept s := by
  unfold contextBaseCompleteEffect
  repeat' first | intro _ | simp | split

/-! ### Machine/Tiles.lean -/

@[simp] theorem onTally_kept (t : Nat) (f : Tally → Tally) (s : State) : kept (onTally t f s) = kept s := by
  simp [onTally]

@[simp] theorem sendSignal_kept (t : Nat) (i : Nat) (b : Bundle) (s : State) : kept (sendSignal t i b s) = kept s := by
  simp [sendSignal]

@[simp] theorem signalAfter_kept (k : Nat) (t : Nat) (i : Nat) (b : Bundle) (s : State) : kept (signalAfter k t i b s) = kept s := by
  simp [signalAfter]

@[simp] theorem onReg_kept (t : Nat) (r : Nat) (f : AReg → AReg) (s : State) : kept (onReg t r f s) = kept s := by
  simp [onReg]

@[simp] theorem needConfirm_kept (t : Nat) (incident : LRec) (forced : Bool) (runs : List Nat) (s : State) : kept (needConfirm t incident forced runs s) = kept s := by
  simp [needConfirm]

@[simp] theorem cured_kept (injected : Bool) (f : Option (LRec × Nat)) (s : State) : kept (cured injected f s) = kept s := by
  unfold cured
  repeat' first | intro _ | simp | split

@[simp] theorem cureRecord_kept (t : Nat) (s : State) : kept (cureRecord t s) = kept s := by
  simp [cureRecord]

@[simp] theorem saveTile_kept (t : Nat) (s : State) : kept (saveTile t s) = kept s := by
  simp [saveTile]

@[simp] theorem takeCheckpoint_kept (t : Nat) (s : State) : kept (takeCheckpoint t s) = kept s := by
  unfold takeCheckpoint
  repeat' first | intro _ | simp | split | refine (kept_foldl _ (fun _ _ => ?_) _ _).trans ?_

@[simp] theorem dropSend_kept (t : Nat) (s : State) : kept (dropSend t s) = kept s := by
  unfold dropSend
  repeat' first | intro _ | simp | split

@[simp] theorem rewindTile_kept (t : Nat) (s : State) : kept (rewindTile t s) = kept s := by
  unfold rewindTile
  repeat' first | intro _ | simp | split | refine (kept_foldl _ (fun _ _ => ?_) _ _).trans ?_

@[simp] theorem replayWindow_kept (t : Nat) (f : OutFail) (s : State) : kept (replayWindow t f s) = kept s := by
  unfold replayWindow
  repeat' first | intro _ | simp | split | refine (kept_foldl _ (fun _ _ => ?_) _ _).trans ?_

@[simp] theorem abortKernel_kept (t : Nat) (s : State) : kept (abortKernel t s) = kept s := by
  unfold abortKernel
  repeat' first | intro _ | simp | split

@[simp] theorem closeIdle_kept (t : Nat) (s : State) : kept (closeIdle t s) = kept s := by
  simp [closeIdle]

@[simp] theorem applyFrees_kept (t : Nat) (s : State) : kept (applyFrees t s) = kept s := by
  unfold applyFrees
  repeat' first | intro _ | simp | split | refine (kept_foldl _ (fun _ _ => ?_) _ _).trans ?_

@[simp] theorem issueCodec_kept (t : Nat) (b : Bundle) (a : Nat) (s : State) : kept (issueCodec t b a s) = kept s := by
  unfold issueCodec
  repeat' first | intro _ | simp | split | refine (kept_foldl _ (fun _ _ => ?_) _ _).trans ?_

@[simp] theorem issuePeriod_kept (t : Nat) (s : State) : kept (issuePeriod t s) = kept s := by
  simp [issuePeriod]

@[simp] theorem issueCtrl_kept (t : Nat) (b : Bundle) (a : Nat) (s : State) : kept (issueCtrl t b a s) = kept s := by
  unfold issueCtrl
  repeat' first | intro _ | simp | split

@[simp] theorem takeWait_kept (t : Nat) (b : Bundle) (s : State) : kept (takeWait t b s) = kept s := by
  simp [takeWait]

@[simp] theorem skipMove_kept (t : Nat) (b : Bundle) (s : State) : kept (skipMove t b s) = kept s := by
  simp [skipMove]

@[simp] theorem skipPack_kept (t : Nat) (b : Bundle) (s : State) : kept (skipPack t b s) = kept s := by
  simp [skipPack]

@[simp] theorem issueBundle_kept (t : Nat) (s : State) : kept (issueBundle t s) = kept s := by
  simp [issueBundle]

@[simp] theorem bundleIssueEffect_kept (t : Nat) (found : EccFinding) (s : State) : kept (bundleIssueEffect t found s) = kept s := by
  unfold bundleIssueEffect
  repeat' first | intro _ | simp | split

@[simp] theorem noteSource_kept (c : Chunk) (s : State) : kept (noteSource c s) = kept s := by
  unfold noteSource
  repeat' first | intro _ | simp | split

@[simp] theorem startCopy_kept (t : Nat) (o : UOp) (s : State) : kept (startCopy t o s) = kept s := by
  unfold startCopy
  repeat' first | intro _ | simp | split | refine (kept_foldl _ (fun _ _ => ?_) _ _).trans ?_

@[simp] theorem copyEffect_kept (t : Nat) (s : State) : kept (copyEffect t s) = kept s := by
  unfold copyEffect
  repeat' first | intro _ | simp | split

@[simp] theorem startMcast_kept (t : Nat) (o : UOp) (s : State) : kept (startMcast t o s) = kept s := by
  unfold startMcast
  repeat' first | intro _ | simp | split | refine (kept_foldl _ (fun _ _ => ?_) _ _).trans ?_

@[simp] theorem mcastEffect_kept (t : Nat) (s : State) : kept (mcastEffect t s) = kept s := by
  unfold mcastEffect
  repeat' first | intro _ | simp | split

@[simp] theorem endMove_kept (t : Nat) (o : UOp) (s : State) : kept (endMove t o s) = kept s := by
  simp [endMove]

@[simp] theorem copyToken_kept (t : Nat) (m : MoveOp) (s : State) : kept (copyToken t m s) = kept s := by
  simp [copyToken]

@[simp] theorem endMcast_kept (t : Nat) (m : McSend) (s : State) : kept (endMcast t m s) = kept s := by
  simp [endMcast]

@[simp] theorem moveCompleteEffect_kept (t : Nat) (s : State) : kept (moveCompleteEffect t s) = kept s := by
  unfold moveCompleteEffect
  repeat' first | intro _ | simp | split

@[simp] theorem tokenArrivalEffect_kept (t : Nat) (c : Nat) (n : Nat) (s : State) : kept (tokenArrivalEffect t c n s) = kept s := by
  simp [tokenArrivalEffect]

@[simp] theorem watchdogEffect_kept (t : Nat) (s : State) : kept (watchdogEffect t s) = kept s := by
  simp [watchdogEffect]

@[simp] theorem jobEndTile_kept (j : Job) (k : Nat) (t : Nat) (st : Nat) (s : State) : kept (jobEndTile j k t st s) = kept s := by
  unfold jobEndTile
  repeat' first | intro _ | simp | split

@[simp] theorem resultGot_kept (j : Job) (s : State) : kept (resultGot j s).s = kept s := by
  unfold resultGot
  repeat' first | intro _ | simp | split

@[simp] theorem codecJobEndEffect_kept (e : Nat) (s : State) : kept (codecJobEndEffect e s) = kept s := by
  unfold codecJobEndEffect
  repeat' first | intro _ | simp | split

/-! ### Machine/CmdPrograms.lean -/

@[simp] theorem programLoadStart_kept (x : Cmd) (ticket : Nat) (s : State) : kept (programLoadStart x ticket s) = kept s := by
  simp [programLoadStart]

@[simp] theorem programLoadEffect_kept (c : Nat) (p : Packet) (s : State) : kept (programLoadEffect c p s) = kept s := by
  simp [programLoadEffect]

@[simp] theorem abortKernels_kept (ts : List Nat) (s : State) : kept (abortKernels ts s) = kept s := by
  unfold abortKernels
  repeat' first | intro _ | simp | split | refine (kept_foldl _ (fun _ _ => ?_) _ _).trans ?_

@[simp] theorem loadProgram_kept (k : Nat) (part : Nat) (g : Image) (s : State) : kept (loadProgram k part g s) = kept s := by
  unfold loadProgram
  repeat' first | intro _ | simp | split | refine (kept_foldl _ (fun _ _ => ?_) _ _).trans ?_

@[simp] theorem finishLoad_kept (o : LoadOp) (s : State) : kept (finishLoad o s) = kept s := by
  unfold finishLoad
  repeat' first | intro _ | simp | split

@[simp] theorem programLoadCompleteEffect_kept (ticket : Nat) (s : State) : kept (programLoadCompleteEffect ticket s) = kept s := by
  unfold programLoadCompleteEffect
  repeat' first | intro _ | simp | split

@[simp] theorem settleL4_kept (s : State) : kept (settleL4 s) = kept s := by
  unfold settleL4
  repeat' first | intro _ | simp | split

@[simp] theorem startTeaching_kept (k : Nat) (s : State) : kept (startTeaching k s) = kept s := by
  simp [startTeaching]

@[simp] theorem stopTeaching_kept (k : Nat) (s : State) : kept (stopTeaching k s) = kept s := by
  simp [stopTeaching]

@[simp] theorem startRun_kept (k : Nat) (ticket : Nat) (s : State) : kept (startRun k ticket s) = kept s := by
  unfold startRun
  repeat' first | intro _ | simp | split | refine (kept_foldl _ (fun _ _ => ?_) _ _).trans ?_

@[simp] theorem programRunAct_kept (x : Cmd) (s : State) : kept (programRunAct x s) = kept s := by
  simp [programRunAct]

@[simp] theorem programRunEffect_kept (c : Nat) (p : Packet) (s : State) : kept (programRunEffect c p s) = kept s := by
  simp [programRunEffect]

@[simp] theorem programAbortEffect_kept (c : Nat) (p : Packet) (s : State) : kept (programAbortEffect c p s) = kept s := by
  simp [programAbortEffect]

@[simp] theorem unloadProg_kept (k : Nat) (s : State) : kept (unloadProg k s) = kept s := by
  unfold unloadProg
  repeat' first | intro _ | simp | split | refine (kept_foldl _ (fun _ _ => ?_) _ _).trans ?_

@[simp] theorem programUnloadEffect_kept (c : Nat) (p : Packet) (s : State) : kept (programUnloadEffect c p s) = kept s := by
  simp [programUnloadEffect]

@[simp] theorem countEnd_kept (part : Nat) (e : RunEnd) (s : State) : kept (countEnd part e s) = kept s := by
  simp [countEnd]

@[simp] theorem closeRun_kept (k : Nat) (s : State) : kept (closeRun k s) = kept s := by
  unfold closeRun
  repeat' first | intro _ | simp | split | refine (kept_foldl _ (fun _ _ => ?_) _ _).trans ?_

@[simp] theorem programCompleteEffect_kept (k : Nat) (s : State) : kept (programCompleteEffect k s) = kept s := by
  simp [programCompleteEffect]

@[simp] theorem getResultApply_kept (x : Cmd) (s : State) : kept (getResultApply x s).2 = kept s := by
  unfold getResultApply
  repeat' first | intro _ | simp | split

@[simp] theorem getResultEffect_kept (c : Nat) (p : Packet) (s : State) : kept (getResultEffect c p s) = kept s := by
  simp [getResultEffect]

@[simp] theorem ackResultApply_kept (x : Cmd) (s : State) : kept (ackResultApply x s).2 = kept s := by
  unfold ackResultApply
  repeat' first | intro _ | simp | split

@[simp] theorem ackResultEffect_kept (c : Nat) (p : Packet) (s : State) : kept (ackResultEffect c p s) = kept s := by
  simp [ackResultEffect]

@[simp] theorem mcastReportEffect_kept (c : Nat) (p : Packet) (s : State) : kept (mcastReportEffect c p s) = kept s := by
  simp [mcastReportEffect]

end Sys2Proof.Laws
end

