-- ==== Sys2Proof/Laws/KeptLinks.lean ====
section
/-! SUPPORT. The expand and pack units, the network and Peloc keep what `kept` names. -/

namespace Sys2Proof.Laws

open Sys2Proof.Machine

/-! ### Machine/TileUnits.lean -/

@[simp] theorem startExpand_kept (t : Nat) (o : UOp) (s : State) : kept (startExpand t o s) = kept s := by
  unfold startExpand
  repeat' first | intro _ | simp | split

@[simp] theorem expandEffect_kept (t : Nat) (s : State) : kept (expandEffect t s) = kept s := by
  unfold expandEffect
  repeat' first | intro _ | simp | split

@[simp] theorem readStore_kept (a : Nat) (n : Nat) (s : State) : kept (readStore a n s).2 = kept s := by
  simp [readStore]

@[simp] theorem decodeCopy_kept (di : DecIn) (u : Nat) (a : Nat) (s : State) : kept (decodeCopy di u a s).2 = kept s := by
  unfold decodeCopy
  repeat' first | intro _ | simp | split

theorem decodeCopy_keeps (di : DecIn) (u : Nat) (a : Nat) (s : State) (oo : _) (uu : State) (hh : decodeCopy di u a s = (oo, uu)) : kept uu = kept s := (congrArg (fun r => kept r.2) hh).symm.trans (decodeCopy_kept di u a s)

@[simp] theorem decodeCopies_kept (di : DecIn) (x0 : List (Nat × Nat)) (s : State) : kept (decodeCopies di x0 s).2 = kept s := by
  fun_induction decodeCopies di x0 s <;> (try simp_all) <;> grind [→ decodeCopy_keeps]

theorem decodeCopies_keeps (di : DecIn) (x0 : List (Nat × Nat)) (s : State) (oo : _) (uu : State) (hh : decodeCopies di x0 s = (oo, uu)) : kept uu = kept s := (congrArg (fun r => kept r.2) hh).symm.trans (decodeCopies_kept di x0 s)

theorem expDecIn_kept (t : Nat) (part : Nat) (n : Option Nat) (old : OldSlots) (s : State) (r : DecIn × State) (h : expDecIn t part n old s = .ok r) : kept r.2 = kept s := by
  simp only [expDecIn] at h
  (repeat' split at h) <;> grind [→ readHist_kept]

@[simp] theorem endExpand_kept (t : Nat) (e : ExpOp) (s : State) : kept (endExpand t e s) = kept s := by
  unfold endExpand
  repeat' first | intro _ | simp | split

@[simp] theorem fillSlot_kept (t : Nat) (act : Bool) (k : Nat) (off : Nat) (data : List Byte) (s : State) : kept (fillSlot t act k off data s) = kept s := by
  simp [fillSlot]

@[simp] theorem stopExpand_kept (t : Nat) (e : ExpOp) (x : Stop) (s : State) : kept (stopExpand t e x s) = kept s := by
  unfold stopExpand
  repeat' first | intro _ | simp | split

@[simp] theorem goodBlock_kept (t : Nat) (e : ExpOp) (e0 : ExpOp) (cs : List Copy) (s : State) : kept (goodBlock t e e0 cs s) = kept s := by
  have k0 : ∀ u : State, kept (e.again.foldl (fun u k => judge (expRec u t k stOk e verTransient) (e.hit.contains k) u) u) = kept u :=
    fun u => kept_foldl _ (fun _ _ => judge_kept _ _ _) _ _
  have k1 : ∀ (ds : List (Nat × Decoded)) (u : State),
      kept (ds.foldl (fun u x => fillSlot x.1 e.op.b.expAct e.op.b.eslot e.off x.2.orig u) u) = kept u :=
    fun ds u => kept_foldl _ (fun _ _ => fillSlot_kept _ _ _ _ _ _) _ _
  unfold goodBlock
  dsimp only
  split
  · rw [endTile_kept]; exact k0 s
  · split
    · simp
    · rename_i s2 h
      have k2 : kept s2 = kept s := by
        split at h
        · exact (commitDecode_kept _ _ _ _ _ h).trans ((k1 _ _).trans (k0 s))
        · cases h; exact (k1 _ _).trans (k0 s)
      split
      · simpa using k2
      · split <;> simpa using k2

@[simp] theorem badBlock_kept (t : Nat) (e : ExpOp) (first : Bool) (c : Copy) (code : Nat) (s : State) : kept (badBlock t e first c code s) = kept s := by
  unfold badBlock
  repeat' first | intro _ | simp | split

@[simp] theorem badBlocks_kept (t : Nat) (e : ExpOp) (x0 : Bool) (x1 : List (Copy × Nat)) (s : State) : kept (badBlocks t e x0 x1 s) = kept s := by
  fun_induction badBlocks t e x0 x1 s <;> simp_all

@[simp] theorem strikeCopies_kept (e : ExpOp) (cs : List Copy) (s : State) : kept (strikeCopies e cs s).2 = kept s := by
  have key : ∀ (cs : List Copy) (q : ExpOp × State), kept (cs.foldl (fun (st : ExpOp × State) c =>
      match c.res with
      | .ok _ => if armed st.2 (expUnit c.tile) 6 then ({ st.1 with hit := st.1.hit ++ [c.tile] }, takeInject (expUnit c.tile) 6 st.2) else st
      | .error _ => st) q).2 = kept q.2 := by
    intro cs
    induction cs with
    | nil => intro q; rfl
    | cons c r ih =>
      intro q
      rw [List.foldl_cons, ih]
      repeat' first | rfl | simp | split
  unfold strikeCopies
  split
  · rfl
  · exact key _ _

theorem strikeCopies_keeps (e : ExpOp) (cs : List Copy) (s : State) (oo : _) (uu : State) (hh : strikeCopies e cs s = (oo, uu)) : kept uu = kept s := (congrArg (fun r => kept r.2) hh).symm.trans (strikeCopies_kept e cs s)

@[simp] theorem decodedBlock_kept (t : Nat) (e0 : ExpOp) (cs : List Copy) (s : State) : kept (decodedBlock t e0 cs s) = kept s := by
  unfold decodedBlock
  repeat' first | intro _ | simp | split

theorem blockCopies_kept (t : Nat) (e : ExpOp) (s : State) (r : List Copy × State) (h : blockCopies t e s = .ok r) : kept r.2 = kept s := by
  simp only [blockCopies] at h
  (repeat' split at h) <;> grind [→ expDecIn_kept, → decodeCopies_keeps]

@[simp] theorem expandBlock_kept (t : Nat) (e : ExpOp) (s : State) : kept (expandBlock t e s) = kept s := by
  simp only [expandBlock]
  (repeat' split) <;> (try simp) <;> (try grind [→ blockCopies_kept])

@[simp] theorem lateBlock_kept (t : Nat) (act : Bool) (e : ExpOp) (s : State) : kept (lateBlock t act e s) = kept s := by
  simp only [lateBlock]
  (repeat' split) <;> (try simp) <;> (try grind [→ blockCopies_kept, → strikeCopies_keeps])

@[simp] theorem shadowGlitch_kept (u : Nat) (act : Bool) (s : State) : kept (shadowGlitch u act s) = kept s := by
  simp [shadowGlitch]

@[simp] theorem blockConsumableEffect_kept (t : Nat) (act : Bool) (glitch : Bool) (s : State) : kept (blockConsumableEffect t act glitch s) = kept s := by
  unfold blockConsumableEffect
  repeat' first | intro _ | simp | split

theorem fetchAgain_kept (t : Nat) (u : Nat) (x0 : List Chunk) (s : State) (r : State) (h : fetchAgain t u x0 s = .ok r) : kept r = kept s := by
  fun_induction fetchAgain t u x0 s generalizing r <;> grind [readPieces_kept, storeWrite_kept]

theorem fetchCopies_kept (t : Nat) (runs : List Chunk) (x0 : List Nat) (s : State) (r : State) (h : fetchCopies t runs x0 s = .ok r) : kept r = kept s := by
  fun_induction fetchCopies t runs x0 s generalizing r <;> grind [→ fetchAgain_kept]

@[simp] theorem countRefetch_kept (t : Nat) (us : List Nat) (s : State) : kept (countRefetch t us s) = kept s := by
  unfold countRefetch
  repeat' first | intro _ | simp | split | refine (kept_foldl _ (fun _ _ => ?_) _ _).trans ?_

theorem fetched_kept (t : Nat) (e : ExpOp) (s : State) (r : State) (h : fetched t e s = .ok r) : kept r = kept s := by
  simp only [fetched] at h
  (repeat' split at h) <;> first | (cases h; done) | (cases h; simp; done) | (cases h; simp; grind [→ fetchCopies_kept])

@[simp] theorem outputFailed_kept (t : Nat) (f : OutFail) (s : State) : kept (outputFailed t f s) = kept s := by
  simp [outputFailed]

@[simp] theorem runDue_kept (t : Nat) (s : State) : kept (runDue t s) = kept s := by
  unfold runDue
  repeat' first | intro _ | simp | split

@[simp] theorem blockRefetchEffect_kept (t : Nat) (act : Bool) (glitch : Bool) (s : State) : kept (blockRefetchEffect t act glitch s) = kept s := by
  simp only [blockRefetchEffect]
  (repeat' split) <;> (try simp) <;> (try grind [→ fetched_kept])

@[simp] theorem macSlots_kept (t : Nat) (b : Bundle) (w : SlotState) (a : SlotState) (s : State) : kept (macSlots t b w a s) = kept s := by
  unfold macSlots
  repeat' first | intro _ | simp | split | refine (kept_foldl _ (fun _ _ => ?_) _ _).trans ?_

@[simp] theorem lateEcc_kept (t : Nat) (unit : Nat) (slotk : Nat) (o : Option UOp) (found : EccFinding) (s : State) : kept (lateEcc t unit slotk o found s) = kept s := by
  unfold lateEcc
  repeat' first | intro _ | simp | split

@[simp] theorem macEffect_kept (t : Nat) (found : EccFinding) (s : State) : kept (macEffect t found s) = kept s := by
  unfold macEffect
  repeat' first | intro _ | simp | split

@[simp] theorem macResult_kept (leader : Nat) (ms : List Nat) (b : Bundle) (i : Nat) (s : State) : kept (macResult leader ms b i s) = kept s := by
  simp [macResult]

@[simp] theorem endMac_kept (t : Nat) (o : UOp) (s : State) : kept (endMac t o s) = kept s := by
  unfold endMac
  repeat' first | intro _ | simp | split | refine (kept_foldl _ (fun _ _ => ?_) _ _).trans ?_

@[simp] theorem spoilRow_kept (t : Nat) (row : Nat) (es : List (Nat × Int)) (s : State) : kept (spoilRow t row es s) = kept s := by
  unfold spoilRow
  repeat' first | intro _ | simp | split | refine (kept_foldl _ (fun _ _ => ?_) _ _).trans ?_

@[simp] theorem rowResultWrittenEffect_kept (t : Nat) (wrong : List (Bool × Nat × Int)) (s : State) : kept (rowResultWrittenEffect t wrong s) = kept s := by
  unfold rowResultWrittenEffect
  repeat' first | intro _ | simp | split

@[simp] theorem packRead_kept (t : Nat) (o : UOp) (s : State) : kept (packRead t o s) = kept s := by
  simp [packRead]

@[simp] theorem packEffect_kept (t : Nat) (found : EccFinding) (s : State) : kept (packEffect t found s) = kept s := by
  unfold packEffect
  repeat' first | intro _ | simp | split

@[simp] theorem decidePack_kept (t : Nat) (k : PackOp) (glitch : Bool) (s : State) : kept (decidePack t k glitch s).2 = kept s := by
  simp [decidePack]

@[simp] theorem lateDecision_kept (t : Nat) (l : Late) (glitch : Bool) (s : State) : kept (lateDecision t l glitch s) = kept s := by
  unfold lateDecision
  repeat' first | intro _ | simp | split

@[simp] theorem plausibilityDecisionEffect_kept (t : Nat) (glitch : Bool) (s : State) : kept (plausibilityDecisionEffect t glitch s) = kept s := by
  unfold plausibilityDecisionEffect
  repeat' first | intro _ | simp | split

theorem packWrite_kept (t part a : Nat) (data : List Byte) (s u : State) (h : packWrite t part a data s = .ok u) : kept u = kept s := by
  simp only [packWrite] at h
  split at h
  · cases h
  · split at h
    · cases h
    · cases h
      refine (kept_foldl _ (fun _ _ => ?_) _ _).trans (writePieces_kept _ _ _ _ _ _)
      split <;> simp

theorem packPending_kept (t : Nat) (n : Nat) (s : State) (r : List PByte × State) (h : packPending t n s = .ok r) : kept r.2 = kept s := by
  simp only [packPending] at h
  (repeat' split at h) <;> grind [→ readPending_kept]

theorem packKeep_kept (t : Nat) (n : Nat) (us : List PByte) (s : State) (r : State) (h : packKeep t n us s = .ok r) : kept r = kept s := by
  simp only [packKeep] at h
  (repeat' split at h) <;> first | (cases h; simp; done) | grind [→ setPendingUnits_kept]

theorem packBlock_kept (t : Nat) (n : Nat) (a : Nat) (r : FormReq) (s : State) (res : Nat × State) (h : packBlock t n a r s = .ok res) : kept res.2 = kept s := by
  simp only [packBlock] at h
  (repeat' split at h) <;> first | (cases h; done) | (cases h; simp; done) | (cases h; simp; grind [→ commitEncode_kept, → formBlock_kept, → packWrite_kept])

@[simp] theorem endPack_kept (t : Nat) (n : Nat) (o : UOp) (len : Nat) (rest : Bool) (s : State) : kept (endPack t n o len rest s) = kept s := by
  simp [endPack]

@[simp] theorem stopPack_kept (t : Nat) (k : PackOp) (x : Stop) (s : State) : kept (stopPack t k x s) = kept s := by
  unfold stopPack
  repeat' first | intro _ | simp | split

@[simp] theorem packBlocks_kept (x0 : Nat) (x1 : Nat) (x2 : Nat) (x3 : PackOp) (s : State) : kept (packBlocks x0 x1 x2 x3 s) = kept s := by
  fun_induction packBlocks x0 x1 x2 x3 s <;> (try simp_all) <;> grind [→ packBlock_kept, → packKeep_kept, boundaryCtx_kept, endPack_kept, onTile_kept, stopPack_kept]

@[simp] theorem packGather_kept (t : Nat) (n : Nat) (k : PackOp) (s : State) : kept (packGather t n k s) = kept s := by
  simp only [packGather]
  (repeat' split) <;> (try simp) <;> (try grind [→ packPending_kept])

@[simp] theorem writePack_kept (t : Nat) (n : Nat) (k : PackOp) (s : State) : kept (writePack t n k s) = kept s := by
  simp [writePack]

@[simp] theorem packOut_kept (t : Nat) (k : PackOp) (s : State) : kept (packOut t k s) = kept s := by
  simp [packOut]

@[simp] theorem packOutputWrittenEffect_kept (t : Nat) (found : EccFinding) (s : State) : kept (packOutputWrittenEffect t found s) = kept s := by
  unfold packOutputWrittenEffect
  repeat' first | intro _ | simp | split

/-! ### Machine/LmcCore.lean -/

@[simp] theorem onGroup_kept (k : Nat) (f : Group → Group) (s : State) : kept (onGroup k f s) = kept s := by
  simp [onGroup]

@[simp] theorem onRun_kept (k : Nat) (f : LmcRun → LmcRun) (s : State) : kept (onRun k f s) = kept s := by
  simp [onRun]

@[simp] theorem sendGrant_kept (p : Nat) (l : Nat) (k : Nat) (nmask : Nat) (reason : Nat) (s : State) : kept (sendGrant p l k nmask reason s) = kept s := by
  simp [sendGrant]

@[simp] theorem sendAborts_kept (k : Nat) (nmask : Nat) (s : State) : kept (sendAborts k nmask s) = kept s := by
  unfold sendAborts
  repeat' first | intro _ | simp | split | refine (kept_foldl _ (fun _ _ => ?_) _ _).trans ?_

@[simp] theorem sendSegments_kept (p : Nat) (k : Nat) (total : Nat) (data : List Byte) (bad : List Nat) (s : State) : kept (sendSegments p k total data bad s) = kept s := by
  unfold sendSegments
  repeat' first | intro _ | simp | split | refine (kept_foldl _ (fun _ _ => ?_) _ _).trans ?_

@[simp] theorem lmcAnswer_kept (p : Nat) (delivered : BitVec 64) (s : State) : kept (lmcAnswer p delivered s) = kept s := by
  unfold lmcAnswer
  repeat' first | intro _ | simp | split

@[simp] theorem lmcLanded_kept (p : Nat) (s : State) : kept (lmcLanded p s) = kept s := by
  unfold lmcLanded
  repeat' first | intro _ | simp | split

@[simp] theorem lmcLand_kept (p : Nat) (tag : Nat) (b : LmcBuf) (s : State) : kept (lmcLand p tag b s) = kept s := by
  unfold lmcLand
  repeat' first | intro _ | simp | split | refine (kept_foldl _ (fun _ _ => ?_) _ _).trans ?_

@[simp] theorem lmcClose_kept (k : Nat) (st : Nat) (missing : Nat) (s : State) : kept (lmcClose k st missing s) = kept s := by
  unfold lmcClose
  repeat' first | intro _ | simp | split

@[simp] theorem lmcProceed_kept (k : Nat) (s : State) : kept (lmcProceed k s) = kept s := by
  unfold lmcProceed
  repeat' first | intro _ | simp | split | refine (kept_foldl _ (fun _ _ => ?_) _ _).trans ?_

@[simp] theorem abandonTiles_kept (p : Nat) (s : State) : kept (abandonTiles p s) = kept s := by
  unfold abandonTiles
  repeat' first | intro _ | simp | split

@[simp] theorem lmcDrop_kept (reset : Bool) (k : Nat) (s : State) : kept (lmcDrop reset k s) = kept s := by
  unfold lmcDrop
  repeat' first | intro _ | simp | split | refine (kept_foldl _ (fun _ _ => ?_) _ _).trans ?_

@[simp] theorem abandonLmc_kept (part : Nat) (st : Nat) (s : State) : kept (abandonLmc part st s) = kept s := by
  unfold abandonLmc
  repeat' first | intro _ | simp | split | refine (kept_foldl _ (fun _ _ => ?_) _ _).trans ?_

/-! ### Machine/Noc.lean -/

@[simp] theorem arrive_kept (k : NocPkt) (d : Damage) (s : State) : kept (arrive k d s).2 = kept s := by
  unfold arrive
  repeat' first | intro _ | simp | split

@[simp] theorem receive_kept (r : Nat) (a : Arrived) (act : NocPkt → State → State) (s : State) (hact : ∀ y0 t, kept (act y0 t) = kept t) : kept (receive r a act s) = kept s := by
  simp [receive, hact]

@[simp] theorem unicast_kept (t : Nat) (k : NocPkt) (d : Damage) (act : NocPkt → State → State) (s : State) (hact : ∀ y0 t, kept (act y0 t) = kept t) : kept (unicast t k d act s) = kept s := by
  simp [unicast, hact]

@[simp] theorem multicast_kept (t : Nat) (k : NocPkt) (d : Damage) (act : Nat → NocPkt → State → State) (s : State) (hact : ∀ y0 y1 t, kept (act y0 y1 t) = kept t) : kept (multicast t k d act s) = kept s := by
  unfold multicast
  repeat' first | intro _ | simp [hact] | split | refine (kept_foldl _ (fun _ _ => ?_) _ _).trans ?_

@[simp] theorem nackPkt_kept (k : NocPkt) (st : Nat) (hint : Nat) (s : State) : kept (nackPkt k st hint s) = kept s := by
  simp [nackPkt]

@[simp] theorem fenceNack_kept (k : NocPkt) (hint : Nat) (s : State) : kept (fenceNack k hint s) = kept s := by
  simp [fenceNack]

@[simp] theorem serveMem_kept (k : NocPkt) (s : State) : kept (serveMem k s) = kept s := by
  unfold serveMem
  repeat' first | intro _ | simp | split

@[simp] theorem serveTile_kept (t : Nat) (k : NocPkt) (s : State) : kept (serveTile t k s) = kept s := by
  simp [serveTile]

@[simp] theorem serveReq_kept (k : NocPkt) (s : State) : kept (serveReq k s) = kept s := by
  unfold serveReq
  repeat' first | intro _ | simp | split

@[simp] theorem rdEffect_kept (k : NocPkt) (d : Damage) (s : State) : kept (rdEffect k d s) = kept s := by
  simp [rdEffect]

@[simp] theorem wrEffect_kept (k : NocPkt) (d : Damage) (s : State) : kept (wrEffect k d s) = kept s := by
  simp [wrEffect]

@[simp] theorem tokenEffect_kept (k : NocPkt) (d : Damage) (s : State) : kept (tokenEffect k d s) = kept s := by
  simp [tokenEffect]

@[simp] theorem cfgPut_kept (k : NocPkt) (s : State) : kept (cfgPut k s) = kept s := by
  simp [cfgPut]

@[simp] theorem serveCfg_kept (k : NocPkt) (s : State) : kept (serveCfg k s) = kept s := by
  unfold serveCfg
  repeat' first | intro _ | simp | split

@[simp] theorem cfgRdEffect_kept (k : NocPkt) (d : Damage) (s : State) : kept (cfgRdEffect k d s) = kept s := by
  simp [cfgRdEffect]

@[simp] theorem cfgWrEffect_kept (k : NocPkt) (d : Damage) (s : State) : kept (cfgWrEffect k d s) = kept s := by
  simp [cfgWrEffect]

@[simp] theorem onInb_kept (p : Nat) (id : Nat) (f : InTx → InTx) (s : State) : kept (onInb p id f s) = kept s := by
  simp [onInb]

@[simp] theorem payCredit_kept (p : Nat) (id : Nat) (s : State) : kept (payCredit p id s) = kept s := by
  unfold payCredit
  repeat' first | intro _ | simp | split

@[simp] theorem settleInb_kept (p : Nat) (id : Nat) (s : State) : kept (settleInb p id s) = kept s := by
  unfold settleInb
  repeat' first | intro _ | simp | split

@[simp] theorem inbAnswer_kept (p : Nat) (id : Nat) (f : InTx → InTx) (s : State) : kept (inbAnswer p id f s) = kept s := by
  simp [inbAnswer]

@[simp] theorem tryMcData_kept (r : Nat) (q : Nat) (s : State) : kept (tryMcData r q s) = kept s := by
  unfold tryMcData
  repeat' first | intro _ | simp | split | refine (kept_foldl _ (fun _ _ => ?_) _ _).trans ?_

@[simp] theorem onMc_kept (r : Nat) (q : Nat) (tag : Nat) (f : McSend → McSend) (s : State) : kept (onMc r q tag f s) = kept s := by
  unfold onMc
  repeat' first | intro _ | simp | split

@[simp] theorem lateResponse_kept (k : NocPkt) (s : State) : kept (lateResponse k s) = kept s := by
  simp [lateResponse]

@[simp] theorem readCame_kept (x : NocReq) (data : List Byte) (marks : List Nat) (s : State) : kept (readCame x data marks s) = kept s := by
  unfold readCame
  repeat' first | intro _ | simp | split

@[simp] theorem moveLanded_kept (t : Nat) (s : State) : kept (moveLanded t s) = kept s := by
  simp [moveLanded]

@[simp] theorem ackCame_kept (x : NocReq) (s : State) : kept (ackCame x s) = kept s := by
  unfold ackCame
  repeat' first | intro _ | simp | split

@[simp] theorem failReq_kept (x : NocReq) (st : Nat) (hint : Nat) (s : State) : kept (failReq x st hint s) = kept s := by
  unfold failReq
  repeat' first | intro _ | simp | split

@[simp] theorem rdDataEffect_kept (k : NocPkt) (d : Damage) (s : State) : kept (rdDataEffect k d s) = kept s := by
  unfold rdDataEffect
  repeat' first | simp | split | refine (unicast_kept _ _ _ _ _ (fun _ _ => ?_)).trans ?_

@[simp] theorem wrAckEffect_kept (k : NocPkt) (d : Damage) (s : State) : kept (wrAckEffect k d s) = kept s := by
  unfold wrAckEffect
  repeat' first | simp | split | refine (unicast_kept _ _ _ _ _ (fun _ _ => ?_)).trans ?_

@[simp] theorem nackEffect_kept (k : NocPkt) (d : Damage) (s : State) : kept (nackEffect k d s) = kept s := by
  unfold nackEffect
  repeat' first | simp | split | refine (unicast_kept _ _ _ _ _ (fun _ _ => ?_)).trans ?_

@[simp] theorem mcTimeout_kept (r : Nat) (q : Nat) (m : McSend) (s : State) : kept (mcTimeout r q m s) = kept s := by
  simp [mcTimeout]

@[simp] theorem requestTimeoutEffect_kept (r : Nat) (q : Nat) (tag : Nat) (s : State) : kept (requestTimeoutEffect r q tag s) = kept s := by
  unfold requestTimeoutEffect
  repeat' first | intro _ | simp | split

@[simp] theorem fenceRetryEffect_kept (r : Nat) (q : Nat) (tag : Nat) (s : State) : kept (fenceRetryEffect r q tag s) = kept s := by
  unfold fenceRetryEffect
  repeat' first | intro _ | simp | split

@[simp] theorem mcReserveEffect_kept (k : NocPkt) (d : Damage) (s : State) : kept (mcReserveEffect k d s) = kept s := by
  simp [mcReserveEffect]

@[simp] theorem mcGrantEffect_kept (k : NocPkt) (d : Damage) (s : State) : kept (mcGrantEffect k d s) = kept s := by
  unfold mcGrantEffect
  repeat' first | simp | split | refine (unicast_kept _ _ _ _ _ (fun _ _ => ?_)).trans ?_

@[simp] theorem mcResultEffect_kept (k : NocPkt) (d : Damage) (s : State) : kept (mcResultEffect k d s) = kept s := by
  unfold mcResultEffect
  repeat' first | simp | split | refine (unicast_kept _ _ _ _ _ (fun _ _ => ?_)).trans ?_

@[simp] theorem mcDataEffect_kept (k : NocPkt) (d : Damage) (s : State) : kept (mcDataEffect k d s) = kept s := by
  unfold mcDataEffect
  repeat' first | simp | split | refine (multicast_kept _ _ _ _ _ (fun _ _ _ => ?_)).trans ?_

@[simp] theorem commitLanding_kept (t : Nat) (l : Landing) (s : State) : kept (commitLanding t l s) = kept s := by
  simp [commitLanding]

@[simp] theorem mcastCommitDoneEffect_kept (t : Nat) (s : State) : kept (mcastCommitDoneEffect t s) = kept s := by
  unfold mcastCommitDoneEffect
  repeat' first | intro _ | simp | split

@[simp] theorem mcastLandingTimeoutEffect_kept (t : Nat) (s : State) : kept (mcastLandingTimeoutEffect t s) = kept s := by
  unfold mcastLandingTimeoutEffect
  repeat' first | intro _ | simp | split

@[simp] theorem mcAbortEffect_kept (k : NocPkt) (d : Damage) (s : State) : kept (mcAbortEffect k d s) = kept s := by
  unfold mcAbortEffect
  repeat' first | simp | split | refine (multicast_kept _ _ _ _ _ (fun _ _ _ => ?_)).trans ?_

@[simp] theorem mcTokenEffect_kept (k : NocPkt) (d : Damage) (s : State) : kept (mcTokenEffect k d s) = kept s := by
  simp [mcTokenEffect]

/-! ### Machine/PelocEv.lean -/

@[simp] theorem flitArrives_kept (kind : Nat) (p : Nat) (raw : List Byte) (d : FecResult) (good : Flit → State → State) (bad : State → State) (s : State) (hgood : ∀ y0 t, kept (good y0 t) = kept t) (hbad : ∀ t, kept (bad t) = kept t) : kept (flitArrives kind p raw d good bad s) = kept s := by
  simp [flitArrives, hgood, hbad]

@[simp] theorem flitIdleEffect_kept (p : Nat) (raw : List Byte) (d : FecResult) (s : State) : kept (flitIdleEffect p raw d s) = kept s := by
  simp [flitIdleEffect]

@[simp] theorem landTx_kept (p : Nat) (vc : Nat) (a : Asm) (s : State) : kept (landTx p vc a s) = kept s := by
  simp [landTx]

@[simp] theorem takeData_kept (p : Nat) (f : Flit) (s : State) : kept (takeData p f s) = kept s := by
  simp [takeData]

@[simp] theorem takeSequenced_kept (p : Nat) (act : Flit → State → State) (f : Flit) (s : State) (hact : ∀ y0 t, kept (act y0 t) = kept t) : kept (takeSequenced p act f s) = kept s := by
  unfold takeSequenced
  repeat' first | intro _ | simp [hact] | split

@[simp] theorem flitDataEffect_kept (p : Nat) (raw : List Byte) (d : FecResult) (s : State) : kept (flitDataEffect p raw d s) = kept s := by
  simp [flitDataEffect]

@[simp] theorem takeCtrl_kept (p : Nat) (body : List Byte) (s : State) : kept (takeCtrl p body s) = kept s := by
  simp [takeCtrl]

@[simp] theorem flitCtrlEffect_kept (p : Nat) (raw : List Byte) (d : FecResult) (s : State) : kept (flitCtrlEffect p raw d s) = kept s := by
  simp [flitCtrlEffect]

@[simp] theorem replayDue_kept (p : Nat) (s : State) : kept (replayDue p s) = kept s := by
  simp [replayDue]

@[simp] theorem takeNak_kept (p : Nat) (f : Flit) (s : State) : kept (takeNak p f s) = kept s := by
  simp [takeNak]

@[simp] theorem flitNakEffect_kept (p : Nat) (raw : List Byte) (d : FecResult) (s : State) : kept (flitNakEffect p raw d s) = kept s := by
  simp [flitNakEffect]

@[simp] theorem replayTimerEffect_kept (p : Nat) (s : State) : kept (replayTimerEffect p s) = kept s := by
  simp [replayTimerEffect]

@[simp] theorem withCtrl_kept (p : Nat) (c : Nat) (act : List Byte → State → State) (s : State) (hact : ∀ y0 t, kept (act y0 t) = kept t) : kept (withCtrl p c act s) = kept s := by
  unfold withCtrl
  repeat' first | intro _ | simp [hact] | split

@[simp] theorem helloEffect_kept (p : Nat) (s : State) : kept (helloEffect p s) = kept s := by
  simp [helloEffect]

@[simp] theorem linkUp_kept (p : Nat) (s : State) : kept (linkUp p s) = kept s := by
  unfold linkUp
  repeat' first | intro _ | simp | split

@[simp] theorem helloAckEffect_kept (p : Nat) (s : State) : kept (helloAckEffect p s) = kept s := by
  simp [helloAckEffect]

@[simp] theorem enterSleep_kept (p : Nat) (s : State) : kept (enterSleep p s) = kept s := by
  simp [enterSleep]

@[simp] theorem sleepReqEffect_kept (p : Nat) (s : State) : kept (sleepReqEffect p s) = kept s := by
  simp [sleepReqEffect]

@[simp] theorem sleepAckEffect_kept (p : Nat) (s : State) : kept (sleepAckEffect p s) = kept s := by
  simp [sleepAckEffect]

@[simp] theorem sleepNakEffect_kept (p : Nat) (s : State) : kept (sleepNakEffect p s) = kept s := by
  simp [sleepNakEffect]

@[simp] theorem degradeEffect_kept (p : Nat) (s : State) : kept (degradeEffect p s) = kept s := by
  simp [degradeEffect]

@[simp] theorem downNoticeEffect_kept (p : Nat) (s : State) : kept (downNoticeEffect p s) = kept s := by
  simp [downNoticeEffect]

@[simp] theorem trainOn_kept (p : Nat) (s : State) : kept (trainOn p s) = kept s := by
  unfold trainOn
  repeat' first | intro _ | simp | split

@[simp] theorem trainingFrameEffect_kept (p : Nat) (l : Nat) (f : TrainFrame) (s : State) : kept (trainingFrameEffect p l f s) = kept s := by
  simp [trainingFrameEffect]

@[simp] theorem trainingStepDeadlineEffect_kept (p : Nat) (s : State) : kept (trainingStepDeadlineEffect p s) = kept s := by
  simp [trainingStepDeadlineEffect]

@[simp] theorem peerWaitExpiryEffect_kept (p : Nat) (s : State) : kept (peerWaitExpiryEffect p s) = kept s := by
  simp [peerWaitExpiryEffect]

@[simp] theorem frameLockEffect_kept (p : Nat) (ws : List (List Byte)) (s : State) : kept (frameLockEffect p ws s) = kept s := by
  unfold frameLockEffect
  repeat' first | intro _ | simp | split

@[simp] theorem frameLockLossEffect_kept (p : Nat) (ws : List (List Byte)) (s : State) : kept (frameLockLossEffect p ws s) = kept s := by
  simp [frameLockLossEffect]

@[simp] theorem laneFaultEffect_kept (p : Nat) (l : Nat) (lost : Bool) (fcnt : Nat) (s : State) : kept (laneFaultEffect p l lost fcnt s) = kept s := by
  simp [laneFaultEffect]

@[simp] theorem switched_kept (p : Nat) (w : Nat) (s : State) : kept (switched p w s) = kept s := by
  simp [switched]

@[simp] theorem widthSwitchEffect_kept (p : Nat) (tx : Bool) (fcnt : Nat) (s : State) : kept (widthSwitchEffect p tx fcnt s) = kept s := by
  unfold widthSwitchEffect
  repeat' first | intro _ | simp | split

@[simp] theorem sleepIdleTimerEffect_kept (p : Nat) (s : State) : kept (sleepIdleTimerEffect p s) = kept s := by
  simp [sleepIdleTimerEffect]

@[simp] theorem wakeEffect_kept (p : Nat) (s : State) : kept (wakeEffect p s) = kept s := by
  simp [wakeEffect]

@[simp] theorem wakeTimeoutEffect_kept (p : Nat) (s : State) : kept (wakeTimeoutEffect p s) = kept s := by
  simp [wakeTimeoutEffect]

@[simp] theorem recalStepEffect_kept (p : Nat) (s : State) : kept (recalStepEffect p s) = kept s := by
  simp [recalStepEffect]

@[simp] theorem linkRecalCompleteEffect_kept (p : Nat) (s : State) : kept (linkRecalCompleteEffect p s) = kept s := by
  unfold linkRecalCompleteEffect
  repeat' first | intro _ | simp | split

/-! ### Machine/PelocTx.lean -/

@[simp] theorem startInbound_kept (p : Nat) (t : PelTx) (s : State) : kept (startInbound p t s) = kept s := by
  unfold startInbound
  repeat' first | intro _ | simp | split | refine (kept_foldl _ (fun _ _ => ?_) _ _).trans ?_

@[simp] theorem inboundTx_kept (tt : Nat) (p : Nat) (s : State) : kept (inboundTx tt p s) = kept s := by
  unfold inboundTx
  repeat' first | intro _ | simp | split

@[simp] theorem pelocRdEffect_kept (p : Nat) (s : State) : kept (pelocRdEffect p s) = kept s := by
  simp [pelocRdEffect]

@[simp] theorem pelocWrEffect_kept (p : Nat) (s : State) : kept (pelocWrEffect p s) = kept s := by
  simp [pelocWrEffect]

@[simp] theorem pelocTokenEffect_kept (p : Nat) (s : State) : kept (pelocTokenEffect p s) = kept s := by
  simp [pelocTokenEffect]

@[simp] theorem blockPushEffect_kept (p : Nat) (s : State) : kept (blockPushEffect p s) = kept s := by
  simp [blockPushEffect]

theorem nextPushed_kept (p : Nat) (q : PushOp) (s : State) (r : List Byte × List Nat × State) (h : nextPushed p q s = .ok r) : kept r.2.2 = kept s := by
  simp only [nextPushed] at h
  (repeat' split at h) <;> first | (cases h; done) | (cases h; simp; done)

@[simp] theorem stopPush_kept (p : Nat) (q : PushOp) (st : Nat) (s : State) : kept (stopPush p q st s) = kept s := by
  simp [stopPush]

@[simp] theorem barPush_kept (p : Nat) (q : PushOp) (x : Stop) (s : State) : kept (barPush p q x s) = kept s := by
  unfold barPush
  repeat' first | intro _ | simp | split

@[simp] theorem pushBlock_kept (p : Nat) (t : Nat) (q : PushOp) (bs : List Byte) (marks : List Nat) (s : State) : kept (pushBlock p t q bs marks s) = kept s := by
  simp [pushBlock]

@[simp] theorem pushNext_kept (p : Nat) (id : Nat) (s : State) : kept (pushNext p id s).2 = kept s := by
  simp only [pushNext]
  (repeat' split) <;> (try simp) <;> (try grind [→ nextPushed_kept])

theorem pushNext_keeps (p : Nat) (id : Nat) (s : State) (oo : _) (uu : State) (hh : pushNext p id s = (oo, uu)) : kept uu = kept s := (congrArg (fun r => kept r.2) hh).symm.trans (pushNext_kept p id s)

@[simp] theorem pushMore_kept (x0 : Nat) (x1 : Nat) (x2 : Nat) (s : State) : kept (pushMore x0 x1 x2 s) = kept s := by
  fun_induction pushMore x0 x1 x2 s <;> (try simp_all) <;> grind [→ pushNext_keeps]

@[simp] theorem pumpPushes_kept (p : Nat) (s : State) : kept (pumpPushes p s) = kept s := by
  unfold pumpPushes
  repeat' first | intro _ | simp | split | refine (kept_foldl _ (fun _ _ => ?_) _ _).trans ?_

@[simp] theorem linkPushCompleteEffect_kept (p : Nat) (s : State) : kept (linkPushCompleteEffect p s) = kept s := by
  unfold linkPushCompleteEffect
  repeat' first | intro _ | simp | split

@[simp] theorem readReturned_kept (k : NocPkt) (t : PelTx) (s : State) : kept (readReturned k t s) = kept s := by
  simp [readReturned]

@[simp] theorem pelocRdDataEffect_kept (p : Nat) (s : State) : kept (pelocRdDataEffect p s) = kept s := by
  unfold pelocRdDataEffect
  repeat' first | intro _ | simp | split

@[simp] theorem pageWritten_kept (k : NocPkt) (s : State) : kept (pageWritten k s) = kept s := by
  simp [pageWritten]

@[simp] theorem pelocAckEffect_kept (p : Nat) (s : State) : kept (pelocAckEffect p s) = kept s := by
  unfold pelocAckEffect
  repeat' first | intro _ | simp | split

@[simp] theorem pelocNackEffect_kept (p : Nat) (s : State) : kept (pelocNackEffect p s) = kept s := by
  unfold pelocNackEffect
  repeat' first | intro _ | simp | split

@[simp] theorem pelocTimeoutEffect_kept (p : Nat) (tag : Nat) (s : State) : kept (pelocTimeoutEffect p tag s) = kept s := by
  simp [pelocTimeoutEffect]

@[simp] theorem lmcReserveEffect_kept (p : Nat) (s : State) : kept (lmcReserveEffect p s) = kept s := by
  unfold lmcReserveEffect
  repeat' first | intro _ | simp | split | refine (kept_foldl _ (fun _ _ => ?_) _ _).trans ?_

@[simp] theorem lmcGrantEffect_kept (p : Nat) (s : State) : kept (lmcGrantEffect p s) = kept s := by
  unfold lmcGrantEffect
  repeat' first | intro _ | simp | split

@[simp] theorem refuseBarred_kept (p : Nat) (t : PelTx) (s : State) : kept (refuseBarred p t s) = kept s := by
  simp [refuseBarred]

@[simp] theorem lmcDataEffect_kept (p : Nat) (s : State) : kept (lmcDataEffect p s) = kept s := by
  unfold lmcDataEffect
  repeat' first | intro _ | simp | split

@[simp] theorem lmcResultEffect_kept (p : Nat) (s : State) : kept (lmcResultEffect p s) = kept s := by
  unfold lmcResultEffect
  repeat' first | intro _ | simp | split

@[simp] theorem lmcAbortEffect_kept (p : Nat) (s : State) : kept (lmcAbortEffect p s) = kept s := by
  unfold lmcAbortEffect
  repeat' first | intro _ | simp | split

@[simp] theorem lmcTimeoutEffect_kept (k : Nat) (s : State) : kept (lmcTimeoutEffect k s) = kept s := by
  unfold lmcTimeoutEffect
  repeat' first | intro _ | simp | split

/-! ### Machine/CmdLinks.lean -/

@[simp] theorem linkConfigApply_kept (x : Cmd) (s : State) : kept (linkConfigApply x s) = kept s := by
  simp [linkConfigApply]

@[simp] theorem linkConfigEffect_kept (c : Nat) (p : Packet) (s : State) : kept (linkConfigEffect c p s) = kept s := by
  simp [linkConfigEffect]

@[simp] theorem linkTrainStart_kept (x : Cmd) (ticket : Nat) (s : State) : kept (linkTrainStart x ticket s) = kept s := by
  simp [linkTrainStart]

@[simp] theorem linkTrainEffect_kept (c : Nat) (p : Packet) (s : State) : kept (linkTrainEffect c p s) = kept s := by
  simp [linkTrainEffect]

@[simp] theorem linkDownApply_kept (x : Cmd) (s : State) : kept (linkDownApply x s) = kept s := by
  simp [linkDownApply]

@[simp] theorem linkDownEffect_kept (c : Nat) (p : Packet) (s : State) : kept (linkDownEffect c p s) = kept s := by
  simp [linkDownEffect]

@[simp] theorem linkStatusEffect_kept (c : Nat) (p : Packet) (s : State) : kept (linkStatusEffect c p s) = kept s := by
  simp [linkStatusEffect]

@[simp] theorem linkRecalStart_kept (x : Cmd) (ticket : Nat) (s : State) : kept (linkRecalStart x ticket s) = kept s := by
  simp [linkRecalStart]

@[simp] theorem linkRecalEffect_kept (c : Nat) (p : Packet) (s : State) : kept (linkRecalEffect c p s) = kept s := by
  simp [linkRecalEffect]

@[simp] theorem channelBindApply_kept (x : Cmd) (s : State) : kept (channelBindApply x s) = kept s := by
  simp [channelBindApply]

@[simp] theorem channelBindEffect_kept (c : Nat) (p : Packet) (s : State) : kept (channelBindEffect c p s) = kept s := by
  simp [channelBindEffect]

@[simp] theorem channelReadEffect_kept (c : Nat) (p : Packet) (s : State) : kept (channelReadEffect c p s) = kept s := by
  simp [channelReadEffect]

@[simp] theorem mcGroupSetApply_kept (x : Cmd) (s : State) : kept (mcGroupSetApply x s) = kept s := by
  simp [mcGroupSetApply]

@[simp] theorem mcGroupSetEffect_kept (c : Nat) (p : Packet) (s : State) : kept (mcGroupSetEffect c p s) = kept s := by
  simp [mcGroupSetEffect]

@[simp] theorem linkPushStart_kept (x : Cmd) (ticket : Nat) (s : State) : kept (linkPushStart x ticket s) = kept s := by
  simp [linkPushStart]

@[simp] theorem linkPushEffect_kept (c : Nat) (p : Packet) (s : State) : kept (linkPushEffect c p s) = kept s := by
  simp [linkPushEffect]

@[simp] theorem linkMcastStart_kept (x : Cmd) (ticket : Nat) (s : State) : kept (linkMcastStart x ticket s) = kept s := by
  unfold linkMcastStart
  repeat' first | intro _ | simp | split | refine (kept_foldl _ (fun _ _ => ?_) _ _).trans ?_

@[simp] theorem linkMcastEffect_kept (c : Nat) (p : Packet) (s : State) : kept (linkMcastEffect c p s) = kept s := by
  simp [linkMcastEffect]

@[simp] theorem linkMcReportEffect_kept (c : Nat) (p : Packet) (s : State) : kept (linkMcReportEffect c p s) = kept s := by
  simp [linkMcReportEffect]

@[simp] theorem endPushes_kept (part : Nat) (st : Nat) (s : State) : kept (endPushes part st s) = kept s := by
  unfold endPushes
  repeat' first | intro _ | simp | split | refine (kept_foldl _ (fun _ _ => ?_) _ _).trans ?_

end Sys2Proof.Laws
end

