-- ==== Sys2Proof/Laws/KeptPorts.lean ====
section
/-! SUPPORT. Partitions, integrity, Owl, commits, domains, the host ports and their events keep what `kept` names. -/

namespace Sys2Proof.Laws

open Sys2Proof.Machine

/-! ### Machine/CmdPartitions.lean -/

@[simp] theorem clearCounts_kept (part : Nat) (s : State) : kept (clearCounts part s) = kept s := by
  unfold clearCounts
  refine kept_mk _ (hb := rfl) (hp := ?_) ..
  exact admin_fold (List.range 4) (fun o => { o with view := o.view.forget part }) (fun _ => rfl) _ 3

@[simp] theorem partCreateApply_kept (x : Cmd) (s : State) : kept (partCreateApply x s) = kept s := by
  simp [partCreateApply]

@[simp] theorem partCreateEffect_kept (c : Nat) (p : Packet) (s : State) : kept (partCreateEffect c p s) = kept s := by
  simp [partCreateEffect]

@[simp] theorem endLoads_kept (part : Nat) (st : Nat) (s : State) : kept (endLoads part st s) = kept s := by
  unfold endLoads
  repeat' first | intro _ | simp | split | refine (kept_foldl _ (fun _ _ => ?_) _ _).trans ?_

@[simp] theorem endFlushes_kept (part : Nat) (st : Nat) (s : State) : kept (endFlushes part st s) = kept s := by
  unfold endFlushes
  repeat' first | intro _ | simp | split | refine (kept_foldl _ (fun _ _ => ?_) _ _).trans ?_

@[simp] theorem breakBound_kept (part : Nat) (s : State) : kept (breakBound part s) = kept s := by
  simp [breakBound]

@[simp] theorem abortLandings_kept (part : Nat) (s : State) : kept (abortLandings part s) = kept s := by
  unfold abortLandings
  repeat' first | intro _ | simp | split | refine (kept_foldl _ (fun _ _ => ?_) _ _).trans ?_

@[simp] theorem stopPart_kept (part : Nat) (s : State) : kept (stopPart part s) = kept s := by
  simp [stopPart]

@[simp] theorem beginReset_kept (part : Nat) (ticket : Nat) (s : State) : kept (beginReset part ticket s) = kept s := by
  simp [beginReset]

@[simp] theorem endMaps_kept (mine : Nat → Window → Bool) (st : Nat) (s : State) : kept (endMaps mine st s) = kept s := by
  unfold endMaps
  repeat' first | intro _ | simp | split | refine (kept_foldl _ (fun _ _ => ?_) _ _).trans ?_

@[simp] theorem endSharers_kept (part : Nat) (s : State) : kept (endSharers part s) = kept s := by
  simp [endSharers]

@[simp] theorem beginDestroy_kept (part : Nat) (tickets : List Nat) (s : State) : kept (beginDestroy part tickets s) = kept s := by
  simp [beginDestroy]

@[simp] theorem joinPart_kept (part : Nat) (f : Part → Part) (s : State) : kept (joinPart part f s) = kept s := by
  simp [joinPart]

@[simp] theorem partResetStart_kept (x : Cmd) (ticket : Nat) (s : State) : kept (partResetStart x ticket s) = kept s := by
  unfold partResetStart
  repeat' first | intro _ | simp | split

@[simp] theorem partResetEffect_kept (c : Nat) (p : Packet) (s : State) : kept (partResetEffect c p s) = kept s := by
  simp [partResetEffect]

@[simp] theorem partDestroyStart_kept (x : Cmd) (ticket : Nat) (s : State) : kept (partDestroyStart x ticket s) = kept s := by
  unfold partDestroyStart
  repeat' first | intro _ | simp | split

@[simp] theorem partDestroyEffect_kept (c : Nat) (p : Packet) (s : State) : kept (partDestroyEffect c p s) = kept s := by
  simp [partDestroyEffect]

@[simp] theorem resetStreams_kept (part : Nat) (s : State) : kept (resetStreams part s) = kept s := by
  unfold resetStreams
  repeat' first | intro _ | simp | split

@[simp] theorem releaseSlots_kept (part : Nat) (s : State) : kept (releaseSlots part s) = kept s := by
  unfold releaseSlots
  repeat' first | intro _ | simp | split | refine (kept_foldl _ (fun _ _ => ?_) _ _).trans ?_

@[simp] theorem unloadAll_kept (part : Nat) (s : State) : kept (unloadAll part s) = kept s := by
  unfold unloadAll
  repeat' first | intro _ | simp | split | refine (kept_foldl _ (fun _ _ => ?_) _ _).trans ?_

@[simp] theorem reclaim_kept (part : Nat) (s : State) : kept (reclaim part s) = kept s := by
  simp [reclaim]

@[simp] theorem resetPart_kept (part : Nat) (s : State) : kept (resetPart part s) = kept s := by
  simp [resetPart]

@[simp] theorem postAll_kept (ts : List Nat) (st : Nat) (s : State) : kept (postAll ts st s) = kept s := by
  unfold postAll
  repeat' first | intro _ | simp | split | refine (kept_foldl _ (fun _ _ => ?_) _ _).trans ?_

@[simp] theorem partResetCompleteEffect_kept (part : Nat) (s : State) : kept (partResetCompleteEffect part s) = kept s := by
  simp [partResetCompleteEffect]

@[simp] theorem dropQp_kept (c : Nat) (s : State) : kept (dropQp c s) = kept s := by
  simp [dropQp]

@[simp] theorem dropWindows_kept (part : Nat) (s : State) : kept (dropWindows part s) = kept s := by
  simp [dropWindows]

@[simp] theorem giveUp_kept (part : Nat) (s : State) : kept (giveUp part s) = kept s := by
  unfold giveUp
  refine (kept_mk _ _ _ _ _ _ _ _ _ _ _ _ _ _ _ _ _ _ _ _ _ _ _ _ _ _ _ _ _ _ _ _ _ _ _ _ _ _ _ _ _ _ _ _ _ _ _ _ _ _ _ ?_ ?_).trans ?_
  · rfl
  · exact admin_fold (List.range 4) (fun o => { o with view := o.view.forget part }) (fun _ => rfl) _ 3
  · exact (dropWindows_kept _ _).trans (kept_foldl _ (fun _ _ => dropQp_kept _ _) _ _)

@[simp] theorem partDestroyCompleteEffect_kept (part : Nat) (s : State) : kept (partDestroyCompleteEffect part s) = kept s := by
  simp [partDestroyCompleteEffect]

@[simp] theorem partBindPortApply_kept (x : Cmd) (s : State) : kept (partBindPortApply x s) = kept s := by
  simp [partBindPortApply]

@[simp] theorem partBindPortEffect_kept (c : Nat) (p : Packet) (s : State) : kept (partBindPortEffect c p s) = kept s := by
  simp [partBindPortEffect]

@[simp] theorem zeroStore_kept (t : Nat) (s : State) : kept (zeroStore t s) = kept s := by
  simp [zeroStore]

@[simp] theorem addTile_kept (part : Nat) (t : Nat) (s : State) : kept (addTile part t s) = kept s := by
  simp [addTile]

@[simp] theorem partTilesApply_kept (x : Cmd) (s : State) : kept (partTilesApply x s) = kept s := by
  unfold partTilesApply
  repeat' first | intro _ | simp | split | refine (kept_foldl _ (fun _ _ => ?_) _ _).trans ?_

@[simp] theorem partTilesEffect_kept (c : Nat) (p : Packet) (s : State) : kept (partTilesEffect c p s) = kept s := by
  simp [partTilesEffect]

@[simp] theorem partReadEffect_kept (c : Nat) (p : Packet) (s : State) : kept (partReadEffect c p s) = kept s := by
  simp [partReadEffect]

@[simp] theorem qpCreateApply_kept (x : Cmd) (s : State) : kept (qpCreateApply x s) = kept s := by
  simp [qpCreateApply]

@[simp] theorem qpCreateEffect_kept (c : Nat) (p : Packet) (s : State) : kept (qpCreateEffect c p s) = kept s := by
  simp [qpCreateEffect]

@[simp] theorem qpDeleteEffect_kept (c : Nat) (p : Packet) (s : State) : kept (qpDeleteEffect c p s) = kept s := by
  simp [qpDeleteEffect]

/-! ### Machine/CmdIntegrity.lean -/

@[simp] theorem onInteg_kept (f : Integ → Integ) (s : State) : kept (onInteg f s) = kept s := by
  simp [onInteg]

@[simp] theorem checkModeSetApply_kept (x : Cmd) (s : State) : kept (checkModeSetApply x s) = kept s := by
  simp [checkModeSetApply]

@[simp] theorem checkModeSetEffect_kept (c : Nat) (p : Packet) (s : State) : kept (checkModeSetEffect c p s) = kept s := by
  simp [checkModeSetEffect]

@[simp] theorem ledgerReadEffect_kept (c : Nat) (p : Packet) (s : State) : kept (ledgerReadEffect c p s) = kept s := by
  simp [ledgerReadEffect]

@[simp] theorem signatureReadAct_kept (x : Cmd) (s : State) : kept (signatureReadAct x s) = kept s := by
  simp [signatureReadAct]

@[simp] theorem signatureReadEffect_kept (c : Nat) (p : Packet) (s : State) : kept (signatureReadEffect c p s) = kept s := by
  simp [signatureReadEffect]

@[simp] theorem startKernel_kept (t : Nat) (k : KernelRun) (s : State) : kept (startKernel t k s) = kept s := by
  simp [startKernel]

@[simp] theorem kakRunStart_kept (x : Cmd) (tk : Nat) (s : State) : kept (kakRunStart x tk s) = kept s := by
  simp [kakRunStart]

@[simp] theorem kakRunEffect_kept (c : Nat) (p : Packet) (s : State) : kept (kakRunEffect c p s) = kept s := by
  simp [kakRunEffect]

@[simp] theorem endWork_kept (s : State) : kept (endWork s) = kept s := by
  unfold endWork
  repeat' first | intro _ | simp | split | refine (kept_foldl _ (fun _ _ => ?_) _ _).trans ?_

@[simp] theorem drainOver_kept (s : State) : kept (drainOver s) = kept s := by
  unfold drainOver
  repeat' first | intro _ | simp | split | refine (kept_foldl _ (fun _ _ => ?_) _ _).trans ?_

@[simp] theorem drainNow_kept (s : State) : kept (drainNow s) = kept s := by
  simp [drainNow]

@[simp] theorem drainDeadlineApply_kept (x : Cmd) (s : State) : kept (drainDeadlineApply x s) = kept s := by
  simp [drainDeadlineApply]

@[simp] theorem drainDeadlineEffect_kept (c : Nat) (p : Packet) (s : State) : kept (drainDeadlineEffect c p s) = kept s := by
  simp [drainDeadlineEffect]

@[simp] theorem drainStartStart_kept (x : Cmd) (tk : Nat) (s : State) : kept (drainStartStart x tk s) = kept s := by
  simp [drainStartStart]

@[simp] theorem drainStartEffect_kept (c : Nat) (p : Packet) (s : State) : kept (drainStartEffect c p s) = kept s := by
  simp [drainStartEffect]

@[simp] theorem drainCancelApply_kept (z0 : Cmd) (s : State) : kept (drainCancelApply z0 s) = kept s := by
  unfold drainCancelApply
  repeat' first | intro _ | simp | split

@[simp] theorem drainCancelEffect_kept (c : Nat) (p : Packet) (s : State) : kept (drainCancelEffect c p s) = kept s := by
  simp [drainCancelEffect]

@[simp] theorem errInjectApply_kept (x : Cmd) (s : State) : kept (errInjectApply x s) = kept s := by
  simp [errInjectApply]

@[simp] theorem errInjectEffect_kept (c : Nat) (p : Packet) (s : State) : kept (errInjectEffect c p s) = kept s := by
  simp [errInjectEffect]

@[simp] theorem selftestConfigApply_kept (x : Cmd) (s : State) : kept (selftestConfigApply x s) = kept s := by
  simp [selftestConfigApply]

@[simp] theorem selftestConfigEffect_kept (c : Nat) (p : Packet) (s : State) : kept (selftestConfigEffect c p s) = kept s := by
  simp [selftestConfigEffect]

/-! ### Machine/CmdOwl.lean -/

@[simp] theorem probeSetApply_kept (x : Cmd) (s : State) : kept (probeSetApply x s) = kept s := by
  simp [probeSetApply]

@[simp] theorem probeSetEffect_kept (c : Nat) (p : Packet) (s : State) : kept (probeSetEffect c p s) = kept s := by
  simp [probeSetEffect]

@[simp] theorem probeReadEffect_kept (c : Nat) (p : Packet) (s : State) : kept (probeReadEffect c p s) = kept s := by
  simp [probeReadEffect]

@[simp] theorem traceConfigApply_kept (x : Cmd) (s : State) : kept (traceConfigApply x s) = kept s := by
  simp [traceConfigApply]

@[simp] theorem traceConfigEffect_kept (c : Nat) (p : Packet) (s : State) : kept (traceConfigEffect c p s) = kept s := by
  simp [traceConfigEffect]

@[simp] theorem traceStart_kept (s : State) : kept (traceStart s) = kept s := by
  simp [traceStart]

@[simp] theorem traceStop_kept (s : State) : kept (traceStop s) = kept s := by
  simp [traceStop]

@[simp] theorem traceControlApply_kept (x : Cmd) (s : State) : kept (traceControlApply x s) = kept s := by
  unfold traceControlApply
  repeat' first | intro _ | simp | split

@[simp] theorem traceControlEffect_kept (c : Nat) (p : Packet) (s : State) : kept (traceControlEffect c p s) = kept s := by
  simp [traceControlEffect]

@[simp] theorem traceStatusEffect_kept (c : Nat) (p : Packet) (s : State) : kept (traceStatusEffect c p s) = kept s := by
  simp [traceStatusEffect]

@[simp] theorem owlEcc_kept (f : EccFinding) (s : State) : kept (owlEcc f s) = kept s := by
  unfold owlEcc
  repeat' first | intro _ | simp | split

@[simp] theorem owlGroupTimerEffect_kept (found : EccFinding) (s : State) : kept (owlGroupTimerEffect found s) = kept s := by
  simp [owlGroupTimerEffect]

@[simp] theorem timebaseBit31Effect_kept (s : State) : kept (timebaseBit31Effect s) = kept s := by
  simp [timebaseBit31Effect]

@[simp] theorem traceStopCompleteEffect_kept (s : State) : kept (traceStopCompleteEffect s) = kept s := by
  simp [traceStopCompleteEffect]

/-! ### Machine/CmdCommit.lean -/

@[simp] theorem stagedApply_kept (op : Nat) (x0 : Cmd) (s : State) : kept (stagedApply op x0 s) = kept s := by
  unfold stagedApply
  repeat' first | intro _ | simp | split

theorem commitFrom_kept (n : Nat) (xs : List Cmd) (s t : State) (h : commitFrom n xs s = .ok t) : kept t = kept s := by
  induction xs generalizing n s with
  | nil => cases h; rfl
  | cons x r ih =>
    simp only [commitFrom] at h
    split at h
    · cases h
    · exact (ih _ _ h).trans (stagedApply_kept _ _ _)

@[simp] theorem seqCommitApply_kept (x : Cmd) (s : State) : kept (seqCommitApply x s).2 = kept s := by
  unfold seqCommitApply
  split
  · rename_i h
    simp [commitFrom_kept _ _ _ _ h]
  · exact (kept_foldl _ (fun _ _ => bump_kept _ _ _) _ _).trans (by simp)

@[simp] theorem seqCommitEffect_kept (c : Nat) (p : Packet) (s : State) : kept (seqCommitEffect c p s) = kept s := by
  simp [seqCommitEffect]

/-! ### Machine/CmdDomains.lean -/

@[simp] theorem onDom_kept (d : Nat) (f : Domain → Domain) (s : State) : kept (onDom d f s) = kept s := by
  simp [onDom]

@[simp] theorem domainOffStart_kept (x : Cmd) (tk : Nat) (s : State) : kept (domainOffStart x tk s) = kept s := by
  simp [domainOffStart]

@[simp] theorem domainOffEffect_kept (c : Nat) (p : Packet) (s : State) : kept (domainOffEffect c p s) = kept s := by
  simp [domainOffEffect]

@[simp] theorem domainOnAct_kept (x : Cmd) (s : State) : kept (domainOnAct x s) = kept s := by
  simp [domainOnAct]

@[simp] theorem domainOnEffect_kept (c : Nat) (p : Packet) (s : State) : kept (domainOnEffect c p s) = kept s := by
  simp [domainOnEffect]

@[simp] theorem domainStatusEffect_kept (c : Nat) (p : Packet) (s : State) : kept (domainStatusEffect c p s) = kept s := by
  simp [domainStatusEffect]

@[simp] theorem suspendLoop_kept (q : Nat) (s : State) : kept (suspendLoop q s) = kept s := by
  simp [suspendLoop]

@[simp] theorem domainDrainedEffect_kept (d : Nat) (s : State) : kept (domainDrainedEffect d s) = kept s := by
  unfold domainDrainedEffect
  repeat' first | intro _ | simp | split

@[simp] theorem wakeTile_kept (t : Nat) (s : State) : kept (wakeTile t s) = kept s := by
  simp [wakeTile]

@[simp] theorem resumeLoop_kept (q : Nat) (s : State) : kept (resumeLoop q s) = kept s := by
  simp [resumeLoop]

@[simp] theorem applyWaiting_kept (d : Nat) (s : State) : kept (applyWaiting d s) = kept s := by
  unfold applyWaiting
  repeat' first | intro _ | simp | split | refine (kept_foldl _ (fun _ _ => ?_) _ _).trans ?_

@[simp] theorem wakeEndpoints_kept (d : Nat) (s : State) : kept (wakeEndpoints d s) = kept s := by
  unfold wakeEndpoints
  repeat' first | intro _ | simp | split | refine (kept_foldl _ (fun _ _ => ?_) _ _).trans ?_

@[simp] theorem domainWakeEffect_kept (d : Nat) (s : State) : kept (domainWakeEffect d s) = kept s := by
  unfold domainWakeEffect
  repeat' first | intro _ | simp | split | refine (kept_foldl _ (fun _ _ => ?_) _ _).trans ?_

/-! ### Machine/CmdFirmware.lean -/

@[simp] theorem raisePatch_kept (s : State) : kept (raisePatch s) = kept s := by
  simp [raisePatch]

@[simp] theorem fwInfoEffect_kept (c : Nat) (p : Packet) (s : State) : kept (fwInfoEffect c p s) = kept s := by
  simp [fwInfoEffect]

/-! ### Machine/HostPort.lean -/

@[simp] theorem onFn_kept (fn : Nat) (f : PcieFn → PcieFn) (s : State) : kept (onFn fn f s) = kept s := by
  simp [onFn]

theorem fnUp_lt {s : State} {fn : Nat} (h : fnUp s fn = true) : fn < 2 := by
  simp only [fnUp, Bool.and_eq_true, decide_eq_true_eq] at h
  exact h.1.1.1

@[simp] theorem sentUr_kept (fn : Nat) (s : State) : kept (sentUr fn s) = kept s := by
  simp [sentUr]

@[simp] theorem barWrite_kept (fn : Nat) (f : State → State) (s : State) (h : ∀ t, kept (f t) = kept t) : kept (barWrite fn f s) = kept s := by
  unfold barWrite
  split
  · rfl
  · split
    · simp
    · exact h _

@[simp] theorem complete_kept (c : CplOut) (s : State) : kept (complete c s) = kept s := by
  simp [complete]

@[simp] theorem writeEn_kept (fn : Nat) (en : Bool) (s : State) : kept (writeEn fn en s) = kept s := by
  simp [writeEn]

@[simp] theorem qp0EnableEffect_kept (fn : Nat) (en : Bool) (s : State) : kept (qp0EnableEffect fn en s) = kept s := by
  simp [qp0EnableEffect]

@[simp] theorem writeTail_kept (fn : Nat) (qp : Nat) (v : Nat) (s : State) : kept (writeTail fn qp v s) = kept s := by
  simp [writeTail]

@[simp] theorem sqDoorbellEffect_kept (fn : Nat) (qp : Nat) (v : Nat) (s : State) : kept (sqDoorbellEffect fn qp v s) = kept s := by
  simp [sqDoorbellEffect]

@[simp] theorem writeHead_kept (fn : Nat) (qp : Nat) (v : Nat) (s : State) : kept (writeHead fn qp v s) = kept s := by
  simp [writeHead]

@[simp] theorem cqDoorbellEffect_kept (fn : Nat) (qp : Nat) (v : Nat) (s : State) : kept (cqDoorbellEffect fn qp v s) = kept s := by
  simp [cqDoorbellEffect]

@[simp] theorem fetchTurned_kept (c : Nat) (s : State) : kept (fetchTurned c s) = kept s := by
  simp [fetchTurned]

@[simp] theorem sqEntryFetchEffect_kept (fn : Nat) (qp : Nat) (s : State) : kept (sqEntryFetchEffect fn qp s) = kept s := by
  simp [sqEntryFetchEffect]

@[simp] theorem readEnded_kept (r : HostRead) (data : Option (List Byte)) (s : State) : kept (readEnded r data s) = kept s := by
  unfold readEnded
  repeat' first | intro _ | simp | split

@[simp] theorem accessEnded_kept (r : HostRead) (rs : List HostRead) (s : State) : kept (accessEnded r rs s) = kept s := by
  unfold accessEnded
  repeat' first | intro _ | simp | split

@[simp] theorem requestEnded_kept (r : HostRead) (res : Option (List Byte × Bool)) (s : State) : kept (requestEnded r res s) = kept s := by
  simp [requestEnded]

@[simp] theorem hostCompletionEffect_kept (tag : Nat) (k : HostCpl) (s : State) : kept (hostCompletionEffect tag k s) = kept s := by
  unfold hostCompletionEffect
  repeat' first | intro _ | simp | split

@[simp] theorem completionTimeoutEffect_kept (tag : Nat) (s : State) : kept (completionTimeoutEffect tag s) = kept s := by
  unfold completionTimeoutEffect
  repeat' first | intro _ | simp | split

@[simp] theorem writeSeg_kept (fn : Nat) (seg : Nat) (d : Nat) (v : Dword) (s : State) : kept (writeSeg fn seg d v s) = kept s := by
  unfold writeSeg
  repeat' first | intro _ | simp | split

@[simp] theorem bar2SegmentWriteEffect_kept (fn : Nat) (seg : Nat) (d : Nat) (v : Dword) (s : State) : kept (bar2SegmentWriteEffect fn seg d v s) = kept s := by
  simp [bar2SegmentWriteEffect]

@[simp] theorem segFault_kept (fn : Nat) (off : Nat) (s : State) : kept (segFault fn off s) = kept s := by
  simp [segFault]

@[simp] theorem aperturePut_kept (fn : Nat) (off : Nat) (data : List Byte) (ep : Bool) (s : State) : kept (aperturePut fn off data ep s) = kept s := by
  simp [aperturePut]

@[simp] theorem countEp_kept (fn : Nat) (ep : Bool) (s : State) : kept (countEp fn ep s) = kept s := by
  simp [countEp]

@[simp] theorem bar2WriteEffect_kept (fn : Nat) (off : Nat) (data : List Byte) (ep : Bool) (s : State) : kept (bar2WriteEffect fn off data ep s) = kept s := by
  simp [bar2WriteEffect]

@[simp] theorem apertureFail_kept (fn : Nat) (off : Nat) (n : Nat) (s : State) : kept (apertureFail fn off n s) = kept s := by
  simp [apertureFail]

@[simp] theorem apertureGet_kept (fn : Nat) (off : Nat) (n : Nat) (s : State) : kept (apertureGet fn off n s) = kept s := by
  simp [apertureGet]

@[simp] theorem bar2ReadEffect_kept (fn : Nat) (off : Nat) (n : Nat) (s : State) : kept (bar2ReadEffect fn off n s) = kept s := by
  simp [bar2ReadEffect]

@[simp] theorem writeReg_kept (fn : Nat) (off : Nat) (v : Dword) (s : State) : kept (writeReg fn off v s) = kept s := by
  unfold writeReg
  repeat' first | intro _ | simp | split

@[simp] theorem registerWriteEffect_kept (fn : Nat) (off : Nat) (size : Nat) (v : Dword) (ep : Bool) (s : State) : kept (registerWriteEffect fn off size v ep s) = kept s := by
  simp [registerWriteEffect]

@[simp] theorem registerReadEffect_kept (fn : Nat) (off : Nat) (size : Nat) (s : State) : kept (registerReadEffect fn off size s) = kept s := by
  simp [registerReadEffect]

@[simp] theorem repeatReply_kept (p : Nat) (s : State) : kept (repeatReply p s) = kept s := by
  simp [repeatReply]

@[simp] theorem takeGo_kept (p : Nat) (s : State) : kept (takeGo p s) = kept s := by
  simp [takeGo]

@[simp] theorem writeGo_kept (p : Nat) (s : State) : kept (writeGo p s) = kept s := by
  simp [writeGo]

@[simp] theorem mailboxGoEffect_kept (p : Nat) (s : State) : kept (mailboxGoEffect p s) = kept s := by
  simp [mailboxGoEffect]

@[simp] theorem portResetCompleteEffect_kept (p : Nat) (s : State) : kept (portResetCompleteEffect p s) = kept s := by
  simp [portResetCompleteEffect]

@[simp] theorem failSpills_kept (fn : Nat) (s : State) : kept (failSpills fn s) = kept s := by
  unfold failSpills
  repeat' first | intro _ | simp | split | refine (kept_foldl _ (fun _ _ => ?_) _ _).trans ?_

theorem functionReset_kept (fn : Nat) (hp : fn < 2) (s : State) : kept (functionReset fn s) = kept s :=
  (portReset_kept fn hp _).trans (by simp)

theorem configPut_kept (fn : Nat) (hp : fn < 2) (reg : Nat) (v : Dword) (s : State) : kept (configPut fn reg v s) = kept s := by
  unfold configPut
  dsimp only
  split
  · simp [functionReset_kept fn hp]
  · simp

@[simp] theorem configRequestEffect_kept (fn : Nat) (reg : Nat) (write : Option Dword) (s : State) :
    kept (configRequestEffect fn reg write s) = kept s := by
  unfold configRequestEffect
  split
  · rfl
  · rename_i h
    have hp := fnUp_lt (by simpa using h)
    split <;> simp [configPut_kept fn hp]

@[simp] theorem powerStateChangeEffect_kept (fn : Nat) (d3 : Bool) (s : State) : kept (powerStateChangeEffect fn d3 s) = kept s := by
  simp [powerStateChangeEffect]

@[simp] theorem busMasterDisableEffect_kept (fn : Nat) (s : State) : kept (busMasterDisableEffect fn s) = kept s := by
  simp [busMasterDisableEffect]

@[simp] theorem functionLevelResetEffect_kept (fn : Nat) (s : State) : kept (functionLevelResetEffect fn s) = kept s := by
  unfold functionLevelResetEffect
  split
  · rename_i h
    exact functionReset_kept fn (fnUp_lt h) _
  · rfl

@[simp] theorem pcieLinkDownEffect_kept (fn : Nat) (s : State) : kept (pcieLinkDownEffect fn s) = kept s := by
  unfold pcieLinkDownEffect
  split
  · rename_i h
    exact (portReset_kept fn (fnUp_lt h) _).trans (by simp)
  · rfl

@[simp] theorem pcieLinkUpEffect_kept (fn : Nat) (s : State) : kept (pcieLinkUpEffect fn s) = kept s := by
  simp [pcieLinkUpEffect]

/-! ### Machine/IntegEv.lean -/

@[simp] theorem kernelStartEffect_kept (t : Nat) (k : Nat) (s : State) : kept (kernelStartEffect t k s) = kept s := by
  simp [kernelStartEffect]

@[simp] theorem runConfirm_kept (i : Nat) (s : State) : kept (runConfirm i s) = kept s := by
  unfold runConfirm
  repeat' first | intro _ | simp | split

@[simp] theorem confirmationStartEffect_kept (t : Nat) (s : State) : kept (confirmationStartEffect t s) = kept s := by
  unfold confirmationStartEffect
  repeat' first | intro _ | simp | split

@[simp] theorem kakRecords_kept (l : List (Nat × Nat × Dword)) (injected : Bool) (us : List Nat) (s : State) : kept (kakRecords l injected us s) = kept s := by
  unfold kakRecords
  repeat' first | intro _ | simp | split | refine (kept_foldl _ (fun _ _ => ?_) _ _).trans ?_

@[simp] theorem judgeConfirm_kept (c : Confirm) (twice : List (Nat × Nat × Dword)) (once : Option (Nat × Nat × Dword)) (s : State) : kept (judgeConfirm c twice once s) = kept s := by
  unfold judgeConfirm
  repeat' first | intro _ | simp | split

@[simp] theorem endConfirm_kept (c : Confirm) (s : State) : kept (endConfirm c s) = kept s := by
  unfold endConfirm
  repeat' first | intro _ | simp | split

@[simp] theorem confirmKernel_kept (t : Nat) (k : KernelRun) (e : KernelEnd) (s : State) : kept (confirmKernel t k e s) = kept s := by
  unfold confirmKernel
  repeat' first | intro _ | simp | split

@[simp] theorem postKernel_kept (tk : Nat) (pass : Bool) (crc : Dword) (k : Nat) (s : State) : kept (postKernel tk pass crc k s) = kept s := by
  simp [postKernel]

@[simp] theorem judgeKernel_kept (t : Nat) (k : KernelRun) (e : KernelEnd) (s : State) : kept (judgeKernel t k e s) = kept s := by
  simp [judgeKernel]

@[simp] theorem endKernel_kept (t : Nat) (k : KernelRun) (e : KernelEnd) (s : State) : kept (endKernel t k e s) = kept s := by
  unfold endKernel
  repeat' first | intro _ | simp | split

@[simp] theorem kernelCompleteEffect_kept (t : Nat) (crc : Dword) (s : State) : kept (kernelCompleteEffect t crc s) = kept s := by
  unfold kernelCompleteEffect
  repeat' first | intro _ | simp | split

@[simp] theorem ledgerWriteEffect_kept (verified : Bool) (cp : EccFinding) (ledger : EccFinding) (s : State) : kept (ledgerWriteEffect verified cp ledger s) = kept s := by
  simp [ledgerWriteEffect]

@[simp] theorem drainDeadlineExpiryEffect_kept (s : State) : kept (drainDeadlineExpiryEffect s) = kept s := by
  simp [drainDeadlineExpiryEffect]

@[simp] theorem drainCompleteEffect_kept (s0 : State) : kept (drainCompleteEffect s0) = kept s0 := by
  unfold drainCompleteEffect
  repeat' first | intro _ | simp | split

/-! ### Machine/MemEv.lean -/

@[simp] theorem windowMapCompleteEffect_kept (part : Nat) (win : Nat) (s : State) : kept (windowMapCompleteEffect part win s) = kept s := by
  unfold windowMapCompleteEffect
  repeat' first | intro _ | simp | split | refine (kept_foldl _ (fun _ _ => ?_) _ _).trans ?_

@[simp] theorem scrubBurstEffect_kept (unit : Nat) (a : Nat) (found : EccFinding) (last : Bool) (s : State) : kept (scrubBurstEffect unit a found last s) = kept s := by
  simp [scrubBurstEffect]

@[simp] theorem hbmRefreshEffect_kept (_stack : Nat) (s : State) : kept (hbmRefreshEffect _stack s) = kept s := by
  simp [hbmRefreshEffect]

@[simp] theorem hbmCalibrationEffect_kept (_stack : Nat) (_channel : Nat) (s : State) : kept (hbmCalibrationEffect _stack _channel s) = kept s := by
  simp [hbmCalibrationEffect]

/-! ### Machine/PortEv.lean -/

@[simp] theorem mbxWrite_kept (p : Nat) (off : Nat) (data : List Byte) (go : Bool) (s : State) : kept (mbxWrite p off data go s) = kept s := by
  simp [mbxWrite]

@[simp] theorem p2Discard_kept (s : State) : kept (p2Discard s) = kept s := by
  simp [p2Discard]

@[simp] theorem smbusTimeoutEffect_kept (s : State) : kept (smbusTimeoutEffect s) = kept s := by
  simp [smbusTimeoutEffect]

end Sys2Proof.Laws
end

