-- ==== Sys2Proof/Laws/Memory.lean ====
section
/-! SUPPORT. Device memory: every operation on it keeps the canonical form, and what bytes read as after bytes are put. -/

namespace Sys2Proof.Laws

open Sys2Proof.Machine

/-- Putting bytes keeps the form. -/
theorem putBytes_wf (m : List Host.Cell) (a : Nat) (data : List Byte) (h : Memory.wf m) : Memory.wf (putBytes m a data) := by
  induction data generalizing m a with
  | nil => exact h
  | cons b r ih => exact ih _ _ (twf_tset _ _ _ h)

/-- Bytes put from `a` on leave every byte outside. -/
theorem tget_putBytes_outside (m : List Host.Cell) (a : Nat) (data : List Byte) (k : Nat) (h : k < a ∨ a + data.length ≤ k) :
    tget (α := Byte) (putBytes m a data) k = tget (α := Byte) m k := by
  induction data generalizing m a with
  | nil => rfl
  | cons b r ih =>
    simp only [List.length_cons] at h
    rw [putBytes, ih _ _ (by omega), tget_tset_of_ne _ _ (by omega)]

/-- Bytes put from `a` on stand there. -/
theorem tget_putBytes_inside (m : List Host.Cell) (a : Nat) (data : List Byte) (i : Nat) (h : i < data.length) :
    tget (α := Byte) (putBytes m a data) (a + i) = data[i] := by
  induction data generalizing m a i with
  | nil => simp at h
  | cons b r ih =>
    cases i with
    | zero => rw [putBytes, tget_putBytes_outside _ _ _ _ (by omega)]; simp
    | succ j =>
      have := ih (tset m a b) (a + 1) j (by simpa using h)
      rw [putBytes, show a + (j + 1) = a + 1 + j by omega, this]
      simp

/-- A write keeps the form. -/
theorem memPut_wf (a : Nat) (data : List Byte) (s : State) (h : Memory.wf s.mem) : Memory.wf (memPut a data s).mem := putBytes_wf _ _ _ h

/-- So does one that marks sectors. -/
theorem memPutBad_wf (a : Nat) (data : List Byte) (bad : List Nat) (s : State) (h : Memory.wf s.mem) :
    Memory.wf (memPutBad a data bad s).mem := putBytes_wf _ _ _ h

/-- And clearing a range. -/
theorem memZero_wf (a n : Nat) (s : State) (h : Memory.wf s.mem) : Memory.wf (memZero a n s).mem :=
  twf_tfilter (α := Byte) (fun k _ => decide (k < a) || decide (a + n ≤ k)) s.mem h

/-- The bytes of a range, read one by one. -/
theorem memBytes_length (s : State) (a n : Nat) : (memBytes s a n).length = n := by
  induction n generalizing a with
  | zero => rfl
  | succ n ih => simp [memBytes, ih]

theorem memBytes_getElem (s : State) (a n i : Nat) (h : i < (memBytes s a n).length) : (memBytes s a n)[i] = memByte s (a + i) := by
  induction n generalizing a i with
  | zero => simp [memBytes] at h
  | succ n ih =>
    cases i with
    | zero => rfl
    | succ j =>
      simp only [memBytes, List.getElem_cons_succ]
      rw [ih]
      congr 1
      omega

end Sys2Proof.Laws
end

