-- ==== Sys2Proof/Laws/Network.lean ====
section
/-! SUPPORT. What the carrying of a packet to its endpoint can do, said once (R244, R245): the statements about the on-chip network
cite these in place of unfolding it. -/

namespace Sys2Proof.Laws

open Sys2Proof.Machine Sys2Proof.Safety

/-- The packet that arrives is the packet that was sent. -/
theorem arrive_k (k : NocPkt) (d : Damage) (s : State) : (arrive k d s).1.k = k := by
  unfold arrive
  split
  · rfl
  · split
    · rfl
    · dsimp only
      split <;> rfl

/-- An endpoint takes an undamaged packet as it is, each poisoned sector marked once. -/
theorem receive_whole {r : Nat} {a : Arrived} {act : NocPkt → State → State} {s : State} (h1 : a.real.header = false)
    (h2 : a.forced.header = false) (h3 : a.real.sectors = []) (h4 : a.forced.sectors = []) :
    receive r a act s = act (asTaken a.k) s := by
  simp [receive, asTaken, countParity, h1, h2, h3, h4]

/-- A packet whose header is damaged is recorded and discarded. -/
theorem receive_damaged {r : Nat} {a : Arrived} {act : NocPkt → State → State} {s : State}
    (h : a.real.header = true ∨ a.forced.header = true) :
    receive r a act s = dropPkt r (parityRec a.k r 0 (!a.real.header) s) := by
  rcases h with h | h <;> simp [receive, h]

/-- A unicast packet that arrives whole acts at its endpoint. -/
theorem unicast_whole {t v : Nat} {k : NocPkt} {d : Damage} {act : NocPkt → State → State} {s : State} (h : wholeAt s t v k d = true) :
    unicast t k d act s = act (asTaken k) (landed k d s) := by
  simp only [wholeAt, Bool.and_eq_true, beq_iff_eq, Bool.not_eq_true', decide_eq_true_eq, List.isEmpty_iff] at h
  obtain ⟨⟨⟨⟨⟨⟨⟨⟨⟨ht, -⟩, hb⟩, hc⟩, hd⟩, hl⟩, h1⟩, h2⟩, h3⟩, h4⟩ := h
  have hd' : ¬99 < k.dest := by omega
  simp [unicast, ht, hc, hb, hd', hl, receive_whole h1 h2 h3 h4, arrive_k, landed]

/-- A multicast that arrives whole acts at each tile of its mask in turn. -/
theorem multicast_mask {t : Nat} {k : NocPkt} {d : Damage} {act : Nat → NocPkt → State → State} {s : State}
    (h : wholeAtMask s t k d = true) :
    multicast t k d act s = (maskTiles k.mask).foldl (fun u i => act i (asTaken k) u) (landed k d s) := by
  simp only [wholeAtMask, Bool.and_eq_true, beq_iff_eq, Bool.not_eq_true', List.isEmpty_iff] at h
  obtain ⟨⟨⟨⟨⟨⟨⟨ht, -⟩, hb⟩, hc⟩, h1⟩, h2⟩, h3⟩, h4⟩ := h
  simp [multicast, ht, hc, hb, receive_whole h1 h2 h3 h4, arrive_k, landed]

/-- A multicast that arrives whole at its one tile acts there. -/
theorem multicast_tile {t i : Nat} {k : NocPkt} {d : Damage} {act : Nat → NocPkt → State → State} {s : State}
    (h : wholeAtTile s t k d i = true) : multicast t k d act s = act i (asTaken k) (landed k d s) := by
  simp only [wholeAtTile, Bool.and_eq_true, beq_iff_eq, Bool.not_eq_true', List.isEmpty_iff] at h
  obtain ⟨⟨⟨⟨⟨⟨⟨⟨ht, -⟩, hb⟩, hc⟩, hm⟩, h1⟩, h2⟩, h3⟩, h4⟩ := h
  simp [multicast, ht, hc, hb, hm, receive_whole h1 h2 h3 h4, arrive_k, landed]

end Sys2Proof.Laws
end

