-- ==== Sys2Proof/Laws/Protocol.lean ====
section
/-! SUPPORT. What the shared operations of the command protocol can do, said once: the handling of a command (`serve`), pending
work (`pend`, `takeSlot`, `post`), and counting (`bumpBy`). -/

namespace Sys2Proof.Laws

open Sys2Proof.Machine

/-! ### serve (R330, R357, R408) -/

/-- A command that does not stand next on its carrier changes nothing. -/
theorem serve_idle {s : State} {op c : Nat} {p : Packet} (h : ready s op c p = none) (chk : State → Cmd → Verdict)
    (act : Cmd → State → State) : serve op c p chk act s = s := by
  simp [serve, h]

/-- A command that fails one of checks 6 to 9 replies its status. -/
theorem serve_gate {s : State} {op c : Nat} {p : Packet} {x : Cmd} (h : ready s op c p = some x) (hg : gateStatus (turned c s) x ≠ 0)
    (chk : State → Cmd → Verdict) (act : Cmd → State → State) :
    serve op c p chk act s = finish x { status := gateStatus (turned c s) x } (turned c s) := by
  simp [serve, h, hg]

/-- A command whose parameter block has not been asked for asks for it, and its turn is over. -/
theorem serve_asks {s : State} {op c : Nat} {p : Packet} {x : Cmd} (h : ready s op c p = some x) (hg : gateStatus (turned c s) x = 0)
    (hb : needsBlock x = true) (chk : State → Cmd → Verdict) (act : Cmd → State → State) :
    serve op c p chk act s = askBlock x (turned c s) := by
  simp [serve, h, hg, hb]

/-- The parts of "reached". -/
theorem reached_iff {s : State} {op c : Nat} {p : Packet} {x : Cmd} :
    Safety.reached s op c p x = true ↔
      ready s op c p = some x ∧ gateStatus (turned c s) x = 0 ∧ needsBlock x = false ∧ pendDoomed (turned c s) x = false ∧
        paramsClear x = true := by
  simp [Safety.reached, and_assoc]

/-- The parts of "served". -/
theorem served_iff {s : State} {op c : Nat} {p : Packet} {x : Cmd} {chk : State → Cmd → Verdict} :
    Safety.served s op c p x chk = true ↔
      Safety.reached s op c p x = true ∧ (chk (turned c s) x).status = 0 ∧ staging (turned c s) x = false := by
  simp [Safety.served, and_assoc]

/-- A command that is reached and fails its own checks is refused with their verdict. -/
theorem serve_refused {s : State} {op c : Nat} {p : Packet} {x : Cmd} {chk : State → Cmd → Verdict}
    (h : Safety.reached s op c p x = true) (hv : (chk (turned c s) x).status ≠ 0) (act : Cmd → State → State) :
    serve op c p chk act s = refuse x (chk (turned c s) x) (turned c s) := by
  obtain ⟨h1, h2, hb, h3, h4⟩ := reached_iff.mp h
  simp [serve, judgeCmd, h1, h2, hb, h3, check10, h4, hv]

/-- A command that is reached, passes its own checks and is to be staged joins its sequence. -/
theorem serve_staged {s : State} {op c : Nat} {p : Packet} {x : Cmd} {chk : State → Cmd → Verdict}
    (h : Safety.reached s op c p x = true) (hv : (chk (turned c s) x).status = 0) (hs : staging (turned c s) x = true)
    (act : Cmd → State → State) : serve op c p chk act s = stageCmd x (turned c s) := by
  obtain ⟨h1, h2, hb, h3, h4⟩ := reached_iff.mp h
  simp [serve, judgeCmd, h1, h2, hb, h3, check10, h4, hv, hs]

/-- A command that is served acts. -/
theorem serve_acts {s : State} {op c : Nat} {p : Packet} {x : Cmd} {chk : State → Cmd → Verdict}
    (h : Safety.served s op c p x chk = true) (act : Cmd → State → State) : serve op c p chk act s = act x (turned c s) := by
  obtain ⟨hr, hv, hs⟩ := served_iff.mp h
  obtain ⟨h1, h2, hb, h3, h4⟩ := reached_iff.mp hr
  simp [serve, judgeCmd, h1, h2, hb, h3, check10, h4, hv, hs]

/-- The next command of a carrier has its operation and packet. -/
theorem ready_of_served {s : State} {op c : Nat} {p : Packet} {x : Cmd} {chk : State → Cmd → Verdict}
    (h : Safety.served s op c p x chk = true) : ready s op c p = some x :=
  (reached_iff.mp (served_iff.mp h).1).1

/-! ### Pending work (R321, R332, R335) -/

/-- With no free result slot the command is refused and nothing starts. -/
theorem pend_full {s : State} {x : Cmd} (h : slotFree s x.port = false) (work : Nat → State → State) :
    pend x work s = finish x { status := stResultFull } s := by
  simp [pend, h]

/-- With one, the reply carries its ticket, and the work starts. -/
theorem pend_work {s : State} {x : Cmd} (h : slotFree s x.port = true) (work : Nat → State → State) :
    pend x work s = work (takeSlot x (!partScope x) s).1
      (finish x { status := stPending, result := [dw (takeSlot x (!partScope x) s).1] } (takeSlot x (!partScope x) s).2) := by
  simp [pend, h]

/-- A ticket that no longer names a waiting slot posts nothing. -/
theorem post_stale {s : State} {ticket : Nat}
    (h : ¬((tget s.slots (tkSlot ticket)).held = true ∧ (tget s.slots (tkSlot ticket)).gen = tkGen ticket ∧
      (tget s.slots (tkSlot ticket)).final = none)) (st : Nat) (res : List Dword) : post ticket st res s = s := by
  have : ((tget s.slots (tkSlot ticket)).held && (tget s.slots (tkSlot ticket)).gen == tkGen ticket &&
      (tget s.slots (tkSlot ticket)).final.isNone) = false := by
    rw [Bool.eq_false_iff]
    simpa [and_assoc] using h
  simp [post, this]

/-! ### Views and counters (R336, R360) -/

/-- Attention in one view changes ports and queue pairs only. -/
theorem raiseOwn_form (s : State) (p : Nat) (qp : Option Nat) :
    ∃ ports qps, raiseOwn s p qp = { s with ports := ports, qps := qps } := by
  cases qp
  · exact ⟨_, s.qps, rfl⟩
  · exact ⟨_, _, rfl⟩

/-- An event changes ports and queue pairs only. -/
theorem raisePort_form (s : State) (b : Nat) (sc : Scope) (p : Nat) :
    ∃ ports qps, raisePort s b sc p = { s with ports := ports, qps := qps } := by
  unfold raisePort
  dsimp only
  split
  · exact ⟨_, _, rfl⟩
  · exact ⟨s.ports, s.qps, rfl⟩

/-- The same of all four ports. -/
theorem raise_form (b : Nat) (sc : Scope) (s : State) : ∃ ports qps, raise b sc s = { s with ports := ports, qps := qps } := by
  unfold raise
  obtain ⟨p0, q0, h0⟩ := raisePort_form s b sc 0
  rw [h0]
  obtain ⟨p1, q1, h1⟩ := raisePort_form { s with ports := p0, qps := q0 } b sc 1
  rw [h1]
  obtain ⟨p2, q2, h2⟩ := raisePort_form { s with ports := p1, qps := q1 } b sc 2
  rw [h2]
  obtain ⟨p3, q3, h3⟩ := raisePort_form { s with ports := p2, qps := q2 } b sc 3
  exact ⟨p3, q3, h3⟩

/-- Repeating what changes ports and queue pairs only. -/
theorem foldl_form {α : Type} (g : State → α → State) (h : ∀ s a, ∃ ports qps, g s a = { s with ports := ports, qps := qps })
    (l : List α) (s : State) : ∃ ports qps, l.foldl g s = { s with ports := ports, qps := qps } := by
  induction l generalizing s with
  | nil => exact ⟨s.ports, s.qps, rfl⟩
  | cons a r ih =>
    obtain ⟨p0, q0, h0⟩ := h s a
    rw [List.foldl_cons, h0]
    obtain ⟨p1, q1, h1⟩ := ih { s with ports := p0, qps := q0 }
    exact ⟨p1, q1, h1⟩

/-- Counting changes the one counter, which saturates, and views. -/
theorem bumpBy_form (cid inst n : Nat) (s : State) :
    ∃ ports qps, bumpBy cid inst n s =
      { s with cnt := tset s.cnt (cntKey cid inst) (min (tget s.cnt (cntKey cid inst) + n) 0xFFFFFFFF), ports := ports, qps := qps } := by
  unfold bumpBy fireThresholds
  dsimp only
  obtain ⟨p0, q0, h0⟩ := foldl_form
    (fun x p => if (tget s.ports p).view.passes cid inst (tget s.cnt (cntKey cid inst))
      (min (tget s.cnt (cntKey cid inst) + n) 0xFFFFFFFF) then raiseOwn x p none else x)
    (fun t a => by split; exact raiseOwn_form _ _ _; exact ⟨t.ports, t.qps, rfl⟩) [0, 1, 2, 3]
    { s with cnt := tset s.cnt (cntKey cid inst) (min (tget s.cnt (cntKey cid inst) + n) 0xFFFFFFFF) }
  rw [h0]
  obtain ⟨p1, q1, h1⟩ := foldl_form
    (fun x (e : Nat × Qp) => if e.2.view.passes cid inst (tget s.cnt (cntKey cid inst))
      (min (tget s.cnt (cntKey cid inst) + n) 0xFFFFFFFF) then raiseOwn x (portOf e.1) (some e.1) else x)
    (fun t a => by split; exact raiseOwn_form _ _ _; exact ⟨t.ports, t.qps, rfl⟩) s.qps
    { s with cnt := tset s.cnt (cntKey cid inst) (min (tget s.cnt (cntKey cid inst) + n) 0xFFFFFFFF), ports := p0, qps := q0 }
  exact ⟨p1, q1, h1⟩

end Sys2Proof.Laws
end

