-- ==== Sys2Proof/Laws/Signature.lean ====
section
/-! SUPPORT. The signature record is short: it fits wherever 4,096 bytes do (R428, R450). -/

namespace Sys2Proof.Laws

open Sys2Proof.Machine

/-- A CBOR head has at most nine bytes. -/
theorem cborHead_length (m n : Nat) : (cborHead m n).length ≤ 9 := by
  unfold cborHead
  repeat' split
  all_goals simp [leBytes]

/-- An unsigned integer has at most nine bytes. -/
theorem cborNat_length (n : Nat) : (cborNat n).length ≤ 9 := cborHead_length 0 n

/-- A key with its value has at most eighteen. -/
theorem cborPair_length (k v : Nat) : (cborPair k v).length ≤ 18 := by
  have a := cborNat_length k
  have b := cborNat_length v
  simp only [cborPair, List.length_append]
  omega

/-- A key with two values has at most thirty-six. -/
theorem cborTwo_length (k a b : Nat) : (cborTwo k a b).length ≤ 36 := by
  have h1 := cborNat_length k
  have h2 := cborHead_length 4 2
  have h3 := cborNat_length a
  have h4 := cborNat_length b
  simp only [cborTwo, List.length_append]
  omega

/-- A run of bytes and a bounded one after it. -/
theorem length_append_le {a b : List Byte} {m n k : Nat} (ha : a.length ≤ m) (hb : b.length ≤ n) (h : m + n = k) : (a ++ b).length ≤ k := by
  rw [List.length_append]
  omega

/-- A signature record fits in 4,096 bytes. -/
theorem signatureOf_length (serial rom patch slot : Nat) (r : LRec) (tr pe : Nat) (re : Bool) :
    (signatureOf serial rom patch slot r tr pe re).length ≤ 4096 := by
  have key : (signatureOf serial rom patch slot r tr pe re).length ≤ 379 := by
    unfold signatureOf
    refine length_append_le (m := 378) (n := 1) ?_ (Nat.le_refl 1) rfl
    refine length_append_le (m := 369) (n := 9) ?_ (cborNat_length 18) rfl
    refine length_append_le (m := 333) (n := 36) ?_ (cborTwo_length 17 _ _) rfl
    refine length_append_le (m := 297) (n := 36) ?_ (cborTwo_length 16 _ _) rfl
    refine length_append_le (m := 279) (n := 18) ?_ ?_ rfl
    rotate_left
    · split
      · exact cborPair_length 15 _
      · exact Nat.zero_le _
    refine length_append_le (m := 261) (n := 18) ?_ (cborPair_length 14 r.count) rfl
    refine length_append_le (m := 243) (n := 18) ?_ (cborPair_length 13 r.time) rfl
    refine length_append_le (m := 225) (n := 18) ?_ (cborPair_length 12 r.powerup) rfl
    refine length_append_le (m := 207) (n := 18) ?_ (cborPair_length 11 r.status) rfl
    refine length_append_le (m := 189) (n := 18) ?_ (cborPair_length 10 r.unit) rfl
    refine length_append_le (m := 171) (n := 18) ?_ (cborPair_length 9 r.verdict) rfl
    refine length_append_le (m := 153) (n := 18) ?_ (cborPair_length 8 r.kind) rfl
    refine length_append_le (m := 135) (n := 18) ?_ (cborPair_length 7 slot) rfl
    refine length_append_le (m := 117) (n := 18) ?_ (cborPair_length 6 patch) rfl
    refine length_append_le (m := 99) (n := 18) ?_ (cborPair_length 5 rom) rfl
    refine length_append_le (m := 81) (n := 18) ?_ (cborPair_length 4 serial) rfl
    refine length_append_le (m := 63) (n := 18) ?_ (cborPair_length 3 0xB0) rfl
    refine length_append_le (m := 45) (n := 18) ?_ (cborPair_length 2 0x0520) rfl
    refine length_append_le (m := 27) (n := 18) ?_ (cborPair_length 1 0x1F6C) rfl
    refine length_append_le (m := 9) (n := 18) ?_ (cborPair_length 0 1) rfl
    exact cborHead_length 5 _
  exact Nat.le_trans key (by decide)

end Sys2Proof.Laws
end

