-- ==== Sys2Proof/Laws/State.lean ====
section
/-! SUPPORT. What each named update of State does to each field, by rfl, so that no proof unfolds a record update. -/

namespace Sys2Proof.Laws

open Sys2Proof.Machine

variable (s : State)

/-! ### drawFree -/

@[simp] theorem drawFree_pending : (drawFree s).pending = s.pending := rfl
@[simp] theorem drawFree_timebase : (drawFree s).timebase = s.timebase := rfl
@[simp] theorem drawFree_aclk : (drawFree s).aclk = s.aclk := rfl
@[simp] theorem drawFree_freeCtr : (drawFree s).freeCtr = s.freeCtr + 1 := rfl
@[simp] theorem drawFree_bring : (drawFree s).bring = s.bring := rfl
@[simp] theorem drawFree_cnt : (drawFree s).cnt = s.cnt := rfl
@[simp] theorem drawFree_ports : (drawFree s).ports = s.ports := rfl
@[simp] theorem drawFree_qps : (drawFree s).qps = s.qps := rfl
@[simp] theorem drawFree_mbx : (drawFree s).mbx = s.mbx := rfl
@[simp] theorem drawFree_cmds : (drawFree s).cmds = s.cmds := rfl
@[simp] theorem drawFree_nextId : (drawFree s).nextId = s.nextId := rfl
@[simp] theorem drawFree_rota : (drawFree s).rota = s.rota := rfl
@[simp] theorem drawFree_hostReads : (drawFree s).hostReads = s.hostReads := rfl
@[simp] theorem drawFree_hostOut : (drawFree s).hostOut = s.hostOut := rfl
@[simp] theorem drawFree_cplOut : (drawFree s).cplOut = s.cplOut := rfl
@[simp] theorem drawFree_fns : (drawFree s).fns = s.fns := rfl
@[simp] theorem drawFree_p2 : (drawFree s).p2 = s.p2 := rfl
@[simp] theorem drawFree_tap : (drawFree s).tap = s.tap := rfl
@[simp] theorem drawFree_slots : (drawFree s).slots = s.slots := rfl
@[simp] theorem drawFree_parts : (drawFree s).parts = s.parts := rfl
@[simp] theorem drawFree_locks : (drawFree s).locks = s.locks := rfl
@[simp] theorem drawFree_seqs : (drawFree s).seqs = s.seqs := rfl
@[simp] theorem drawFree_pools : (drawFree s).pools = s.pools := rfl
@[simp] theorem drawFree_mem : (drawFree s).mem = s.mem := rfl
@[simp] theorem drawFree_poison : (drawFree s).poison = s.poison := rfl
@[simp] theorem drawFree_pagePoison : (drawFree s).pagePoison = s.pagePoison := rfl
@[simp] theorem drawFree_windows : (drawFree s).windows = s.windows := rfl
@[simp] theorem drawFree_hostSpill : (drawFree s).hostSpill = s.hostSpill := rfl
@[simp] theorem drawFree_peerSpill : (drawFree s).peerSpill = s.peerSpill := rfl
@[simp] theorem drawFree_segs : (drawFree s).segs = s.segs := rfl
@[simp] theorem drawFree_ctxs : (drawFree s).ctxs = s.ctxs := rfl
@[simp] theorem drawFree_cm : (drawFree s).cm = s.cm := rfl
@[simp] theorem drawFree_sslots : (drawFree s).sslots = s.sslots := rfl
@[simp] theorem drawFree_jobs : (drawFree s).jobs = s.jobs := rfl
@[simp] theorem drawFree_engines : (drawFree s).engines = s.engines := rfl
@[simp] theorem drawFree_progs : (drawFree s).progs = s.progs := rfl
@[simp] theorem drawFree_loads : (drawFree s).loads = s.loads := rfl
@[simp] theorem drawFree_tiles : (drawFree s).tiles = s.tiles := rfl
@[simp] theorem drawFree_flights : (drawFree s).flights = s.flights := rfl
@[simp] theorem drawFree_mesh : (drawFree s).mesh = s.mesh := rfl
@[simp] theorem drawFree_reqs : (drawFree s).reqs = s.reqs := rfl
@[simp] theorem drawFree_netq : (drawFree s).netq = s.netq := rfl
@[simp] theorem drawFree_doms : (drawFree s).doms = s.doms := rfl
@[simp] theorem drawFree_pel : (drawFree s).pel = s.pel := rfl
@[simp] theorem drawFree_chans : (drawFree s).chans = s.chans := rfl
@[simp] theorem drawFree_groups : (drawFree s).groups = s.groups := rfl
@[simp] theorem drawFree_loops : (drawFree s).loops = s.loops := rfl
@[simp] theorem drawFree_avs : (drawFree s).avs = s.avs := rfl
@[simp] theorem drawFree_samples : (drawFree s).samples = s.samples := rfl
@[simp] theorem drawFree_board : (drawFree s).board = s.board := rfl
@[simp] theorem drawFree_ledger : (drawFree s).ledger = s.ledger := rfl
@[simp] theorem drawFree_integ : (drawFree s).integ = s.integ := rfl
@[simp] theorem drawFree_owl : (drawFree s).owl = s.owl := rfl
@[simp] theorem drawFree_fw : (drawFree s).fw = s.fw := rfl

/-! ### takeId -/

@[simp] theorem takeId_pending : (takeId s).pending = s.pending := rfl
@[simp] theorem takeId_timebase : (takeId s).timebase = s.timebase := rfl
@[simp] theorem takeId_aclk : (takeId s).aclk = s.aclk := rfl
@[simp] theorem takeId_freeCtr : (takeId s).freeCtr = s.freeCtr := rfl
@[simp] theorem takeId_bring : (takeId s).bring = s.bring := rfl
@[simp] theorem takeId_cnt : (takeId s).cnt = s.cnt := rfl
@[simp] theorem takeId_ports : (takeId s).ports = s.ports := rfl
@[simp] theorem takeId_qps : (takeId s).qps = s.qps := rfl
@[simp] theorem takeId_mbx : (takeId s).mbx = s.mbx := rfl
@[simp] theorem takeId_cmds : (takeId s).cmds = s.cmds := rfl
@[simp] theorem takeId_nextId : (takeId s).nextId = s.nextId + 1 := rfl
@[simp] theorem takeId_rota : (takeId s).rota = s.rota := rfl
@[simp] theorem takeId_hostReads : (takeId s).hostReads = s.hostReads := rfl
@[simp] theorem takeId_hostOut : (takeId s).hostOut = s.hostOut := rfl
@[simp] theorem takeId_cplOut : (takeId s).cplOut = s.cplOut := rfl
@[simp] theorem takeId_fns : (takeId s).fns = s.fns := rfl
@[simp] theorem takeId_p2 : (takeId s).p2 = s.p2 := rfl
@[simp] theorem takeId_tap : (takeId s).tap = s.tap := rfl
@[simp] theorem takeId_slots : (takeId s).slots = s.slots := rfl
@[simp] theorem takeId_parts : (takeId s).parts = s.parts := rfl
@[simp] theorem takeId_locks : (takeId s).locks = s.locks := rfl
@[simp] theorem takeId_seqs : (takeId s).seqs = s.seqs := rfl
@[simp] theorem takeId_pools : (takeId s).pools = s.pools := rfl
@[simp] theorem takeId_mem : (takeId s).mem = s.mem := rfl
@[simp] theorem takeId_poison : (takeId s).poison = s.poison := rfl
@[simp] theorem takeId_pagePoison : (takeId s).pagePoison = s.pagePoison := rfl
@[simp] theorem takeId_windows : (takeId s).windows = s.windows := rfl
@[simp] theorem takeId_hostSpill : (takeId s).hostSpill = s.hostSpill := rfl
@[simp] theorem takeId_peerSpill : (takeId s).peerSpill = s.peerSpill := rfl
@[simp] theorem takeId_segs : (takeId s).segs = s.segs := rfl
@[simp] theorem takeId_ctxs : (takeId s).ctxs = s.ctxs := rfl
@[simp] theorem takeId_cm : (takeId s).cm = s.cm := rfl
@[simp] theorem takeId_sslots : (takeId s).sslots = s.sslots := rfl
@[simp] theorem takeId_jobs : (takeId s).jobs = s.jobs := rfl
@[simp] theorem takeId_engines : (takeId s).engines = s.engines := rfl
@[simp] theorem takeId_progs : (takeId s).progs = s.progs := rfl
@[simp] theorem takeId_loads : (takeId s).loads = s.loads := rfl
@[simp] theorem takeId_tiles : (takeId s).tiles = s.tiles := rfl
@[simp] theorem takeId_flights : (takeId s).flights = s.flights := rfl
@[simp] theorem takeId_mesh : (takeId s).mesh = s.mesh := rfl
@[simp] theorem takeId_reqs : (takeId s).reqs = s.reqs := rfl
@[simp] theorem takeId_netq : (takeId s).netq = s.netq := rfl
@[simp] theorem takeId_doms : (takeId s).doms = s.doms := rfl
@[simp] theorem takeId_pel : (takeId s).pel = s.pel := rfl
@[simp] theorem takeId_chans : (takeId s).chans = s.chans := rfl
@[simp] theorem takeId_groups : (takeId s).groups = s.groups := rfl
@[simp] theorem takeId_loops : (takeId s).loops = s.loops := rfl
@[simp] theorem takeId_avs : (takeId s).avs = s.avs := rfl
@[simp] theorem takeId_samples : (takeId s).samples = s.samples := rfl
@[simp] theorem takeId_board : (takeId s).board = s.board := rfl
@[simp] theorem takeId_ledger : (takeId s).ledger = s.ledger := rfl
@[simp] theorem takeId_integ : (takeId s).integ = s.integ := rfl
@[simp] theorem takeId_owl : (takeId s).owl = s.owl := rfl
@[simp] theorem takeId_fw : (takeId s).fw = s.fw := rfl

/-! ### hostWrite -/

@[simp] theorem hostWrite_pending (spill : Bool) (fn a : Nat) (data : List Byte) : (hostWrite spill fn a data s).pending = s.pending := rfl
@[simp] theorem hostWrite_timebase (spill : Bool) (fn a : Nat) (data : List Byte) : (hostWrite spill fn a data s).timebase = s.timebase := rfl
@[simp] theorem hostWrite_aclk (spill : Bool) (fn a : Nat) (data : List Byte) : (hostWrite spill fn a data s).aclk = s.aclk := rfl
@[simp] theorem hostWrite_freeCtr (spill : Bool) (fn a : Nat) (data : List Byte) : (hostWrite spill fn a data s).freeCtr = s.freeCtr := rfl
@[simp] theorem hostWrite_bring (spill : Bool) (fn a : Nat) (data : List Byte) : (hostWrite spill fn a data s).bring = s.bring := rfl
@[simp] theorem hostWrite_cnt (spill : Bool) (fn a : Nat) (data : List Byte) : (hostWrite spill fn a data s).cnt = s.cnt := rfl
@[simp] theorem hostWrite_ports (spill : Bool) (fn a : Nat) (data : List Byte) : (hostWrite spill fn a data s).ports = s.ports := rfl
@[simp] theorem hostWrite_qps (spill : Bool) (fn a : Nat) (data : List Byte) : (hostWrite spill fn a data s).qps = s.qps := rfl
@[simp] theorem hostWrite_mbx (spill : Bool) (fn a : Nat) (data : List Byte) : (hostWrite spill fn a data s).mbx = s.mbx := rfl
@[simp] theorem hostWrite_cmds (spill : Bool) (fn a : Nat) (data : List Byte) : (hostWrite spill fn a data s).cmds = s.cmds := rfl
@[simp] theorem hostWrite_nextId (spill : Bool) (fn a : Nat) (data : List Byte) : (hostWrite spill fn a data s).nextId = s.nextId := rfl
@[simp] theorem hostWrite_rota (spill : Bool) (fn a : Nat) (data : List Byte) : (hostWrite spill fn a data s).rota = s.rota := rfl
@[simp] theorem hostWrite_hostReads (spill : Bool) (fn a : Nat) (data : List Byte) : (hostWrite spill fn a data s).hostReads = s.hostReads := rfl
@[simp] theorem hostWrite_hostOut (spill : Bool) (fn a : Nat) (data : List Byte) : (hostWrite spill fn a data s).hostOut = s.hostOut ++ (hostRuns (tget s.fns fn).mps a data.length).map (fun r =>
      { fn := fn, addr := r.1, data := (data.drop (r.1 - a)).take r.2, ro := spill && bit (tget s.fns fn).devCtl 4 }) := rfl
@[simp] theorem hostWrite_cplOut (spill : Bool) (fn a : Nat) (data : List Byte) : (hostWrite spill fn a data s).cplOut = s.cplOut := rfl
@[simp] theorem hostWrite_fns (spill : Bool) (fn a : Nat) (data : List Byte) : (hostWrite spill fn a data s).fns = s.fns := rfl
@[simp] theorem hostWrite_p2 (spill : Bool) (fn a : Nat) (data : List Byte) : (hostWrite spill fn a data s).p2 = s.p2 := rfl
@[simp] theorem hostWrite_tap (spill : Bool) (fn a : Nat) (data : List Byte) : (hostWrite spill fn a data s).tap = s.tap := rfl
@[simp] theorem hostWrite_slots (spill : Bool) (fn a : Nat) (data : List Byte) : (hostWrite spill fn a data s).slots = s.slots := rfl
@[simp] theorem hostWrite_parts (spill : Bool) (fn a : Nat) (data : List Byte) : (hostWrite spill fn a data s).parts = s.parts := rfl
@[simp] theorem hostWrite_locks (spill : Bool) (fn a : Nat) (data : List Byte) : (hostWrite spill fn a data s).locks = s.locks := rfl
@[simp] theorem hostWrite_seqs (spill : Bool) (fn a : Nat) (data : List Byte) : (hostWrite spill fn a data s).seqs = s.seqs := rfl
@[simp] theorem hostWrite_pools (spill : Bool) (fn a : Nat) (data : List Byte) : (hostWrite spill fn a data s).pools = s.pools := rfl
@[simp] theorem hostWrite_mem (spill : Bool) (fn a : Nat) (data : List Byte) : (hostWrite spill fn a data s).mem = s.mem := rfl
@[simp] theorem hostWrite_poison (spill : Bool) (fn a : Nat) (data : List Byte) : (hostWrite spill fn a data s).poison = s.poison := rfl
@[simp] theorem hostWrite_pagePoison (spill : Bool) (fn a : Nat) (data : List Byte) : (hostWrite spill fn a data s).pagePoison = s.pagePoison := rfl
@[simp] theorem hostWrite_windows (spill : Bool) (fn a : Nat) (data : List Byte) : (hostWrite spill fn a data s).windows = s.windows := rfl
@[simp] theorem hostWrite_hostSpill (spill : Bool) (fn a : Nat) (data : List Byte) : (hostWrite spill fn a data s).hostSpill = s.hostSpill := rfl
@[simp] theorem hostWrite_peerSpill (spill : Bool) (fn a : Nat) (data : List Byte) : (hostWrite spill fn a data s).peerSpill = s.peerSpill := rfl
@[simp] theorem hostWrite_segs (spill : Bool) (fn a : Nat) (data : List Byte) : (hostWrite spill fn a data s).segs = s.segs := rfl
@[simp] theorem hostWrite_ctxs (spill : Bool) (fn a : Nat) (data : List Byte) : (hostWrite spill fn a data s).ctxs = s.ctxs := rfl
@[simp] theorem hostWrite_cm (spill : Bool) (fn a : Nat) (data : List Byte) : (hostWrite spill fn a data s).cm = s.cm := rfl
@[simp] theorem hostWrite_sslots (spill : Bool) (fn a : Nat) (data : List Byte) : (hostWrite spill fn a data s).sslots = s.sslots := rfl
@[simp] theorem hostWrite_jobs (spill : Bool) (fn a : Nat) (data : List Byte) : (hostWrite spill fn a data s).jobs = s.jobs := rfl
@[simp] theorem hostWrite_engines (spill : Bool) (fn a : Nat) (data : List Byte) : (hostWrite spill fn a data s).engines = s.engines := rfl
@[simp] theorem hostWrite_progs (spill : Bool) (fn a : Nat) (data : List Byte) : (hostWrite spill fn a data s).progs = s.progs := rfl
@[simp] theorem hostWrite_loads (spill : Bool) (fn a : Nat) (data : List Byte) : (hostWrite spill fn a data s).loads = s.loads := rfl
@[simp] theorem hostWrite_tiles (spill : Bool) (fn a : Nat) (data : List Byte) : (hostWrite spill fn a data s).tiles = s.tiles := rfl
@[simp] theorem hostWrite_flights (spill : Bool) (fn a : Nat) (data : List Byte) : (hostWrite spill fn a data s).flights = s.flights := rfl
@[simp] theorem hostWrite_mesh (spill : Bool) (fn a : Nat) (data : List Byte) : (hostWrite spill fn a data s).mesh = s.mesh := rfl
@[simp] theorem hostWrite_reqs (spill : Bool) (fn a : Nat) (data : List Byte) : (hostWrite spill fn a data s).reqs = s.reqs := rfl
@[simp] theorem hostWrite_netq (spill : Bool) (fn a : Nat) (data : List Byte) : (hostWrite spill fn a data s).netq = s.netq := rfl
@[simp] theorem hostWrite_doms (spill : Bool) (fn a : Nat) (data : List Byte) : (hostWrite spill fn a data s).doms = s.doms := rfl
@[simp] theorem hostWrite_pel (spill : Bool) (fn a : Nat) (data : List Byte) : (hostWrite spill fn a data s).pel = s.pel := rfl
@[simp] theorem hostWrite_chans (spill : Bool) (fn a : Nat) (data : List Byte) : (hostWrite spill fn a data s).chans = s.chans := rfl
@[simp] theorem hostWrite_groups (spill : Bool) (fn a : Nat) (data : List Byte) : (hostWrite spill fn a data s).groups = s.groups := rfl
@[simp] theorem hostWrite_loops (spill : Bool) (fn a : Nat) (data : List Byte) : (hostWrite spill fn a data s).loops = s.loops := rfl
@[simp] theorem hostWrite_avs (spill : Bool) (fn a : Nat) (data : List Byte) : (hostWrite spill fn a data s).avs = s.avs := rfl
@[simp] theorem hostWrite_samples (spill : Bool) (fn a : Nat) (data : List Byte) : (hostWrite spill fn a data s).samples = s.samples := rfl
@[simp] theorem hostWrite_board (spill : Bool) (fn a : Nat) (data : List Byte) : (hostWrite spill fn a data s).board = s.board := rfl
@[simp] theorem hostWrite_ledger (spill : Bool) (fn a : Nat) (data : List Byte) : (hostWrite spill fn a data s).ledger = s.ledger := rfl
@[simp] theorem hostWrite_integ (spill : Bool) (fn a : Nat) (data : List Byte) : (hostWrite spill fn a data s).integ = s.integ := rfl
@[simp] theorem hostWrite_owl (spill : Bool) (fn a : Nat) (data : List Byte) : (hostWrite spill fn a data s).owl = s.owl := rfl
@[simp] theorem hostWrite_fw (spill : Bool) (fn a : Nat) (data : List Byte) : (hostWrite spill fn a data s).fw = s.fw := rfl

/-! ### markSector -/

@[simp] theorem markSector_pending (a : Nat) : (markSector a s).pending = s.pending := rfl
@[simp] theorem markSector_timebase (a : Nat) : (markSector a s).timebase = s.timebase := rfl
@[simp] theorem markSector_aclk (a : Nat) : (markSector a s).aclk = s.aclk := rfl
@[simp] theorem markSector_freeCtr (a : Nat) : (markSector a s).freeCtr = s.freeCtr := rfl
@[simp] theorem markSector_bring (a : Nat) : (markSector a s).bring = s.bring := rfl
@[simp] theorem markSector_cnt (a : Nat) : (markSector a s).cnt = s.cnt := rfl
@[simp] theorem markSector_ports (a : Nat) : (markSector a s).ports = s.ports := rfl
@[simp] theorem markSector_qps (a : Nat) : (markSector a s).qps = s.qps := rfl
@[simp] theorem markSector_mbx (a : Nat) : (markSector a s).mbx = s.mbx := rfl
@[simp] theorem markSector_cmds (a : Nat) : (markSector a s).cmds = s.cmds := rfl
@[simp] theorem markSector_nextId (a : Nat) : (markSector a s).nextId = s.nextId := rfl
@[simp] theorem markSector_rota (a : Nat) : (markSector a s).rota = s.rota := rfl
@[simp] theorem markSector_hostReads (a : Nat) : (markSector a s).hostReads = s.hostReads := rfl
@[simp] theorem markSector_hostOut (a : Nat) : (markSector a s).hostOut = s.hostOut := rfl
@[simp] theorem markSector_cplOut (a : Nat) : (markSector a s).cplOut = s.cplOut := rfl
@[simp] theorem markSector_fns (a : Nat) : (markSector a s).fns = s.fns := rfl
@[simp] theorem markSector_p2 (a : Nat) : (markSector a s).p2 = s.p2 := rfl
@[simp] theorem markSector_tap (a : Nat) : (markSector a s).tap = s.tap := rfl
@[simp] theorem markSector_slots (a : Nat) : (markSector a s).slots = s.slots := rfl
@[simp] theorem markSector_parts (a : Nat) : (markSector a s).parts = s.parts := rfl
@[simp] theorem markSector_locks (a : Nat) : (markSector a s).locks = s.locks := rfl
@[simp] theorem markSector_seqs (a : Nat) : (markSector a s).seqs = s.seqs := rfl
@[simp] theorem markSector_pools (a : Nat) : (markSector a s).pools = s.pools := rfl
@[simp] theorem markSector_mem (a : Nat) : (markSector a s).mem = s.mem := rfl
@[simp] theorem markSector_poison (a : Nat) : (markSector a s).poison = sput s.poison (a / 32) := rfl
@[simp] theorem markSector_pagePoison (a : Nat) : (markSector a s).pagePoison = s.pagePoison := rfl
@[simp] theorem markSector_windows (a : Nat) : (markSector a s).windows = s.windows := rfl
@[simp] theorem markSector_hostSpill (a : Nat) : (markSector a s).hostSpill = s.hostSpill := rfl
@[simp] theorem markSector_peerSpill (a : Nat) : (markSector a s).peerSpill = s.peerSpill := rfl
@[simp] theorem markSector_segs (a : Nat) : (markSector a s).segs = s.segs := rfl
@[simp] theorem markSector_ctxs (a : Nat) : (markSector a s).ctxs = s.ctxs := rfl
@[simp] theorem markSector_cm (a : Nat) : (markSector a s).cm = s.cm := rfl
@[simp] theorem markSector_sslots (a : Nat) : (markSector a s).sslots = s.sslots := rfl
@[simp] theorem markSector_jobs (a : Nat) : (markSector a s).jobs = s.jobs := rfl
@[simp] theorem markSector_engines (a : Nat) : (markSector a s).engines = s.engines := rfl
@[simp] theorem markSector_progs (a : Nat) : (markSector a s).progs = s.progs := rfl
@[simp] theorem markSector_loads (a : Nat) : (markSector a s).loads = s.loads := rfl
@[simp] theorem markSector_tiles (a : Nat) : (markSector a s).tiles = s.tiles := rfl
@[simp] theorem markSector_flights (a : Nat) : (markSector a s).flights = s.flights := rfl
@[simp] theorem markSector_mesh (a : Nat) : (markSector a s).mesh = s.mesh := rfl
@[simp] theorem markSector_reqs (a : Nat) : (markSector a s).reqs = s.reqs := rfl
@[simp] theorem markSector_netq (a : Nat) : (markSector a s).netq = s.netq := rfl
@[simp] theorem markSector_doms (a : Nat) : (markSector a s).doms = s.doms := rfl
@[simp] theorem markSector_pel (a : Nat) : (markSector a s).pel = s.pel := rfl
@[simp] theorem markSector_chans (a : Nat) : (markSector a s).chans = s.chans := rfl
@[simp] theorem markSector_groups (a : Nat) : (markSector a s).groups = s.groups := rfl
@[simp] theorem markSector_loops (a : Nat) : (markSector a s).loops = s.loops := rfl
@[simp] theorem markSector_avs (a : Nat) : (markSector a s).avs = s.avs := rfl
@[simp] theorem markSector_samples (a : Nat) : (markSector a s).samples = s.samples := rfl
@[simp] theorem markSector_board (a : Nat) : (markSector a s).board = s.board := rfl
@[simp] theorem markSector_ledger (a : Nat) : (markSector a s).ledger = s.ledger := rfl
@[simp] theorem markSector_integ (a : Nat) : (markSector a s).integ = s.integ := rfl
@[simp] theorem markSector_owl (a : Nat) : (markSector a s).owl = s.owl := rfl
@[simp] theorem markSector_fw (a : Nat) : (markSector a s).fw = s.fw := rfl

/-! ### memPut -/

@[simp] theorem memPut_pending (a : Nat) (data : List Byte) : (memPut a data s).pending = s.pending := rfl
@[simp] theorem memPut_timebase (a : Nat) (data : List Byte) : (memPut a data s).timebase = s.timebase := rfl
@[simp] theorem memPut_aclk (a : Nat) (data : List Byte) : (memPut a data s).aclk = s.aclk := rfl
@[simp] theorem memPut_freeCtr (a : Nat) (data : List Byte) : (memPut a data s).freeCtr = s.freeCtr := rfl
@[simp] theorem memPut_bring (a : Nat) (data : List Byte) : (memPut a data s).bring = s.bring := rfl
@[simp] theorem memPut_cnt (a : Nat) (data : List Byte) : (memPut a data s).cnt = s.cnt := rfl
@[simp] theorem memPut_ports (a : Nat) (data : List Byte) : (memPut a data s).ports = s.ports := rfl
@[simp] theorem memPut_qps (a : Nat) (data : List Byte) : (memPut a data s).qps = s.qps := rfl
@[simp] theorem memPut_mbx (a : Nat) (data : List Byte) : (memPut a data s).mbx = s.mbx := rfl
@[simp] theorem memPut_cmds (a : Nat) (data : List Byte) : (memPut a data s).cmds = s.cmds := rfl
@[simp] theorem memPut_nextId (a : Nat) (data : List Byte) : (memPut a data s).nextId = s.nextId := rfl
@[simp] theorem memPut_rota (a : Nat) (data : List Byte) : (memPut a data s).rota = s.rota := rfl
@[simp] theorem memPut_hostReads (a : Nat) (data : List Byte) : (memPut a data s).hostReads = s.hostReads := rfl
@[simp] theorem memPut_hostOut (a : Nat) (data : List Byte) : (memPut a data s).hostOut = s.hostOut := rfl
@[simp] theorem memPut_cplOut (a : Nat) (data : List Byte) : (memPut a data s).cplOut = s.cplOut := rfl
@[simp] theorem memPut_fns (a : Nat) (data : List Byte) : (memPut a data s).fns = s.fns := rfl
@[simp] theorem memPut_p2 (a : Nat) (data : List Byte) : (memPut a data s).p2 = s.p2 := rfl
@[simp] theorem memPut_tap (a : Nat) (data : List Byte) : (memPut a data s).tap = s.tap := rfl
@[simp] theorem memPut_slots (a : Nat) (data : List Byte) : (memPut a data s).slots = s.slots := rfl
@[simp] theorem memPut_parts (a : Nat) (data : List Byte) : (memPut a data s).parts = s.parts := rfl
@[simp] theorem memPut_locks (a : Nat) (data : List Byte) : (memPut a data s).locks = s.locks := rfl
@[simp] theorem memPut_seqs (a : Nat) (data : List Byte) : (memPut a data s).seqs = s.seqs := rfl
@[simp] theorem memPut_pools (a : Nat) (data : List Byte) : (memPut a data s).pools = s.pools := rfl
@[simp] theorem memPut_mem (a : Nat) (data : List Byte) : (memPut a data s).mem = putBytes s.mem a data := rfl
@[simp] theorem memPut_pagePoison (a : Nat) (data : List Byte) : (memPut a data s).pagePoison = s.pagePoison := rfl
@[simp] theorem memPut_windows (a : Nat) (data : List Byte) : (memPut a data s).windows = s.windows := rfl
@[simp] theorem memPut_hostSpill (a : Nat) (data : List Byte) : (memPut a data s).hostSpill = s.hostSpill := rfl
@[simp] theorem memPut_peerSpill (a : Nat) (data : List Byte) : (memPut a data s).peerSpill = s.peerSpill := rfl
@[simp] theorem memPut_segs (a : Nat) (data : List Byte) : (memPut a data s).segs = s.segs := rfl
@[simp] theorem memPut_ctxs (a : Nat) (data : List Byte) : (memPut a data s).ctxs = s.ctxs := rfl
@[simp] theorem memPut_cm (a : Nat) (data : List Byte) : (memPut a data s).cm = s.cm := rfl
@[simp] theorem memPut_sslots (a : Nat) (data : List Byte) : (memPut a data s).sslots = s.sslots := rfl
@[simp] theorem memPut_jobs (a : Nat) (data : List Byte) : (memPut a data s).jobs = s.jobs := rfl
@[simp] theorem memPut_engines (a : Nat) (data : List Byte) : (memPut a data s).engines = s.engines := rfl
@[simp] theorem memPut_progs (a : Nat) (data : List Byte) : (memPut a data s).progs = s.progs := rfl
@[simp] theorem memPut_loads (a : Nat) (data : List Byte) : (memPut a data s).loads = s.loads := rfl
@[simp] theorem memPut_tiles (a : Nat) (data : List Byte) : (memPut a data s).tiles = s.tiles := rfl
@[simp] theorem memPut_flights (a : Nat) (data : List Byte) : (memPut a data s).flights = s.flights := rfl
@[simp] theorem memPut_mesh (a : Nat) (data : List Byte) : (memPut a data s).mesh = s.mesh := rfl
@[simp] theorem memPut_reqs (a : Nat) (data : List Byte) : (memPut a data s).reqs = s.reqs := rfl
@[simp] theorem memPut_netq (a : Nat) (data : List Byte) : (memPut a data s).netq = s.netq := rfl
@[simp] theorem memPut_doms (a : Nat) (data : List Byte) : (memPut a data s).doms = s.doms := rfl
@[simp] theorem memPut_pel (a : Nat) (data : List Byte) : (memPut a data s).pel = s.pel := rfl
@[simp] theorem memPut_chans (a : Nat) (data : List Byte) : (memPut a data s).chans = s.chans := rfl
@[simp] theorem memPut_groups (a : Nat) (data : List Byte) : (memPut a data s).groups = s.groups := rfl
@[simp] theorem memPut_loops (a : Nat) (data : List Byte) : (memPut a data s).loops = s.loops := rfl
@[simp] theorem memPut_avs (a : Nat) (data : List Byte) : (memPut a data s).avs = s.avs := rfl
@[simp] theorem memPut_samples (a : Nat) (data : List Byte) : (memPut a data s).samples = s.samples := rfl
@[simp] theorem memPut_board (a : Nat) (data : List Byte) : (memPut a data s).board = s.board := rfl
@[simp] theorem memPut_ledger (a : Nat) (data : List Byte) : (memPut a data s).ledger = s.ledger := rfl
@[simp] theorem memPut_integ (a : Nat) (data : List Byte) : (memPut a data s).integ = s.integ := rfl
@[simp] theorem memPut_owl (a : Nat) (data : List Byte) : (memPut a data s).owl = s.owl := rfl
@[simp] theorem memPut_fw (a : Nat) (data : List Byte) : (memPut a data s).fw = s.fw := rfl

/-! ### queueRec -/

@[simp] theorem queueRec_pending (r : LRec) : (queueRec r s).pending = s.pending := rfl
@[simp] theorem queueRec_timebase (r : LRec) : (queueRec r s).timebase = s.timebase := rfl
@[simp] theorem queueRec_aclk (r : LRec) : (queueRec r s).aclk = s.aclk := rfl
@[simp] theorem queueRec_freeCtr (r : LRec) : (queueRec r s).freeCtr = s.freeCtr := rfl
@[simp] theorem queueRec_bring (r : LRec) : (queueRec r s).bring = s.bring := rfl
@[simp] theorem queueRec_cnt (r : LRec) : (queueRec r s).cnt = s.cnt := rfl
@[simp] theorem queueRec_ports (r : LRec) : (queueRec r s).ports = s.ports := rfl
@[simp] theorem queueRec_qps (r : LRec) : (queueRec r s).qps = s.qps := rfl
@[simp] theorem queueRec_mbx (r : LRec) : (queueRec r s).mbx = s.mbx := rfl
@[simp] theorem queueRec_cmds (r : LRec) : (queueRec r s).cmds = s.cmds := rfl
@[simp] theorem queueRec_nextId (r : LRec) : (queueRec r s).nextId = s.nextId := rfl
@[simp] theorem queueRec_rota (r : LRec) : (queueRec r s).rota = s.rota := rfl
@[simp] theorem queueRec_hostReads (r : LRec) : (queueRec r s).hostReads = s.hostReads := rfl
@[simp] theorem queueRec_hostOut (r : LRec) : (queueRec r s).hostOut = s.hostOut := rfl
@[simp] theorem queueRec_cplOut (r : LRec) : (queueRec r s).cplOut = s.cplOut := rfl
@[simp] theorem queueRec_fns (r : LRec) : (queueRec r s).fns = s.fns := rfl
@[simp] theorem queueRec_p2 (r : LRec) : (queueRec r s).p2 = s.p2 := rfl
@[simp] theorem queueRec_tap (r : LRec) : (queueRec r s).tap = s.tap := rfl
@[simp] theorem queueRec_slots (r : LRec) : (queueRec r s).slots = s.slots := rfl
@[simp] theorem queueRec_parts (r : LRec) : (queueRec r s).parts = s.parts := rfl
@[simp] theorem queueRec_locks (r : LRec) : (queueRec r s).locks = s.locks := rfl
@[simp] theorem queueRec_seqs (r : LRec) : (queueRec r s).seqs = s.seqs := rfl
@[simp] theorem queueRec_pools (r : LRec) : (queueRec r s).pools = s.pools := rfl
@[simp] theorem queueRec_mem (r : LRec) : (queueRec r s).mem = s.mem := rfl
@[simp] theorem queueRec_poison (r : LRec) : (queueRec r s).poison = s.poison := rfl
@[simp] theorem queueRec_pagePoison (r : LRec) : (queueRec r s).pagePoison = s.pagePoison := rfl
@[simp] theorem queueRec_windows (r : LRec) : (queueRec r s).windows = s.windows := rfl
@[simp] theorem queueRec_hostSpill (r : LRec) : (queueRec r s).hostSpill = s.hostSpill := rfl
@[simp] theorem queueRec_peerSpill (r : LRec) : (queueRec r s).peerSpill = s.peerSpill := rfl
@[simp] theorem queueRec_segs (r : LRec) : (queueRec r s).segs = s.segs := rfl
@[simp] theorem queueRec_ctxs (r : LRec) : (queueRec r s).ctxs = s.ctxs := rfl
@[simp] theorem queueRec_cm (r : LRec) : (queueRec r s).cm = s.cm := rfl
@[simp] theorem queueRec_sslots (r : LRec) : (queueRec r s).sslots = s.sslots := rfl
@[simp] theorem queueRec_jobs (r : LRec) : (queueRec r s).jobs = s.jobs := rfl
@[simp] theorem queueRec_engines (r : LRec) : (queueRec r s).engines = s.engines := rfl
@[simp] theorem queueRec_progs (r : LRec) : (queueRec r s).progs = s.progs := rfl
@[simp] theorem queueRec_loads (r : LRec) : (queueRec r s).loads = s.loads := rfl
@[simp] theorem queueRec_tiles (r : LRec) : (queueRec r s).tiles = s.tiles := rfl
@[simp] theorem queueRec_flights (r : LRec) : (queueRec r s).flights = s.flights := rfl
@[simp] theorem queueRec_mesh (r : LRec) : (queueRec r s).mesh = s.mesh := rfl
@[simp] theorem queueRec_reqs (r : LRec) : (queueRec r s).reqs = s.reqs := rfl
@[simp] theorem queueRec_netq (r : LRec) : (queueRec r s).netq = s.netq := rfl
@[simp] theorem queueRec_doms (r : LRec) : (queueRec r s).doms = s.doms := rfl
@[simp] theorem queueRec_pel (r : LRec) : (queueRec r s).pel = s.pel := rfl
@[simp] theorem queueRec_chans (r : LRec) : (queueRec r s).chans = s.chans := rfl
@[simp] theorem queueRec_groups (r : LRec) : (queueRec r s).groups = s.groups := rfl
@[simp] theorem queueRec_loops (r : LRec) : (queueRec r s).loops = s.loops := rfl
@[simp] theorem queueRec_avs (r : LRec) : (queueRec r s).avs = s.avs := rfl
@[simp] theorem queueRec_samples (r : LRec) : (queueRec r s).samples = s.samples := rfl
@[simp] theorem queueRec_board (r : LRec) : (queueRec r s).board = s.board := rfl
@[simp] theorem queueRec_ledger (r : LRec) : (queueRec r s).ledger = s.ledger := rfl
@[simp] theorem queueRec_integ (r : LRec) : (queueRec r s).integ = { s.integ with queue := s.integ.queue ++ [r] } := rfl
@[simp] theorem queueRec_owl (r : LRec) : (queueRec r s).owl = s.owl := rfl
@[simp] theorem queueRec_fw (r : LRec) : (queueRec r s).fw = s.fw := rfl

/-! ### setCtx -/

@[simp] theorem setCtx_pending (n : Nat) (x : Ctx) : (setCtx n x s).pending = s.pending := rfl
@[simp] theorem setCtx_timebase (n : Nat) (x : Ctx) : (setCtx n x s).timebase = s.timebase := rfl
@[simp] theorem setCtx_aclk (n : Nat) (x : Ctx) : (setCtx n x s).aclk = s.aclk := rfl
@[simp] theorem setCtx_freeCtr (n : Nat) (x : Ctx) : (setCtx n x s).freeCtr = s.freeCtr := rfl
@[simp] theorem setCtx_bring (n : Nat) (x : Ctx) : (setCtx n x s).bring = s.bring := rfl
@[simp] theorem setCtx_cnt (n : Nat) (x : Ctx) : (setCtx n x s).cnt = s.cnt := rfl
@[simp] theorem setCtx_ports (n : Nat) (x : Ctx) : (setCtx n x s).ports = s.ports := rfl
@[simp] theorem setCtx_qps (n : Nat) (x : Ctx) : (setCtx n x s).qps = s.qps := rfl
@[simp] theorem setCtx_mbx (n : Nat) (x : Ctx) : (setCtx n x s).mbx = s.mbx := rfl
@[simp] theorem setCtx_cmds (n : Nat) (x : Ctx) : (setCtx n x s).cmds = s.cmds := rfl
@[simp] theorem setCtx_nextId (n : Nat) (x : Ctx) : (setCtx n x s).nextId = s.nextId := rfl
@[simp] theorem setCtx_rota (n : Nat) (x : Ctx) : (setCtx n x s).rota = s.rota := rfl
@[simp] theorem setCtx_hostReads (n : Nat) (x : Ctx) : (setCtx n x s).hostReads = s.hostReads := rfl
@[simp] theorem setCtx_hostOut (n : Nat) (x : Ctx) : (setCtx n x s).hostOut = s.hostOut := rfl
@[simp] theorem setCtx_cplOut (n : Nat) (x : Ctx) : (setCtx n x s).cplOut = s.cplOut := rfl
@[simp] theorem setCtx_fns (n : Nat) (x : Ctx) : (setCtx n x s).fns = s.fns := rfl
@[simp] theorem setCtx_p2 (n : Nat) (x : Ctx) : (setCtx n x s).p2 = s.p2 := rfl
@[simp] theorem setCtx_tap (n : Nat) (x : Ctx) : (setCtx n x s).tap = s.tap := rfl
@[simp] theorem setCtx_slots (n : Nat) (x : Ctx) : (setCtx n x s).slots = s.slots := rfl
@[simp] theorem setCtx_parts (n : Nat) (x : Ctx) : (setCtx n x s).parts = s.parts := rfl
@[simp] theorem setCtx_locks (n : Nat) (x : Ctx) : (setCtx n x s).locks = s.locks := rfl
@[simp] theorem setCtx_seqs (n : Nat) (x : Ctx) : (setCtx n x s).seqs = s.seqs := rfl
@[simp] theorem setCtx_pools (n : Nat) (x : Ctx) : (setCtx n x s).pools = s.pools := rfl
@[simp] theorem setCtx_mem (n : Nat) (x : Ctx) : (setCtx n x s).mem = s.mem := rfl
@[simp] theorem setCtx_poison (n : Nat) (x : Ctx) : (setCtx n x s).poison = s.poison := rfl
@[simp] theorem setCtx_pagePoison (n : Nat) (x : Ctx) : (setCtx n x s).pagePoison = s.pagePoison := rfl
@[simp] theorem setCtx_windows (n : Nat) (x : Ctx) : (setCtx n x s).windows = s.windows := rfl
@[simp] theorem setCtx_hostSpill (n : Nat) (x : Ctx) : (setCtx n x s).hostSpill = s.hostSpill := rfl
@[simp] theorem setCtx_peerSpill (n : Nat) (x : Ctx) : (setCtx n x s).peerSpill = s.peerSpill := rfl
@[simp] theorem setCtx_segs (n : Nat) (x : Ctx) : (setCtx n x s).segs = s.segs := rfl
@[simp] theorem setCtx_ctxs (n : Nat) (x : Ctx) : (setCtx n x s).ctxs = tset s.ctxs n x := rfl
theorem setCtx_cm (n : Nat) (x : Ctx) : (setCtx n x s).cm = { s.cm with bad := (setCtx n x s).cm.bad } := rfl
@[simp] theorem setCtx_sslots (n : Nat) (x : Ctx) : (setCtx n x s).sslots = s.sslots := rfl
@[simp] theorem setCtx_jobs (n : Nat) (x : Ctx) : (setCtx n x s).jobs = s.jobs := rfl
@[simp] theorem setCtx_engines (n : Nat) (x : Ctx) : (setCtx n x s).engines = s.engines := rfl
@[simp] theorem setCtx_progs (n : Nat) (x : Ctx) : (setCtx n x s).progs = s.progs := rfl
@[simp] theorem setCtx_loads (n : Nat) (x : Ctx) : (setCtx n x s).loads = s.loads := rfl
@[simp] theorem setCtx_tiles (n : Nat) (x : Ctx) : (setCtx n x s).tiles = s.tiles := rfl
@[simp] theorem setCtx_flights (n : Nat) (x : Ctx) : (setCtx n x s).flights = s.flights := rfl
@[simp] theorem setCtx_mesh (n : Nat) (x : Ctx) : (setCtx n x s).mesh = s.mesh := rfl
@[simp] theorem setCtx_reqs (n : Nat) (x : Ctx) : (setCtx n x s).reqs = s.reqs := rfl
@[simp] theorem setCtx_netq (n : Nat) (x : Ctx) : (setCtx n x s).netq = s.netq := rfl
@[simp] theorem setCtx_doms (n : Nat) (x : Ctx) : (setCtx n x s).doms = s.doms := rfl
@[simp] theorem setCtx_pel (n : Nat) (x : Ctx) : (setCtx n x s).pel = s.pel := rfl
@[simp] theorem setCtx_chans (n : Nat) (x : Ctx) : (setCtx n x s).chans = s.chans := rfl
@[simp] theorem setCtx_groups (n : Nat) (x : Ctx) : (setCtx n x s).groups = s.groups := rfl
@[simp] theorem setCtx_loops (n : Nat) (x : Ctx) : (setCtx n x s).loops = s.loops := rfl
@[simp] theorem setCtx_avs (n : Nat) (x : Ctx) : (setCtx n x s).avs = s.avs := rfl
@[simp] theorem setCtx_samples (n : Nat) (x : Ctx) : (setCtx n x s).samples = s.samples := rfl
@[simp] theorem setCtx_board (n : Nat) (x : Ctx) : (setCtx n x s).board = s.board := rfl
@[simp] theorem setCtx_ledger (n : Nat) (x : Ctx) : (setCtx n x s).ledger = s.ledger := rfl
theorem setCtx_integ (n : Nat) (x : Ctx) : (setCtx n x s).integ = { s.integ with inject := (setCtx n x s).integ.inject } := rfl
@[simp] theorem setCtx_owl (n : Nat) (x : Ctx) : (setCtx n x s).owl = s.owl := rfl
@[simp] theorem setCtx_fw (n : Nat) (x : Ctx) : (setCtx n x s).fw = s.fw := rfl

/-! ### onTile -/

@[simp] theorem onTile_pending (n : Nat) (f : Tile → Tile) : (onTile n f s).pending = s.pending := rfl
@[simp] theorem onTile_timebase (n : Nat) (f : Tile → Tile) : (onTile n f s).timebase = s.timebase := rfl
@[simp] theorem onTile_aclk (n : Nat) (f : Tile → Tile) : (onTile n f s).aclk = s.aclk := rfl
@[simp] theorem onTile_freeCtr (n : Nat) (f : Tile → Tile) : (onTile n f s).freeCtr = s.freeCtr := rfl
@[simp] theorem onTile_bring (n : Nat) (f : Tile → Tile) : (onTile n f s).bring = s.bring := rfl
@[simp] theorem onTile_cnt (n : Nat) (f : Tile → Tile) : (onTile n f s).cnt = s.cnt := rfl
@[simp] theorem onTile_ports (n : Nat) (f : Tile → Tile) : (onTile n f s).ports = s.ports := rfl
@[simp] theorem onTile_qps (n : Nat) (f : Tile → Tile) : (onTile n f s).qps = s.qps := rfl
@[simp] theorem onTile_mbx (n : Nat) (f : Tile → Tile) : (onTile n f s).mbx = s.mbx := rfl
@[simp] theorem onTile_cmds (n : Nat) (f : Tile → Tile) : (onTile n f s).cmds = s.cmds := rfl
@[simp] theorem onTile_nextId (n : Nat) (f : Tile → Tile) : (onTile n f s).nextId = s.nextId := rfl
@[simp] theorem onTile_rota (n : Nat) (f : Tile → Tile) : (onTile n f s).rota = s.rota := rfl
@[simp] theorem onTile_hostReads (n : Nat) (f : Tile → Tile) : (onTile n f s).hostReads = s.hostReads := rfl
@[simp] theorem onTile_hostOut (n : Nat) (f : Tile → Tile) : (onTile n f s).hostOut = s.hostOut := rfl
@[simp] theorem onTile_cplOut (n : Nat) (f : Tile → Tile) : (onTile n f s).cplOut = s.cplOut := rfl
@[simp] theorem onTile_fns (n : Nat) (f : Tile → Tile) : (onTile n f s).fns = s.fns := rfl
@[simp] theorem onTile_p2 (n : Nat) (f : Tile → Tile) : (onTile n f s).p2 = s.p2 := rfl
@[simp] theorem onTile_tap (n : Nat) (f : Tile → Tile) : (onTile n f s).tap = s.tap := rfl
@[simp] theorem onTile_slots (n : Nat) (f : Tile → Tile) : (onTile n f s).slots = s.slots := rfl
@[simp] theorem onTile_parts (n : Nat) (f : Tile → Tile) : (onTile n f s).parts = s.parts := rfl
@[simp] theorem onTile_locks (n : Nat) (f : Tile → Tile) : (onTile n f s).locks = s.locks := rfl
@[simp] theorem onTile_seqs (n : Nat) (f : Tile → Tile) : (onTile n f s).seqs = s.seqs := rfl
@[simp] theorem onTile_pools (n : Nat) (f : Tile → Tile) : (onTile n f s).pools = s.pools := rfl
@[simp] theorem onTile_mem (n : Nat) (f : Tile → Tile) : (onTile n f s).mem = s.mem := rfl
@[simp] theorem onTile_poison (n : Nat) (f : Tile → Tile) : (onTile n f s).poison = s.poison := rfl
@[simp] theorem onTile_pagePoison (n : Nat) (f : Tile → Tile) : (onTile n f s).pagePoison = s.pagePoison := rfl
@[simp] theorem onTile_windows (n : Nat) (f : Tile → Tile) : (onTile n f s).windows = s.windows := rfl
@[simp] theorem onTile_hostSpill (n : Nat) (f : Tile → Tile) : (onTile n f s).hostSpill = s.hostSpill := rfl
@[simp] theorem onTile_peerSpill (n : Nat) (f : Tile → Tile) : (onTile n f s).peerSpill = s.peerSpill := rfl
@[simp] theorem onTile_segs (n : Nat) (f : Tile → Tile) : (onTile n f s).segs = s.segs := rfl
@[simp] theorem onTile_ctxs (n : Nat) (f : Tile → Tile) : (onTile n f s).ctxs = s.ctxs := rfl
@[simp] theorem onTile_cm (n : Nat) (f : Tile → Tile) : (onTile n f s).cm = s.cm := rfl
@[simp] theorem onTile_sslots (n : Nat) (f : Tile → Tile) : (onTile n f s).sslots = s.sslots := rfl
@[simp] theorem onTile_jobs (n : Nat) (f : Tile → Tile) : (onTile n f s).jobs = s.jobs := rfl
@[simp] theorem onTile_engines (n : Nat) (f : Tile → Tile) : (onTile n f s).engines = s.engines := rfl
@[simp] theorem onTile_progs (n : Nat) (f : Tile → Tile) : (onTile n f s).progs = s.progs := rfl
@[simp] theorem onTile_loads (n : Nat) (f : Tile → Tile) : (onTile n f s).loads = s.loads := rfl
@[simp] theorem onTile_tiles (n : Nat) (f : Tile → Tile) : (onTile n f s).tiles = tmod s.tiles n f := rfl
@[simp] theorem onTile_flights (n : Nat) (f : Tile → Tile) : (onTile n f s).flights = s.flights := rfl
@[simp] theorem onTile_mesh (n : Nat) (f : Tile → Tile) : (onTile n f s).mesh = s.mesh := rfl
@[simp] theorem onTile_reqs (n : Nat) (f : Tile → Tile) : (onTile n f s).reqs = s.reqs := rfl
@[simp] theorem onTile_netq (n : Nat) (f : Tile → Tile) : (onTile n f s).netq = s.netq := rfl
@[simp] theorem onTile_doms (n : Nat) (f : Tile → Tile) : (onTile n f s).doms = s.doms := rfl
@[simp] theorem onTile_pel (n : Nat) (f : Tile → Tile) : (onTile n f s).pel = s.pel := rfl
@[simp] theorem onTile_chans (n : Nat) (f : Tile → Tile) : (onTile n f s).chans = s.chans := rfl
@[simp] theorem onTile_groups (n : Nat) (f : Tile → Tile) : (onTile n f s).groups = s.groups := rfl
@[simp] theorem onTile_loops (n : Nat) (f : Tile → Tile) : (onTile n f s).loops = s.loops := rfl
@[simp] theorem onTile_avs (n : Nat) (f : Tile → Tile) : (onTile n f s).avs = s.avs := rfl
@[simp] theorem onTile_samples (n : Nat) (f : Tile → Tile) : (onTile n f s).samples = s.samples := rfl
@[simp] theorem onTile_board (n : Nat) (f : Tile → Tile) : (onTile n f s).board = s.board := rfl
@[simp] theorem onTile_ledger (n : Nat) (f : Tile → Tile) : (onTile n f s).ledger = s.ledger := rfl
@[simp] theorem onTile_integ (n : Nat) (f : Tile → Tile) : (onTile n f s).integ = s.integ := rfl
@[simp] theorem onTile_owl (n : Nat) (f : Tile → Tile) : (onTile n f s).owl = s.owl := rfl
@[simp] theorem onTile_fw (n : Nat) (f : Tile → Tile) : (onTile n f s).fw = s.fw := rfl

/-! ### onPel -/

@[simp] theorem onPel_pending (n : Nat) (f : Peloc → Peloc) : (onPel n f s).pending = s.pending := rfl
@[simp] theorem onPel_timebase (n : Nat) (f : Peloc → Peloc) : (onPel n f s).timebase = s.timebase := rfl
@[simp] theorem onPel_aclk (n : Nat) (f : Peloc → Peloc) : (onPel n f s).aclk = s.aclk := rfl
@[simp] theorem onPel_freeCtr (n : Nat) (f : Peloc → Peloc) : (onPel n f s).freeCtr = s.freeCtr := rfl
@[simp] theorem onPel_bring (n : Nat) (f : Peloc → Peloc) : (onPel n f s).bring = s.bring := rfl
@[simp] theorem onPel_cnt (n : Nat) (f : Peloc → Peloc) : (onPel n f s).cnt = s.cnt := rfl
@[simp] theorem onPel_ports (n : Nat) (f : Peloc → Peloc) : (onPel n f s).ports = s.ports := rfl
@[simp] theorem onPel_qps (n : Nat) (f : Peloc → Peloc) : (onPel n f s).qps = s.qps := rfl
@[simp] theorem onPel_mbx (n : Nat) (f : Peloc → Peloc) : (onPel n f s).mbx = s.mbx := rfl
@[simp] theorem onPel_cmds (n : Nat) (f : Peloc → Peloc) : (onPel n f s).cmds = s.cmds := rfl
@[simp] theorem onPel_nextId (n : Nat) (f : Peloc → Peloc) : (onPel n f s).nextId = s.nextId := rfl
@[simp] theorem onPel_rota (n : Nat) (f : Peloc → Peloc) : (onPel n f s).rota = s.rota := rfl
@[simp] theorem onPel_hostReads (n : Nat) (f : Peloc → Peloc) : (onPel n f s).hostReads = s.hostReads := rfl
@[simp] theorem onPel_hostOut (n : Nat) (f : Peloc → Peloc) : (onPel n f s).hostOut = s.hostOut := rfl
@[simp] theorem onPel_cplOut (n : Nat) (f : Peloc → Peloc) : (onPel n f s).cplOut = s.cplOut := rfl
@[simp] theorem onPel_fns (n : Nat) (f : Peloc → Peloc) : (onPel n f s).fns = s.fns := rfl
@[simp] theorem onPel_p2 (n : Nat) (f : Peloc → Peloc) : (onPel n f s).p2 = s.p2 := rfl
@[simp] theorem onPel_tap (n : Nat) (f : Peloc → Peloc) : (onPel n f s).tap = s.tap := rfl
@[simp] theorem onPel_slots (n : Nat) (f : Peloc → Peloc) : (onPel n f s).slots = s.slots := rfl
@[simp] theorem onPel_parts (n : Nat) (f : Peloc → Peloc) : (onPel n f s).parts = s.parts := rfl
@[simp] theorem onPel_locks (n : Nat) (f : Peloc → Peloc) : (onPel n f s).locks = s.locks := rfl
@[simp] theorem onPel_seqs (n : Nat) (f : Peloc → Peloc) : (onPel n f s).seqs = s.seqs := rfl
@[simp] theorem onPel_pools (n : Nat) (f : Peloc → Peloc) : (onPel n f s).pools = s.pools := rfl
@[simp] theorem onPel_mem (n : Nat) (f : Peloc → Peloc) : (onPel n f s).mem = s.mem := rfl
@[simp] theorem onPel_poison (n : Nat) (f : Peloc → Peloc) : (onPel n f s).poison = s.poison := rfl
@[simp] theorem onPel_pagePoison (n : Nat) (f : Peloc → Peloc) : (onPel n f s).pagePoison = s.pagePoison := rfl
@[simp] theorem onPel_windows (n : Nat) (f : Peloc → Peloc) : (onPel n f s).windows = s.windows := rfl
@[simp] theorem onPel_hostSpill (n : Nat) (f : Peloc → Peloc) : (onPel n f s).hostSpill = s.hostSpill := rfl
@[simp] theorem onPel_peerSpill (n : Nat) (f : Peloc → Peloc) : (onPel n f s).peerSpill = s.peerSpill := rfl
@[simp] theorem onPel_segs (n : Nat) (f : Peloc → Peloc) : (onPel n f s).segs = s.segs := rfl
@[simp] theorem onPel_ctxs (n : Nat) (f : Peloc → Peloc) : (onPel n f s).ctxs = s.ctxs := rfl
@[simp] theorem onPel_cm (n : Nat) (f : Peloc → Peloc) : (onPel n f s).cm = s.cm := rfl
@[simp] theorem onPel_sslots (n : Nat) (f : Peloc → Peloc) : (onPel n f s).sslots = s.sslots := rfl
@[simp] theorem onPel_jobs (n : Nat) (f : Peloc → Peloc) : (onPel n f s).jobs = s.jobs := rfl
@[simp] theorem onPel_engines (n : Nat) (f : Peloc → Peloc) : (onPel n f s).engines = s.engines := rfl
@[simp] theorem onPel_progs (n : Nat) (f : Peloc → Peloc) : (onPel n f s).progs = s.progs := rfl
@[simp] theorem onPel_loads (n : Nat) (f : Peloc → Peloc) : (onPel n f s).loads = s.loads := rfl
@[simp] theorem onPel_tiles (n : Nat) (f : Peloc → Peloc) : (onPel n f s).tiles = s.tiles := rfl
@[simp] theorem onPel_flights (n : Nat) (f : Peloc → Peloc) : (onPel n f s).flights = s.flights := rfl
@[simp] theorem onPel_mesh (n : Nat) (f : Peloc → Peloc) : (onPel n f s).mesh = s.mesh := rfl
@[simp] theorem onPel_reqs (n : Nat) (f : Peloc → Peloc) : (onPel n f s).reqs = s.reqs := rfl
@[simp] theorem onPel_netq (n : Nat) (f : Peloc → Peloc) : (onPel n f s).netq = s.netq := rfl
@[simp] theorem onPel_doms (n : Nat) (f : Peloc → Peloc) : (onPel n f s).doms = s.doms := rfl
@[simp] theorem onPel_pel (n : Nat) (f : Peloc → Peloc) : (onPel n f s).pel = tmod s.pel n f := rfl
@[simp] theorem onPel_chans (n : Nat) (f : Peloc → Peloc) : (onPel n f s).chans = s.chans := rfl
@[simp] theorem onPel_groups (n : Nat) (f : Peloc → Peloc) : (onPel n f s).groups = s.groups := rfl
@[simp] theorem onPel_loops (n : Nat) (f : Peloc → Peloc) : (onPel n f s).loops = s.loops := rfl
@[simp] theorem onPel_avs (n : Nat) (f : Peloc → Peloc) : (onPel n f s).avs = s.avs := rfl
@[simp] theorem onPel_samples (n : Nat) (f : Peloc → Peloc) : (onPel n f s).samples = s.samples := rfl
@[simp] theorem onPel_board (n : Nat) (f : Peloc → Peloc) : (onPel n f s).board = s.board := rfl
@[simp] theorem onPel_ledger (n : Nat) (f : Peloc → Peloc) : (onPel n f s).ledger = s.ledger := rfl
@[simp] theorem onPel_integ (n : Nat) (f : Peloc → Peloc) : (onPel n f s).integ = s.integ := rfl
@[simp] theorem onPel_owl (n : Nat) (f : Peloc → Peloc) : (onPel n f s).owl = s.owl := rfl
@[simp] theorem onPel_fw (n : Nat) (f : Peloc → Peloc) : (onPel n f s).fw = s.fw := rfl

/-! ### onGroup -/

@[simp] theorem onGroup_pending (n : Nat) (f : Group → Group) : (onGroup n f s).pending = s.pending := rfl
@[simp] theorem onGroup_timebase (n : Nat) (f : Group → Group) : (onGroup n f s).timebase = s.timebase := rfl
@[simp] theorem onGroup_aclk (n : Nat) (f : Group → Group) : (onGroup n f s).aclk = s.aclk := rfl
@[simp] theorem onGroup_freeCtr (n : Nat) (f : Group → Group) : (onGroup n f s).freeCtr = s.freeCtr := rfl
@[simp] theorem onGroup_bring (n : Nat) (f : Group → Group) : (onGroup n f s).bring = s.bring := rfl
@[simp] theorem onGroup_cnt (n : Nat) (f : Group → Group) : (onGroup n f s).cnt = s.cnt := rfl
@[simp] theorem onGroup_ports (n : Nat) (f : Group → Group) : (onGroup n f s).ports = s.ports := rfl
@[simp] theorem onGroup_qps (n : Nat) (f : Group → Group) : (onGroup n f s).qps = s.qps := rfl
@[simp] theorem onGroup_mbx (n : Nat) (f : Group → Group) : (onGroup n f s).mbx = s.mbx := rfl
@[simp] theorem onGroup_cmds (n : Nat) (f : Group → Group) : (onGroup n f s).cmds = s.cmds := rfl
@[simp] theorem onGroup_nextId (n : Nat) (f : Group → Group) : (onGroup n f s).nextId = s.nextId := rfl
@[simp] theorem onGroup_rota (n : Nat) (f : Group → Group) : (onGroup n f s).rota = s.rota := rfl
@[simp] theorem onGroup_hostReads (n : Nat) (f : Group → Group) : (onGroup n f s).hostReads = s.hostReads := rfl
@[simp] theorem onGroup_hostOut (n : Nat) (f : Group → Group) : (onGroup n f s).hostOut = s.hostOut := rfl
@[simp] theorem onGroup_cplOut (n : Nat) (f : Group → Group) : (onGroup n f s).cplOut = s.cplOut := rfl
@[simp] theorem onGroup_fns (n : Nat) (f : Group → Group) : (onGroup n f s).fns = s.fns := rfl
@[simp] theorem onGroup_p2 (n : Nat) (f : Group → Group) : (onGroup n f s).p2 = s.p2 := rfl
@[simp] theorem onGroup_tap (n : Nat) (f : Group → Group) : (onGroup n f s).tap = s.tap := rfl
@[simp] theorem onGroup_slots (n : Nat) (f : Group → Group) : (onGroup n f s).slots = s.slots := rfl
@[simp] theorem onGroup_parts (n : Nat) (f : Group → Group) : (onGroup n f s).parts = s.parts := rfl
@[simp] theorem onGroup_locks (n : Nat) (f : Group → Group) : (onGroup n f s).locks = s.locks := rfl
@[simp] theorem onGroup_seqs (n : Nat) (f : Group → Group) : (onGroup n f s).seqs = s.seqs := rfl
@[simp] theorem onGroup_pools (n : Nat) (f : Group → Group) : (onGroup n f s).pools = s.pools := rfl
@[simp] theorem onGroup_mem (n : Nat) (f : Group → Group) : (onGroup n f s).mem = s.mem := rfl
@[simp] theorem onGroup_poison (n : Nat) (f : Group → Group) : (onGroup n f s).poison = s.poison := rfl
@[simp] theorem onGroup_pagePoison (n : Nat) (f : Group → Group) : (onGroup n f s).pagePoison = s.pagePoison := rfl
@[simp] theorem onGroup_windows (n : Nat) (f : Group → Group) : (onGroup n f s).windows = s.windows := rfl
@[simp] theorem onGroup_hostSpill (n : Nat) (f : Group → Group) : (onGroup n f s).hostSpill = s.hostSpill := rfl
@[simp] theorem onGroup_peerSpill (n : Nat) (f : Group → Group) : (onGroup n f s).peerSpill = s.peerSpill := rfl
@[simp] theorem onGroup_segs (n : Nat) (f : Group → Group) : (onGroup n f s).segs = s.segs := rfl
@[simp] theorem onGroup_ctxs (n : Nat) (f : Group → Group) : (onGroup n f s).ctxs = s.ctxs := rfl
@[simp] theorem onGroup_cm (n : Nat) (f : Group → Group) : (onGroup n f s).cm = s.cm := rfl
@[simp] theorem onGroup_sslots (n : Nat) (f : Group → Group) : (onGroup n f s).sslots = s.sslots := rfl
@[simp] theorem onGroup_jobs (n : Nat) (f : Group → Group) : (onGroup n f s).jobs = s.jobs := rfl
@[simp] theorem onGroup_engines (n : Nat) (f : Group → Group) : (onGroup n f s).engines = s.engines := rfl
@[simp] theorem onGroup_progs (n : Nat) (f : Group → Group) : (onGroup n f s).progs = s.progs := rfl
@[simp] theorem onGroup_loads (n : Nat) (f : Group → Group) : (onGroup n f s).loads = s.loads := rfl
@[simp] theorem onGroup_tiles (n : Nat) (f : Group → Group) : (onGroup n f s).tiles = s.tiles := rfl
@[simp] theorem onGroup_flights (n : Nat) (f : Group → Group) : (onGroup n f s).flights = s.flights := rfl
@[simp] theorem onGroup_mesh (n : Nat) (f : Group → Group) : (onGroup n f s).mesh = s.mesh := rfl
@[simp] theorem onGroup_reqs (n : Nat) (f : Group → Group) : (onGroup n f s).reqs = s.reqs := rfl
@[simp] theorem onGroup_netq (n : Nat) (f : Group → Group) : (onGroup n f s).netq = s.netq := rfl
@[simp] theorem onGroup_doms (n : Nat) (f : Group → Group) : (onGroup n f s).doms = s.doms := rfl
@[simp] theorem onGroup_pel (n : Nat) (f : Group → Group) : (onGroup n f s).pel = s.pel := rfl
@[simp] theorem onGroup_chans (n : Nat) (f : Group → Group) : (onGroup n f s).chans = s.chans := rfl
@[simp] theorem onGroup_groups (n : Nat) (f : Group → Group) : (onGroup n f s).groups = tmod s.groups n f := rfl
@[simp] theorem onGroup_loops (n : Nat) (f : Group → Group) : (onGroup n f s).loops = s.loops := rfl
@[simp] theorem onGroup_avs (n : Nat) (f : Group → Group) : (onGroup n f s).avs = s.avs := rfl
@[simp] theorem onGroup_samples (n : Nat) (f : Group → Group) : (onGroup n f s).samples = s.samples := rfl
@[simp] theorem onGroup_board (n : Nat) (f : Group → Group) : (onGroup n f s).board = s.board := rfl
@[simp] theorem onGroup_ledger (n : Nat) (f : Group → Group) : (onGroup n f s).ledger = s.ledger := rfl
@[simp] theorem onGroup_integ (n : Nat) (f : Group → Group) : (onGroup n f s).integ = s.integ := rfl
@[simp] theorem onGroup_owl (n : Nat) (f : Group → Group) : (onGroup n f s).owl = s.owl := rfl
@[simp] theorem onGroup_fw (n : Nat) (f : Group → Group) : (onGroup n f s).fw = s.fw := rfl

/-! ### onLoop -/

@[simp] theorem onLoop_pending (n : Nat) (f : KLoop → KLoop) : (onLoop n f s).pending = s.pending := rfl
@[simp] theorem onLoop_timebase (n : Nat) (f : KLoop → KLoop) : (onLoop n f s).timebase = s.timebase := rfl
@[simp] theorem onLoop_aclk (n : Nat) (f : KLoop → KLoop) : (onLoop n f s).aclk = s.aclk := rfl
@[simp] theorem onLoop_freeCtr (n : Nat) (f : KLoop → KLoop) : (onLoop n f s).freeCtr = s.freeCtr := rfl
@[simp] theorem onLoop_bring (n : Nat) (f : KLoop → KLoop) : (onLoop n f s).bring = s.bring := rfl
@[simp] theorem onLoop_cnt (n : Nat) (f : KLoop → KLoop) : (onLoop n f s).cnt = s.cnt := rfl
@[simp] theorem onLoop_ports (n : Nat) (f : KLoop → KLoop) : (onLoop n f s).ports = s.ports := rfl
@[simp] theorem onLoop_qps (n : Nat) (f : KLoop → KLoop) : (onLoop n f s).qps = s.qps := rfl
@[simp] theorem onLoop_mbx (n : Nat) (f : KLoop → KLoop) : (onLoop n f s).mbx = s.mbx := rfl
@[simp] theorem onLoop_cmds (n : Nat) (f : KLoop → KLoop) : (onLoop n f s).cmds = s.cmds := rfl
@[simp] theorem onLoop_nextId (n : Nat) (f : KLoop → KLoop) : (onLoop n f s).nextId = s.nextId := rfl
@[simp] theorem onLoop_rota (n : Nat) (f : KLoop → KLoop) : (onLoop n f s).rota = s.rota := rfl
@[simp] theorem onLoop_hostReads (n : Nat) (f : KLoop → KLoop) : (onLoop n f s).hostReads = s.hostReads := rfl
@[simp] theorem onLoop_hostOut (n : Nat) (f : KLoop → KLoop) : (onLoop n f s).hostOut = s.hostOut := rfl
@[simp] theorem onLoop_cplOut (n : Nat) (f : KLoop → KLoop) : (onLoop n f s).cplOut = s.cplOut := rfl
@[simp] theorem onLoop_fns (n : Nat) (f : KLoop → KLoop) : (onLoop n f s).fns = s.fns := rfl
@[simp] theorem onLoop_p2 (n : Nat) (f : KLoop → KLoop) : (onLoop n f s).p2 = s.p2 := rfl
@[simp] theorem onLoop_tap (n : Nat) (f : KLoop → KLoop) : (onLoop n f s).tap = s.tap := rfl
@[simp] theorem onLoop_slots (n : Nat) (f : KLoop → KLoop) : (onLoop n f s).slots = s.slots := rfl
@[simp] theorem onLoop_parts (n : Nat) (f : KLoop → KLoop) : (onLoop n f s).parts = s.parts := rfl
@[simp] theorem onLoop_locks (n : Nat) (f : KLoop → KLoop) : (onLoop n f s).locks = s.locks := rfl
@[simp] theorem onLoop_seqs (n : Nat) (f : KLoop → KLoop) : (onLoop n f s).seqs = s.seqs := rfl
@[simp] theorem onLoop_pools (n : Nat) (f : KLoop → KLoop) : (onLoop n f s).pools = s.pools := rfl
@[simp] theorem onLoop_mem (n : Nat) (f : KLoop → KLoop) : (onLoop n f s).mem = s.mem := rfl
@[simp] theorem onLoop_poison (n : Nat) (f : KLoop → KLoop) : (onLoop n f s).poison = s.poison := rfl
@[simp] theorem onLoop_pagePoison (n : Nat) (f : KLoop → KLoop) : (onLoop n f s).pagePoison = s.pagePoison := rfl
@[simp] theorem onLoop_windows (n : Nat) (f : KLoop → KLoop) : (onLoop n f s).windows = s.windows := rfl
@[simp] theorem onLoop_hostSpill (n : Nat) (f : KLoop → KLoop) : (onLoop n f s).hostSpill = s.hostSpill := rfl
@[simp] theorem onLoop_peerSpill (n : Nat) (f : KLoop → KLoop) : (onLoop n f s).peerSpill = s.peerSpill := rfl
@[simp] theorem onLoop_segs (n : Nat) (f : KLoop → KLoop) : (onLoop n f s).segs = s.segs := rfl
@[simp] theorem onLoop_ctxs (n : Nat) (f : KLoop → KLoop) : (onLoop n f s).ctxs = s.ctxs := rfl
@[simp] theorem onLoop_cm (n : Nat) (f : KLoop → KLoop) : (onLoop n f s).cm = s.cm := rfl
@[simp] theorem onLoop_sslots (n : Nat) (f : KLoop → KLoop) : (onLoop n f s).sslots = s.sslots := rfl
@[simp] theorem onLoop_jobs (n : Nat) (f : KLoop → KLoop) : (onLoop n f s).jobs = s.jobs := rfl
@[simp] theorem onLoop_engines (n : Nat) (f : KLoop → KLoop) : (onLoop n f s).engines = s.engines := rfl
@[simp] theorem onLoop_progs (n : Nat) (f : KLoop → KLoop) : (onLoop n f s).progs = s.progs := rfl
@[simp] theorem onLoop_loads (n : Nat) (f : KLoop → KLoop) : (onLoop n f s).loads = s.loads := rfl
@[simp] theorem onLoop_tiles (n : Nat) (f : KLoop → KLoop) : (onLoop n f s).tiles = s.tiles := rfl
@[simp] theorem onLoop_flights (n : Nat) (f : KLoop → KLoop) : (onLoop n f s).flights = s.flights := rfl
@[simp] theorem onLoop_mesh (n : Nat) (f : KLoop → KLoop) : (onLoop n f s).mesh = s.mesh := rfl
@[simp] theorem onLoop_reqs (n : Nat) (f : KLoop → KLoop) : (onLoop n f s).reqs = s.reqs := rfl
@[simp] theorem onLoop_netq (n : Nat) (f : KLoop → KLoop) : (onLoop n f s).netq = s.netq := rfl
@[simp] theorem onLoop_doms (n : Nat) (f : KLoop → KLoop) : (onLoop n f s).doms = s.doms := rfl
@[simp] theorem onLoop_pel (n : Nat) (f : KLoop → KLoop) : (onLoop n f s).pel = s.pel := rfl
@[simp] theorem onLoop_chans (n : Nat) (f : KLoop → KLoop) : (onLoop n f s).chans = s.chans := rfl
@[simp] theorem onLoop_groups (n : Nat) (f : KLoop → KLoop) : (onLoop n f s).groups = s.groups := rfl
@[simp] theorem onLoop_loops (n : Nat) (f : KLoop → KLoop) : (onLoop n f s).loops = tmod s.loops n f := rfl
@[simp] theorem onLoop_avs (n : Nat) (f : KLoop → KLoop) : (onLoop n f s).avs = s.avs := rfl
@[simp] theorem onLoop_samples (n : Nat) (f : KLoop → KLoop) : (onLoop n f s).samples = s.samples := rfl
@[simp] theorem onLoop_board (n : Nat) (f : KLoop → KLoop) : (onLoop n f s).board = s.board := rfl
@[simp] theorem onLoop_ledger (n : Nat) (f : KLoop → KLoop) : (onLoop n f s).ledger = s.ledger := rfl
@[simp] theorem onLoop_integ (n : Nat) (f : KLoop → KLoop) : (onLoop n f s).integ = s.integ := rfl
@[simp] theorem onLoop_owl (n : Nat) (f : KLoop → KLoop) : (onLoop n f s).owl = s.owl := rfl
@[simp] theorem onLoop_fw (n : Nat) (f : KLoop → KLoop) : (onLoop n f s).fw = s.fw := rfl

/-! ### onDom -/

@[simp] theorem onDom_pending (n : Nat) (f : Domain → Domain) : (onDom n f s).pending = s.pending := rfl
@[simp] theorem onDom_timebase (n : Nat) (f : Domain → Domain) : (onDom n f s).timebase = s.timebase := rfl
@[simp] theorem onDom_aclk (n : Nat) (f : Domain → Domain) : (onDom n f s).aclk = s.aclk := rfl
@[simp] theorem onDom_freeCtr (n : Nat) (f : Domain → Domain) : (onDom n f s).freeCtr = s.freeCtr := rfl
@[simp] theorem onDom_bring (n : Nat) (f : Domain → Domain) : (onDom n f s).bring = s.bring := rfl
@[simp] theorem onDom_cnt (n : Nat) (f : Domain → Domain) : (onDom n f s).cnt = s.cnt := rfl
@[simp] theorem onDom_ports (n : Nat) (f : Domain → Domain) : (onDom n f s).ports = s.ports := rfl
@[simp] theorem onDom_qps (n : Nat) (f : Domain → Domain) : (onDom n f s).qps = s.qps := rfl
@[simp] theorem onDom_mbx (n : Nat) (f : Domain → Domain) : (onDom n f s).mbx = s.mbx := rfl
@[simp] theorem onDom_cmds (n : Nat) (f : Domain → Domain) : (onDom n f s).cmds = s.cmds := rfl
@[simp] theorem onDom_nextId (n : Nat) (f : Domain → Domain) : (onDom n f s).nextId = s.nextId := rfl
@[simp] theorem onDom_rota (n : Nat) (f : Domain → Domain) : (onDom n f s).rota = s.rota := rfl
@[simp] theorem onDom_hostReads (n : Nat) (f : Domain → Domain) : (onDom n f s).hostReads = s.hostReads := rfl
@[simp] theorem onDom_hostOut (n : Nat) (f : Domain → Domain) : (onDom n f s).hostOut = s.hostOut := rfl
@[simp] theorem onDom_cplOut (n : Nat) (f : Domain → Domain) : (onDom n f s).cplOut = s.cplOut := rfl
@[simp] theorem onDom_fns (n : Nat) (f : Domain → Domain) : (onDom n f s).fns = s.fns := rfl
@[simp] theorem onDom_p2 (n : Nat) (f : Domain → Domain) : (onDom n f s).p2 = s.p2 := rfl
@[simp] theorem onDom_tap (n : Nat) (f : Domain → Domain) : (onDom n f s).tap = s.tap := rfl
@[simp] theorem onDom_slots (n : Nat) (f : Domain → Domain) : (onDom n f s).slots = s.slots := rfl
@[simp] theorem onDom_parts (n : Nat) (f : Domain → Domain) : (onDom n f s).parts = s.parts := rfl
@[simp] theorem onDom_locks (n : Nat) (f : Domain → Domain) : (onDom n f s).locks = s.locks := rfl
@[simp] theorem onDom_seqs (n : Nat) (f : Domain → Domain) : (onDom n f s).seqs = s.seqs := rfl
@[simp] theorem onDom_pools (n : Nat) (f : Domain → Domain) : (onDom n f s).pools = s.pools := rfl
@[simp] theorem onDom_mem (n : Nat) (f : Domain → Domain) : (onDom n f s).mem = s.mem := rfl
@[simp] theorem onDom_poison (n : Nat) (f : Domain → Domain) : (onDom n f s).poison = s.poison := rfl
@[simp] theorem onDom_pagePoison (n : Nat) (f : Domain → Domain) : (onDom n f s).pagePoison = s.pagePoison := rfl
@[simp] theorem onDom_windows (n : Nat) (f : Domain → Domain) : (onDom n f s).windows = s.windows := rfl
@[simp] theorem onDom_hostSpill (n : Nat) (f : Domain → Domain) : (onDom n f s).hostSpill = s.hostSpill := rfl
@[simp] theorem onDom_peerSpill (n : Nat) (f : Domain → Domain) : (onDom n f s).peerSpill = s.peerSpill := rfl
@[simp] theorem onDom_segs (n : Nat) (f : Domain → Domain) : (onDom n f s).segs = s.segs := rfl
@[simp] theorem onDom_ctxs (n : Nat) (f : Domain → Domain) : (onDom n f s).ctxs = s.ctxs := rfl
@[simp] theorem onDom_cm (n : Nat) (f : Domain → Domain) : (onDom n f s).cm = s.cm := rfl
@[simp] theorem onDom_sslots (n : Nat) (f : Domain → Domain) : (onDom n f s).sslots = s.sslots := rfl
@[simp] theorem onDom_jobs (n : Nat) (f : Domain → Domain) : (onDom n f s).jobs = s.jobs := rfl
@[simp] theorem onDom_engines (n : Nat) (f : Domain → Domain) : (onDom n f s).engines = s.engines := rfl
@[simp] theorem onDom_progs (n : Nat) (f : Domain → Domain) : (onDom n f s).progs = s.progs := rfl
@[simp] theorem onDom_loads (n : Nat) (f : Domain → Domain) : (onDom n f s).loads = s.loads := rfl
@[simp] theorem onDom_tiles (n : Nat) (f : Domain → Domain) : (onDom n f s).tiles = s.tiles := rfl
@[simp] theorem onDom_flights (n : Nat) (f : Domain → Domain) : (onDom n f s).flights = s.flights := rfl
@[simp] theorem onDom_mesh (n : Nat) (f : Domain → Domain) : (onDom n f s).mesh = s.mesh := rfl
@[simp] theorem onDom_reqs (n : Nat) (f : Domain → Domain) : (onDom n f s).reqs = s.reqs := rfl
@[simp] theorem onDom_netq (n : Nat) (f : Domain → Domain) : (onDom n f s).netq = s.netq := rfl
@[simp] theorem onDom_doms (n : Nat) (f : Domain → Domain) : (onDom n f s).doms = tmod s.doms n f := rfl
@[simp] theorem onDom_pel (n : Nat) (f : Domain → Domain) : (onDom n f s).pel = s.pel := rfl
@[simp] theorem onDom_chans (n : Nat) (f : Domain → Domain) : (onDom n f s).chans = s.chans := rfl
@[simp] theorem onDom_groups (n : Nat) (f : Domain → Domain) : (onDom n f s).groups = s.groups := rfl
@[simp] theorem onDom_loops (n : Nat) (f : Domain → Domain) : (onDom n f s).loops = s.loops := rfl
@[simp] theorem onDom_avs (n : Nat) (f : Domain → Domain) : (onDom n f s).avs = s.avs := rfl
@[simp] theorem onDom_samples (n : Nat) (f : Domain → Domain) : (onDom n f s).samples = s.samples := rfl
@[simp] theorem onDom_board (n : Nat) (f : Domain → Domain) : (onDom n f s).board = s.board := rfl
@[simp] theorem onDom_ledger (n : Nat) (f : Domain → Domain) : (onDom n f s).ledger = s.ledger := rfl
@[simp] theorem onDom_integ (n : Nat) (f : Domain → Domain) : (onDom n f s).integ = s.integ := rfl
@[simp] theorem onDom_owl (n : Nat) (f : Domain → Domain) : (onDom n f s).owl = s.owl := rfl
@[simp] theorem onDom_fw (n : Nat) (f : Domain → Domain) : (onDom n f s).fw = s.fw := rfl

/-! ### onFn -/

@[simp] theorem onFn_pending (n : Nat) (f : PcieFn → PcieFn) : (onFn n f s).pending = s.pending := rfl
@[simp] theorem onFn_timebase (n : Nat) (f : PcieFn → PcieFn) : (onFn n f s).timebase = s.timebase := rfl
@[simp] theorem onFn_aclk (n : Nat) (f : PcieFn → PcieFn) : (onFn n f s).aclk = s.aclk := rfl
@[simp] theorem onFn_freeCtr (n : Nat) (f : PcieFn → PcieFn) : (onFn n f s).freeCtr = s.freeCtr := rfl
@[simp] theorem onFn_bring (n : Nat) (f : PcieFn → PcieFn) : (onFn n f s).bring = s.bring := rfl
@[simp] theorem onFn_cnt (n : Nat) (f : PcieFn → PcieFn) : (onFn n f s).cnt = s.cnt := rfl
@[simp] theorem onFn_ports (n : Nat) (f : PcieFn → PcieFn) : (onFn n f s).ports = s.ports := rfl
@[simp] theorem onFn_qps (n : Nat) (f : PcieFn → PcieFn) : (onFn n f s).qps = s.qps := rfl
@[simp] theorem onFn_mbx (n : Nat) (f : PcieFn → PcieFn) : (onFn n f s).mbx = s.mbx := rfl
@[simp] theorem onFn_cmds (n : Nat) (f : PcieFn → PcieFn) : (onFn n f s).cmds = s.cmds := rfl
@[simp] theorem onFn_nextId (n : Nat) (f : PcieFn → PcieFn) : (onFn n f s).nextId = s.nextId := rfl
@[simp] theorem onFn_rota (n : Nat) (f : PcieFn → PcieFn) : (onFn n f s).rota = s.rota := rfl
@[simp] theorem onFn_hostReads (n : Nat) (f : PcieFn → PcieFn) : (onFn n f s).hostReads = s.hostReads := rfl
@[simp] theorem onFn_hostOut (n : Nat) (f : PcieFn → PcieFn) : (onFn n f s).hostOut = s.hostOut := rfl
@[simp] theorem onFn_cplOut (n : Nat) (f : PcieFn → PcieFn) : (onFn n f s).cplOut = s.cplOut := rfl
@[simp] theorem onFn_fns (n : Nat) (f : PcieFn → PcieFn) : (onFn n f s).fns = tmod s.fns n f := rfl
@[simp] theorem onFn_p2 (n : Nat) (f : PcieFn → PcieFn) : (onFn n f s).p2 = s.p2 := rfl
@[simp] theorem onFn_tap (n : Nat) (f : PcieFn → PcieFn) : (onFn n f s).tap = s.tap := rfl
@[simp] theorem onFn_slots (n : Nat) (f : PcieFn → PcieFn) : (onFn n f s).slots = s.slots := rfl
@[simp] theorem onFn_parts (n : Nat) (f : PcieFn → PcieFn) : (onFn n f s).parts = s.parts := rfl
@[simp] theorem onFn_locks (n : Nat) (f : PcieFn → PcieFn) : (onFn n f s).locks = s.locks := rfl
@[simp] theorem onFn_seqs (n : Nat) (f : PcieFn → PcieFn) : (onFn n f s).seqs = s.seqs := rfl
@[simp] theorem onFn_pools (n : Nat) (f : PcieFn → PcieFn) : (onFn n f s).pools = s.pools := rfl
@[simp] theorem onFn_mem (n : Nat) (f : PcieFn → PcieFn) : (onFn n f s).mem = s.mem := rfl
@[simp] theorem onFn_poison (n : Nat) (f : PcieFn → PcieFn) : (onFn n f s).poison = s.poison := rfl
@[simp] theorem onFn_pagePoison (n : Nat) (f : PcieFn → PcieFn) : (onFn n f s).pagePoison = s.pagePoison := rfl
@[simp] theorem onFn_windows (n : Nat) (f : PcieFn → PcieFn) : (onFn n f s).windows = s.windows := rfl
@[simp] theorem onFn_hostSpill (n : Nat) (f : PcieFn → PcieFn) : (onFn n f s).hostSpill = s.hostSpill := rfl
@[simp] theorem onFn_peerSpill (n : Nat) (f : PcieFn → PcieFn) : (onFn n f s).peerSpill = s.peerSpill := rfl
@[simp] theorem onFn_segs (n : Nat) (f : PcieFn → PcieFn) : (onFn n f s).segs = s.segs := rfl
@[simp] theorem onFn_ctxs (n : Nat) (f : PcieFn → PcieFn) : (onFn n f s).ctxs = s.ctxs := rfl
@[simp] theorem onFn_cm (n : Nat) (f : PcieFn → PcieFn) : (onFn n f s).cm = s.cm := rfl
@[simp] theorem onFn_sslots (n : Nat) (f : PcieFn → PcieFn) : (onFn n f s).sslots = s.sslots := rfl
@[simp] theorem onFn_jobs (n : Nat) (f : PcieFn → PcieFn) : (onFn n f s).jobs = s.jobs := rfl
@[simp] theorem onFn_engines (n : Nat) (f : PcieFn → PcieFn) : (onFn n f s).engines = s.engines := rfl
@[simp] theorem onFn_progs (n : Nat) (f : PcieFn → PcieFn) : (onFn n f s).progs = s.progs := rfl
@[simp] theorem onFn_loads (n : Nat) (f : PcieFn → PcieFn) : (onFn n f s).loads = s.loads := rfl
@[simp] theorem onFn_tiles (n : Nat) (f : PcieFn → PcieFn) : (onFn n f s).tiles = s.tiles := rfl
@[simp] theorem onFn_flights (n : Nat) (f : PcieFn → PcieFn) : (onFn n f s).flights = s.flights := rfl
@[simp] theorem onFn_mesh (n : Nat) (f : PcieFn → PcieFn) : (onFn n f s).mesh = s.mesh := rfl
@[simp] theorem onFn_reqs (n : Nat) (f : PcieFn → PcieFn) : (onFn n f s).reqs = s.reqs := rfl
@[simp] theorem onFn_netq (n : Nat) (f : PcieFn → PcieFn) : (onFn n f s).netq = s.netq := rfl
@[simp] theorem onFn_doms (n : Nat) (f : PcieFn → PcieFn) : (onFn n f s).doms = s.doms := rfl
@[simp] theorem onFn_pel (n : Nat) (f : PcieFn → PcieFn) : (onFn n f s).pel = s.pel := rfl
@[simp] theorem onFn_chans (n : Nat) (f : PcieFn → PcieFn) : (onFn n f s).chans = s.chans := rfl
@[simp] theorem onFn_groups (n : Nat) (f : PcieFn → PcieFn) : (onFn n f s).groups = s.groups := rfl
@[simp] theorem onFn_loops (n : Nat) (f : PcieFn → PcieFn) : (onFn n f s).loops = s.loops := rfl
@[simp] theorem onFn_avs (n : Nat) (f : PcieFn → PcieFn) : (onFn n f s).avs = s.avs := rfl
@[simp] theorem onFn_samples (n : Nat) (f : PcieFn → PcieFn) : (onFn n f s).samples = s.samples := rfl
@[simp] theorem onFn_board (n : Nat) (f : PcieFn → PcieFn) : (onFn n f s).board = s.board := rfl
@[simp] theorem onFn_ledger (n : Nat) (f : PcieFn → PcieFn) : (onFn n f s).ledger = s.ledger := rfl
@[simp] theorem onFn_integ (n : Nat) (f : PcieFn → PcieFn) : (onFn n f s).integ = s.integ := rfl
@[simp] theorem onFn_owl (n : Nat) (f : PcieFn → PcieFn) : (onFn n f s).owl = s.owl := rfl
@[simp] theorem onFn_fw (n : Nat) (f : PcieFn → PcieFn) : (onFn n f s).fw = s.fw := rfl

/-! ### onBoard -/

@[simp] theorem onBoard_pending (f : Board → Board) : (onBoard f s).pending = s.pending := rfl
@[simp] theorem onBoard_timebase (f : Board → Board) : (onBoard f s).timebase = s.timebase := rfl
@[simp] theorem onBoard_aclk (f : Board → Board) : (onBoard f s).aclk = s.aclk := rfl
@[simp] theorem onBoard_freeCtr (f : Board → Board) : (onBoard f s).freeCtr = s.freeCtr := rfl
@[simp] theorem onBoard_bring (f : Board → Board) : (onBoard f s).bring = s.bring := rfl
@[simp] theorem onBoard_cnt (f : Board → Board) : (onBoard f s).cnt = s.cnt := rfl
@[simp] theorem onBoard_ports (f : Board → Board) : (onBoard f s).ports = s.ports := rfl
@[simp] theorem onBoard_qps (f : Board → Board) : (onBoard f s).qps = s.qps := rfl
@[simp] theorem onBoard_mbx (f : Board → Board) : (onBoard f s).mbx = s.mbx := rfl
@[simp] theorem onBoard_cmds (f : Board → Board) : (onBoard f s).cmds = s.cmds := rfl
@[simp] theorem onBoard_nextId (f : Board → Board) : (onBoard f s).nextId = s.nextId := rfl
@[simp] theorem onBoard_rota (f : Board → Board) : (onBoard f s).rota = s.rota := rfl
@[simp] theorem onBoard_hostReads (f : Board → Board) : (onBoard f s).hostReads = s.hostReads := rfl
@[simp] theorem onBoard_hostOut (f : Board → Board) : (onBoard f s).hostOut = s.hostOut := rfl
@[simp] theorem onBoard_cplOut (f : Board → Board) : (onBoard f s).cplOut = s.cplOut := rfl
@[simp] theorem onBoard_fns (f : Board → Board) : (onBoard f s).fns = s.fns := rfl
@[simp] theorem onBoard_p2 (f : Board → Board) : (onBoard f s).p2 = s.p2 := rfl
@[simp] theorem onBoard_tap (f : Board → Board) : (onBoard f s).tap = s.tap := rfl
@[simp] theorem onBoard_slots (f : Board → Board) : (onBoard f s).slots = s.slots := rfl
@[simp] theorem onBoard_parts (f : Board → Board) : (onBoard f s).parts = s.parts := rfl
@[simp] theorem onBoard_locks (f : Board → Board) : (onBoard f s).locks = s.locks := rfl
@[simp] theorem onBoard_seqs (f : Board → Board) : (onBoard f s).seqs = s.seqs := rfl
@[simp] theorem onBoard_pools (f : Board → Board) : (onBoard f s).pools = s.pools := rfl
@[simp] theorem onBoard_mem (f : Board → Board) : (onBoard f s).mem = s.mem := rfl
@[simp] theorem onBoard_poison (f : Board → Board) : (onBoard f s).poison = s.poison := rfl
@[simp] theorem onBoard_pagePoison (f : Board → Board) : (onBoard f s).pagePoison = s.pagePoison := rfl
@[simp] theorem onBoard_windows (f : Board → Board) : (onBoard f s).windows = s.windows := rfl
@[simp] theorem onBoard_hostSpill (f : Board → Board) : (onBoard f s).hostSpill = s.hostSpill := rfl
@[simp] theorem onBoard_peerSpill (f : Board → Board) : (onBoard f s).peerSpill = s.peerSpill := rfl
@[simp] theorem onBoard_segs (f : Board → Board) : (onBoard f s).segs = s.segs := rfl
@[simp] theorem onBoard_ctxs (f : Board → Board) : (onBoard f s).ctxs = s.ctxs := rfl
@[simp] theorem onBoard_cm (f : Board → Board) : (onBoard f s).cm = s.cm := rfl
@[simp] theorem onBoard_sslots (f : Board → Board) : (onBoard f s).sslots = s.sslots := rfl
@[simp] theorem onBoard_jobs (f : Board → Board) : (onBoard f s).jobs = s.jobs := rfl
@[simp] theorem onBoard_engines (f : Board → Board) : (onBoard f s).engines = s.engines := rfl
@[simp] theorem onBoard_progs (f : Board → Board) : (onBoard f s).progs = s.progs := rfl
@[simp] theorem onBoard_loads (f : Board → Board) : (onBoard f s).loads = s.loads := rfl
@[simp] theorem onBoard_tiles (f : Board → Board) : (onBoard f s).tiles = s.tiles := rfl
@[simp] theorem onBoard_flights (f : Board → Board) : (onBoard f s).flights = s.flights := rfl
@[simp] theorem onBoard_mesh (f : Board → Board) : (onBoard f s).mesh = s.mesh := rfl
@[simp] theorem onBoard_reqs (f : Board → Board) : (onBoard f s).reqs = s.reqs := rfl
@[simp] theorem onBoard_netq (f : Board → Board) : (onBoard f s).netq = s.netq := rfl
@[simp] theorem onBoard_doms (f : Board → Board) : (onBoard f s).doms = s.doms := rfl
@[simp] theorem onBoard_pel (f : Board → Board) : (onBoard f s).pel = s.pel := rfl
@[simp] theorem onBoard_chans (f : Board → Board) : (onBoard f s).chans = s.chans := rfl
@[simp] theorem onBoard_groups (f : Board → Board) : (onBoard f s).groups = s.groups := rfl
@[simp] theorem onBoard_loops (f : Board → Board) : (onBoard f s).loops = s.loops := rfl
@[simp] theorem onBoard_avs (f : Board → Board) : (onBoard f s).avs = s.avs := rfl
@[simp] theorem onBoard_samples (f : Board → Board) : (onBoard f s).samples = s.samples := rfl
@[simp] theorem onBoard_board (f : Board → Board) : (onBoard f s).board = f s.board := rfl
@[simp] theorem onBoard_ledger (f : Board → Board) : (onBoard f s).ledger = s.ledger := rfl
@[simp] theorem onBoard_integ (f : Board → Board) : (onBoard f s).integ = s.integ := rfl
@[simp] theorem onBoard_owl (f : Board → Board) : (onBoard f s).owl = s.owl := rfl
@[simp] theorem onBoard_fw (f : Board → Board) : (onBoard f s).fw = s.fw := rfl

/-! ### onInteg -/

@[simp] theorem onInteg_pending (f : Integ → Integ) : (onInteg f s).pending = s.pending := rfl
@[simp] theorem onInteg_timebase (f : Integ → Integ) : (onInteg f s).timebase = s.timebase := rfl
@[simp] theorem onInteg_aclk (f : Integ → Integ) : (onInteg f s).aclk = s.aclk := rfl
@[simp] theorem onInteg_freeCtr (f : Integ → Integ) : (onInteg f s).freeCtr = s.freeCtr := rfl
@[simp] theorem onInteg_bring (f : Integ → Integ) : (onInteg f s).bring = s.bring := rfl
@[simp] theorem onInteg_cnt (f : Integ → Integ) : (onInteg f s).cnt = s.cnt := rfl
@[simp] theorem onInteg_ports (f : Integ → Integ) : (onInteg f s).ports = s.ports := rfl
@[simp] theorem onInteg_qps (f : Integ → Integ) : (onInteg f s).qps = s.qps := rfl
@[simp] theorem onInteg_mbx (f : Integ → Integ) : (onInteg f s).mbx = s.mbx := rfl
@[simp] theorem onInteg_cmds (f : Integ → Integ) : (onInteg f s).cmds = s.cmds := rfl
@[simp] theorem onInteg_nextId (f : Integ → Integ) : (onInteg f s).nextId = s.nextId := rfl
@[simp] theorem onInteg_rota (f : Integ → Integ) : (onInteg f s).rota = s.rota := rfl
@[simp] theorem onInteg_hostReads (f : Integ → Integ) : (onInteg f s).hostReads = s.hostReads := rfl
@[simp] theorem onInteg_hostOut (f : Integ → Integ) : (onInteg f s).hostOut = s.hostOut := rfl
@[simp] theorem onInteg_cplOut (f : Integ → Integ) : (onInteg f s).cplOut = s.cplOut := rfl
@[simp] theorem onInteg_fns (f : Integ → Integ) : (onInteg f s).fns = s.fns := rfl
@[simp] theorem onInteg_p2 (f : Integ → Integ) : (onInteg f s).p2 = s.p2 := rfl
@[simp] theorem onInteg_tap (f : Integ → Integ) : (onInteg f s).tap = s.tap := rfl
@[simp] theorem onInteg_slots (f : Integ → Integ) : (onInteg f s).slots = s.slots := rfl
@[simp] theorem onInteg_parts (f : Integ → Integ) : (onInteg f s).parts = s.parts := rfl
@[simp] theorem onInteg_locks (f : Integ → Integ) : (onInteg f s).locks = s.locks := rfl
@[simp] theorem onInteg_seqs (f : Integ → Integ) : (onInteg f s).seqs = s.seqs := rfl
@[simp] theorem onInteg_pools (f : Integ → Integ) : (onInteg f s).pools = s.pools := rfl
@[simp] theorem onInteg_mem (f : Integ → Integ) : (onInteg f s).mem = s.mem := rfl
@[simp] theorem onInteg_poison (f : Integ → Integ) : (onInteg f s).poison = s.poison := rfl
@[simp] theorem onInteg_pagePoison (f : Integ → Integ) : (onInteg f s).pagePoison = s.pagePoison := rfl
@[simp] theorem onInteg_windows (f : Integ → Integ) : (onInteg f s).windows = s.windows := rfl
@[simp] theorem onInteg_hostSpill (f : Integ → Integ) : (onInteg f s).hostSpill = s.hostSpill := rfl
@[simp] theorem onInteg_peerSpill (f : Integ → Integ) : (onInteg f s).peerSpill = s.peerSpill := rfl
@[simp] theorem onInteg_segs (f : Integ → Integ) : (onInteg f s).segs = s.segs := rfl
@[simp] theorem onInteg_ctxs (f : Integ → Integ) : (onInteg f s).ctxs = s.ctxs := rfl
@[simp] theorem onInteg_cm (f : Integ → Integ) : (onInteg f s).cm = s.cm := rfl
@[simp] theorem onInteg_sslots (f : Integ → Integ) : (onInteg f s).sslots = s.sslots := rfl
@[simp] theorem onInteg_jobs (f : Integ → Integ) : (onInteg f s).jobs = s.jobs := rfl
@[simp] theorem onInteg_engines (f : Integ → Integ) : (onInteg f s).engines = s.engines := rfl
@[simp] theorem onInteg_progs (f : Integ → Integ) : (onInteg f s).progs = s.progs := rfl
@[simp] theorem onInteg_loads (f : Integ → Integ) : (onInteg f s).loads = s.loads := rfl
@[simp] theorem onInteg_tiles (f : Integ → Integ) : (onInteg f s).tiles = s.tiles := rfl
@[simp] theorem onInteg_flights (f : Integ → Integ) : (onInteg f s).flights = s.flights := rfl
@[simp] theorem onInteg_mesh (f : Integ → Integ) : (onInteg f s).mesh = s.mesh := rfl
@[simp] theorem onInteg_reqs (f : Integ → Integ) : (onInteg f s).reqs = s.reqs := rfl
@[simp] theorem onInteg_netq (f : Integ → Integ) : (onInteg f s).netq = s.netq := rfl
@[simp] theorem onInteg_doms (f : Integ → Integ) : (onInteg f s).doms = s.doms := rfl
@[simp] theorem onInteg_pel (f : Integ → Integ) : (onInteg f s).pel = s.pel := rfl
@[simp] theorem onInteg_chans (f : Integ → Integ) : (onInteg f s).chans = s.chans := rfl
@[simp] theorem onInteg_groups (f : Integ → Integ) : (onInteg f s).groups = s.groups := rfl
@[simp] theorem onInteg_loops (f : Integ → Integ) : (onInteg f s).loops = s.loops := rfl
@[simp] theorem onInteg_avs (f : Integ → Integ) : (onInteg f s).avs = s.avs := rfl
@[simp] theorem onInteg_samples (f : Integ → Integ) : (onInteg f s).samples = s.samples := rfl
@[simp] theorem onInteg_board (f : Integ → Integ) : (onInteg f s).board = s.board := rfl
@[simp] theorem onInteg_ledger (f : Integ → Integ) : (onInteg f s).ledger = s.ledger := rfl
@[simp] theorem onInteg_integ (f : Integ → Integ) : (onInteg f s).integ = f s.integ := rfl
@[simp] theorem onInteg_owl (f : Integ → Integ) : (onInteg f s).owl = s.owl := rfl
@[simp] theorem onInteg_fw (f : Integ → Integ) : (onInteg f s).fw = s.fw := rfl

/-! ### onTap -/

@[simp] theorem onTap_pending (f : TapSt → TapSt) : (onTap f s).pending = s.pending := rfl
@[simp] theorem onTap_timebase (f : TapSt → TapSt) : (onTap f s).timebase = s.timebase := rfl
@[simp] theorem onTap_aclk (f : TapSt → TapSt) : (onTap f s).aclk = s.aclk := rfl
@[simp] theorem onTap_freeCtr (f : TapSt → TapSt) : (onTap f s).freeCtr = s.freeCtr := rfl
@[simp] theorem onTap_bring (f : TapSt → TapSt) : (onTap f s).bring = s.bring := rfl
@[simp] theorem onTap_cnt (f : TapSt → TapSt) : (onTap f s).cnt = s.cnt := rfl
@[simp] theorem onTap_ports (f : TapSt → TapSt) : (onTap f s).ports = s.ports := rfl
@[simp] theorem onTap_qps (f : TapSt → TapSt) : (onTap f s).qps = s.qps := rfl
@[simp] theorem onTap_mbx (f : TapSt → TapSt) : (onTap f s).mbx = s.mbx := rfl
@[simp] theorem onTap_cmds (f : TapSt → TapSt) : (onTap f s).cmds = s.cmds := rfl
@[simp] theorem onTap_nextId (f : TapSt → TapSt) : (onTap f s).nextId = s.nextId := rfl
@[simp] theorem onTap_rota (f : TapSt → TapSt) : (onTap f s).rota = s.rota := rfl
@[simp] theorem onTap_hostReads (f : TapSt → TapSt) : (onTap f s).hostReads = s.hostReads := rfl
@[simp] theorem onTap_hostOut (f : TapSt → TapSt) : (onTap f s).hostOut = s.hostOut := rfl
@[simp] theorem onTap_cplOut (f : TapSt → TapSt) : (onTap f s).cplOut = s.cplOut := rfl
@[simp] theorem onTap_fns (f : TapSt → TapSt) : (onTap f s).fns = s.fns := rfl
@[simp] theorem onTap_p2 (f : TapSt → TapSt) : (onTap f s).p2 = s.p2 := rfl
@[simp] theorem onTap_tap (f : TapSt → TapSt) : (onTap f s).tap = f s.tap := rfl
@[simp] theorem onTap_slots (f : TapSt → TapSt) : (onTap f s).slots = s.slots := rfl
@[simp] theorem onTap_parts (f : TapSt → TapSt) : (onTap f s).parts = s.parts := rfl
@[simp] theorem onTap_locks (f : TapSt → TapSt) : (onTap f s).locks = s.locks := rfl
@[simp] theorem onTap_seqs (f : TapSt → TapSt) : (onTap f s).seqs = s.seqs := rfl
@[simp] theorem onTap_pools (f : TapSt → TapSt) : (onTap f s).pools = s.pools := rfl
@[simp] theorem onTap_mem (f : TapSt → TapSt) : (onTap f s).mem = s.mem := rfl
@[simp] theorem onTap_poison (f : TapSt → TapSt) : (onTap f s).poison = s.poison := rfl
@[simp] theorem onTap_pagePoison (f : TapSt → TapSt) : (onTap f s).pagePoison = s.pagePoison := rfl
@[simp] theorem onTap_windows (f : TapSt → TapSt) : (onTap f s).windows = s.windows := rfl
@[simp] theorem onTap_hostSpill (f : TapSt → TapSt) : (onTap f s).hostSpill = s.hostSpill := rfl
@[simp] theorem onTap_peerSpill (f : TapSt → TapSt) : (onTap f s).peerSpill = s.peerSpill := rfl
@[simp] theorem onTap_segs (f : TapSt → TapSt) : (onTap f s).segs = s.segs := rfl
@[simp] theorem onTap_ctxs (f : TapSt → TapSt) : (onTap f s).ctxs = s.ctxs := rfl
@[simp] theorem onTap_cm (f : TapSt → TapSt) : (onTap f s).cm = s.cm := rfl
@[simp] theorem onTap_sslots (f : TapSt → TapSt) : (onTap f s).sslots = s.sslots := rfl
@[simp] theorem onTap_jobs (f : TapSt → TapSt) : (onTap f s).jobs = s.jobs := rfl
@[simp] theorem onTap_engines (f : TapSt → TapSt) : (onTap f s).engines = s.engines := rfl
@[simp] theorem onTap_progs (f : TapSt → TapSt) : (onTap f s).progs = s.progs := rfl
@[simp] theorem onTap_loads (f : TapSt → TapSt) : (onTap f s).loads = s.loads := rfl
@[simp] theorem onTap_tiles (f : TapSt → TapSt) : (onTap f s).tiles = s.tiles := rfl
@[simp] theorem onTap_flights (f : TapSt → TapSt) : (onTap f s).flights = s.flights := rfl
@[simp] theorem onTap_mesh (f : TapSt → TapSt) : (onTap f s).mesh = s.mesh := rfl
@[simp] theorem onTap_reqs (f : TapSt → TapSt) : (onTap f s).reqs = s.reqs := rfl
@[simp] theorem onTap_netq (f : TapSt → TapSt) : (onTap f s).netq = s.netq := rfl
@[simp] theorem onTap_doms (f : TapSt → TapSt) : (onTap f s).doms = s.doms := rfl
@[simp] theorem onTap_pel (f : TapSt → TapSt) : (onTap f s).pel = s.pel := rfl
@[simp] theorem onTap_chans (f : TapSt → TapSt) : (onTap f s).chans = s.chans := rfl
@[simp] theorem onTap_groups (f : TapSt → TapSt) : (onTap f s).groups = s.groups := rfl
@[simp] theorem onTap_loops (f : TapSt → TapSt) : (onTap f s).loops = s.loops := rfl
@[simp] theorem onTap_avs (f : TapSt → TapSt) : (onTap f s).avs = s.avs := rfl
@[simp] theorem onTap_samples (f : TapSt → TapSt) : (onTap f s).samples = s.samples := rfl
@[simp] theorem onTap_board (f : TapSt → TapSt) : (onTap f s).board = s.board := rfl
@[simp] theorem onTap_ledger (f : TapSt → TapSt) : (onTap f s).ledger = s.ledger := rfl
@[simp] theorem onTap_integ (f : TapSt → TapSt) : (onTap f s).integ = s.integ := rfl
@[simp] theorem onTap_owl (f : TapSt → TapSt) : (onTap f s).owl = s.owl := rfl
@[simp] theorem onTap_fw (f : TapSt → TapSt) : (onTap f s).fw = s.fw := rfl

/-! ### onFw -/

@[simp] theorem onFw_pending (f : Fw → Fw) : (onFw f s).pending = s.pending := rfl
@[simp] theorem onFw_timebase (f : Fw → Fw) : (onFw f s).timebase = s.timebase := rfl
@[simp] theorem onFw_aclk (f : Fw → Fw) : (onFw f s).aclk = s.aclk := rfl
@[simp] theorem onFw_freeCtr (f : Fw → Fw) : (onFw f s).freeCtr = s.freeCtr := rfl
@[simp] theorem onFw_bring (f : Fw → Fw) : (onFw f s).bring = s.bring := rfl
@[simp] theorem onFw_cnt (f : Fw → Fw) : (onFw f s).cnt = s.cnt := rfl
@[simp] theorem onFw_ports (f : Fw → Fw) : (onFw f s).ports = s.ports := rfl
@[simp] theorem onFw_qps (f : Fw → Fw) : (onFw f s).qps = s.qps := rfl
@[simp] theorem onFw_mbx (f : Fw → Fw) : (onFw f s).mbx = s.mbx := rfl
@[simp] theorem onFw_cmds (f : Fw → Fw) : (onFw f s).cmds = s.cmds := rfl
@[simp] theorem onFw_nextId (f : Fw → Fw) : (onFw f s).nextId = s.nextId := rfl
@[simp] theorem onFw_rota (f : Fw → Fw) : (onFw f s).rota = s.rota := rfl
@[simp] theorem onFw_hostReads (f : Fw → Fw) : (onFw f s).hostReads = s.hostReads := rfl
@[simp] theorem onFw_hostOut (f : Fw → Fw) : (onFw f s).hostOut = s.hostOut := rfl
@[simp] theorem onFw_cplOut (f : Fw → Fw) : (onFw f s).cplOut = s.cplOut := rfl
@[simp] theorem onFw_fns (f : Fw → Fw) : (onFw f s).fns = s.fns := rfl
@[simp] theorem onFw_p2 (f : Fw → Fw) : (onFw f s).p2 = s.p2 := rfl
@[simp] theorem onFw_tap (f : Fw → Fw) : (onFw f s).tap = s.tap := rfl
@[simp] theorem onFw_slots (f : Fw → Fw) : (onFw f s).slots = s.slots := rfl
@[simp] theorem onFw_parts (f : Fw → Fw) : (onFw f s).parts = s.parts := rfl
@[simp] theorem onFw_locks (f : Fw → Fw) : (onFw f s).locks = s.locks := rfl
@[simp] theorem onFw_seqs (f : Fw → Fw) : (onFw f s).seqs = s.seqs := rfl
@[simp] theorem onFw_pools (f : Fw → Fw) : (onFw f s).pools = s.pools := rfl
@[simp] theorem onFw_mem (f : Fw → Fw) : (onFw f s).mem = s.mem := rfl
@[simp] theorem onFw_poison (f : Fw → Fw) : (onFw f s).poison = s.poison := rfl
@[simp] theorem onFw_pagePoison (f : Fw → Fw) : (onFw f s).pagePoison = s.pagePoison := rfl
@[simp] theorem onFw_windows (f : Fw → Fw) : (onFw f s).windows = s.windows := rfl
@[simp] theorem onFw_hostSpill (f : Fw → Fw) : (onFw f s).hostSpill = s.hostSpill := rfl
@[simp] theorem onFw_peerSpill (f : Fw → Fw) : (onFw f s).peerSpill = s.peerSpill := rfl
@[simp] theorem onFw_segs (f : Fw → Fw) : (onFw f s).segs = s.segs := rfl
@[simp] theorem onFw_ctxs (f : Fw → Fw) : (onFw f s).ctxs = s.ctxs := rfl
@[simp] theorem onFw_cm (f : Fw → Fw) : (onFw f s).cm = s.cm := rfl
@[simp] theorem onFw_sslots (f : Fw → Fw) : (onFw f s).sslots = s.sslots := rfl
@[simp] theorem onFw_jobs (f : Fw → Fw) : (onFw f s).jobs = s.jobs := rfl
@[simp] theorem onFw_engines (f : Fw → Fw) : (onFw f s).engines = s.engines := rfl
@[simp] theorem onFw_progs (f : Fw → Fw) : (onFw f s).progs = s.progs := rfl
@[simp] theorem onFw_loads (f : Fw → Fw) : (onFw f s).loads = s.loads := rfl
@[simp] theorem onFw_tiles (f : Fw → Fw) : (onFw f s).tiles = s.tiles := rfl
@[simp] theorem onFw_flights (f : Fw → Fw) : (onFw f s).flights = s.flights := rfl
@[simp] theorem onFw_mesh (f : Fw → Fw) : (onFw f s).mesh = s.mesh := rfl
@[simp] theorem onFw_reqs (f : Fw → Fw) : (onFw f s).reqs = s.reqs := rfl
@[simp] theorem onFw_netq (f : Fw → Fw) : (onFw f s).netq = s.netq := rfl
@[simp] theorem onFw_doms (f : Fw → Fw) : (onFw f s).doms = s.doms := rfl
@[simp] theorem onFw_pel (f : Fw → Fw) : (onFw f s).pel = s.pel := rfl
@[simp] theorem onFw_chans (f : Fw → Fw) : (onFw f s).chans = s.chans := rfl
@[simp] theorem onFw_groups (f : Fw → Fw) : (onFw f s).groups = s.groups := rfl
@[simp] theorem onFw_loops (f : Fw → Fw) : (onFw f s).loops = s.loops := rfl
@[simp] theorem onFw_avs (f : Fw → Fw) : (onFw f s).avs = s.avs := rfl
@[simp] theorem onFw_samples (f : Fw → Fw) : (onFw f s).samples = s.samples := rfl
@[simp] theorem onFw_board (f : Fw → Fw) : (onFw f s).board = s.board := rfl
@[simp] theorem onFw_ledger (f : Fw → Fw) : (onFw f s).ledger = s.ledger := rfl
@[simp] theorem onFw_integ (f : Fw → Fw) : (onFw f s).integ = s.integ := rfl
@[simp] theorem onFw_owl (f : Fw → Fw) : (onFw f s).owl = s.owl := rfl
@[simp] theorem onFw_fw (f : Fw → Fw) : (onFw f s).fw = f s.fw := rfl

/-! ### turned -/

@[simp] theorem turned_pending (c : Nat) : (turned c s).pending = s.pending := rfl
@[simp] theorem turned_timebase (c : Nat) : (turned c s).timebase = s.timebase := rfl
@[simp] theorem turned_aclk (c : Nat) : (turned c s).aclk = s.aclk := rfl
@[simp] theorem turned_freeCtr (c : Nat) : (turned c s).freeCtr = s.freeCtr := rfl
@[simp] theorem turned_bring (c : Nat) : (turned c s).bring = s.bring := rfl
@[simp] theorem turned_cnt (c : Nat) : (turned c s).cnt = s.cnt := rfl
@[simp] theorem turned_ports (c : Nat) : (turned c s).ports = s.ports := rfl
@[simp] theorem turned_qps (c : Nat) : (turned c s).qps = s.qps := rfl
@[simp] theorem turned_mbx (c : Nat) : (turned c s).mbx = s.mbx := rfl
@[simp] theorem turned_cmds (c : Nat) : (turned c s).cmds = s.cmds := rfl
@[simp] theorem turned_nextId (c : Nat) : (turned c s).nextId = s.nextId := rfl
@[simp] theorem turned_rota (c : Nat) : (turned c s).rota = { s.rota with port := (portOf c + 1) % 4, take := tset s.rota.take (portOf c) ((c % 64 + 1) % 64) } := rfl
@[simp] theorem turned_hostReads (c : Nat) : (turned c s).hostReads = s.hostReads := rfl
@[simp] theorem turned_hostOut (c : Nat) : (turned c s).hostOut = s.hostOut := rfl
@[simp] theorem turned_cplOut (c : Nat) : (turned c s).cplOut = s.cplOut := rfl
@[simp] theorem turned_fns (c : Nat) : (turned c s).fns = s.fns := rfl
@[simp] theorem turned_p2 (c : Nat) : (turned c s).p2 = s.p2 := rfl
@[simp] theorem turned_tap (c : Nat) : (turned c s).tap = s.tap := rfl
@[simp] theorem turned_slots (c : Nat) : (turned c s).slots = s.slots := rfl
@[simp] theorem turned_parts (c : Nat) : (turned c s).parts = s.parts := rfl
@[simp] theorem turned_locks (c : Nat) : (turned c s).locks = s.locks := rfl
@[simp] theorem turned_seqs (c : Nat) : (turned c s).seqs = s.seqs := rfl
@[simp] theorem turned_pools (c : Nat) : (turned c s).pools = s.pools := rfl
@[simp] theorem turned_mem (c : Nat) : (turned c s).mem = s.mem := rfl
@[simp] theorem turned_poison (c : Nat) : (turned c s).poison = s.poison := rfl
@[simp] theorem turned_pagePoison (c : Nat) : (turned c s).pagePoison = s.pagePoison := rfl
@[simp] theorem turned_windows (c : Nat) : (turned c s).windows = s.windows := rfl
@[simp] theorem turned_hostSpill (c : Nat) : (turned c s).hostSpill = s.hostSpill := rfl
@[simp] theorem turned_peerSpill (c : Nat) : (turned c s).peerSpill = s.peerSpill := rfl
@[simp] theorem turned_segs (c : Nat) : (turned c s).segs = s.segs := rfl
@[simp] theorem turned_ctxs (c : Nat) : (turned c s).ctxs = s.ctxs := rfl
@[simp] theorem turned_cm (c : Nat) : (turned c s).cm = s.cm := rfl
@[simp] theorem turned_sslots (c : Nat) : (turned c s).sslots = s.sslots := rfl
@[simp] theorem turned_jobs (c : Nat) : (turned c s).jobs = s.jobs := rfl
@[simp] theorem turned_engines (c : Nat) : (turned c s).engines = s.engines := rfl
@[simp] theorem turned_progs (c : Nat) : (turned c s).progs = s.progs := rfl
@[simp] theorem turned_loads (c : Nat) : (turned c s).loads = s.loads := rfl
@[simp] theorem turned_tiles (c : Nat) : (turned c s).tiles = s.tiles := rfl
@[simp] theorem turned_flights (c : Nat) : (turned c s).flights = s.flights := rfl
@[simp] theorem turned_mesh (c : Nat) : (turned c s).mesh = s.mesh := rfl
@[simp] theorem turned_reqs (c : Nat) : (turned c s).reqs = s.reqs := rfl
@[simp] theorem turned_netq (c : Nat) : (turned c s).netq = s.netq := rfl
@[simp] theorem turned_doms (c : Nat) : (turned c s).doms = s.doms := rfl
@[simp] theorem turned_pel (c : Nat) : (turned c s).pel = s.pel := rfl
@[simp] theorem turned_chans (c : Nat) : (turned c s).chans = s.chans := rfl
@[simp] theorem turned_groups (c : Nat) : (turned c s).groups = s.groups := rfl
@[simp] theorem turned_loops (c : Nat) : (turned c s).loops = s.loops := rfl
@[simp] theorem turned_avs (c : Nat) : (turned c s).avs = s.avs := rfl
@[simp] theorem turned_samples (c : Nat) : (turned c s).samples = s.samples := rfl
@[simp] theorem turned_board (c : Nat) : (turned c s).board = s.board := rfl
@[simp] theorem turned_ledger (c : Nat) : (turned c s).ledger = s.ledger := rfl
@[simp] theorem turned_integ (c : Nat) : (turned c s).integ = s.integ := rfl
@[simp] theorem turned_owl (c : Nat) : (turned c s).owl = s.owl := rfl
@[simp] theorem turned_fw (c : Nat) : (turned c s).fw = s.fw := rfl

/-! ### fetchTurned -/

@[simp] theorem fetchTurned_pending (c : Nat) : (fetchTurned c s).pending = s.pending := rfl
@[simp] theorem fetchTurned_timebase (c : Nat) : (fetchTurned c s).timebase = s.timebase := rfl
@[simp] theorem fetchTurned_aclk (c : Nat) : (fetchTurned c s).aclk = s.aclk := rfl
@[simp] theorem fetchTurned_freeCtr (c : Nat) : (fetchTurned c s).freeCtr = s.freeCtr := rfl
@[simp] theorem fetchTurned_bring (c : Nat) : (fetchTurned c s).bring = s.bring := rfl
@[simp] theorem fetchTurned_cnt (c : Nat) : (fetchTurned c s).cnt = s.cnt := rfl
@[simp] theorem fetchTurned_ports (c : Nat) : (fetchTurned c s).ports = s.ports := rfl
@[simp] theorem fetchTurned_qps (c : Nat) : (fetchTurned c s).qps = s.qps := rfl
@[simp] theorem fetchTurned_mbx (c : Nat) : (fetchTurned c s).mbx = s.mbx := rfl
@[simp] theorem fetchTurned_cmds (c : Nat) : (fetchTurned c s).cmds = s.cmds := rfl
@[simp] theorem fetchTurned_nextId (c : Nat) : (fetchTurned c s).nextId = s.nextId := rfl
@[simp] theorem fetchTurned_rota (c : Nat) : (fetchTurned c s).rota = { s.rota with fetch := tset s.rota.fetch (portOf c) ((c % 64 + 1) % 64) } := rfl
@[simp] theorem fetchTurned_hostReads (c : Nat) : (fetchTurned c s).hostReads = s.hostReads := rfl
@[simp] theorem fetchTurned_hostOut (c : Nat) : (fetchTurned c s).hostOut = s.hostOut := rfl
@[simp] theorem fetchTurned_cplOut (c : Nat) : (fetchTurned c s).cplOut = s.cplOut := rfl
@[simp] theorem fetchTurned_fns (c : Nat) : (fetchTurned c s).fns = s.fns := rfl
@[simp] theorem fetchTurned_p2 (c : Nat) : (fetchTurned c s).p2 = s.p2 := rfl
@[simp] theorem fetchTurned_tap (c : Nat) : (fetchTurned c s).tap = s.tap := rfl
@[simp] theorem fetchTurned_slots (c : Nat) : (fetchTurned c s).slots = s.slots := rfl
@[simp] theorem fetchTurned_parts (c : Nat) : (fetchTurned c s).parts = s.parts := rfl
@[simp] theorem fetchTurned_locks (c : Nat) : (fetchTurned c s).locks = s.locks := rfl
@[simp] theorem fetchTurned_seqs (c : Nat) : (fetchTurned c s).seqs = s.seqs := rfl
@[simp] theorem fetchTurned_pools (c : Nat) : (fetchTurned c s).pools = s.pools := rfl
@[simp] theorem fetchTurned_mem (c : Nat) : (fetchTurned c s).mem = s.mem := rfl
@[simp] theorem fetchTurned_poison (c : Nat) : (fetchTurned c s).poison = s.poison := rfl
@[simp] theorem fetchTurned_pagePoison (c : Nat) : (fetchTurned c s).pagePoison = s.pagePoison := rfl
@[simp] theorem fetchTurned_windows (c : Nat) : (fetchTurned c s).windows = s.windows := rfl
@[simp] theorem fetchTurned_hostSpill (c : Nat) : (fetchTurned c s).hostSpill = s.hostSpill := rfl
@[simp] theorem fetchTurned_peerSpill (c : Nat) : (fetchTurned c s).peerSpill = s.peerSpill := rfl
@[simp] theorem fetchTurned_segs (c : Nat) : (fetchTurned c s).segs = s.segs := rfl
@[simp] theorem fetchTurned_ctxs (c : Nat) : (fetchTurned c s).ctxs = s.ctxs := rfl
@[simp] theorem fetchTurned_cm (c : Nat) : (fetchTurned c s).cm = s.cm := rfl
@[simp] theorem fetchTurned_sslots (c : Nat) : (fetchTurned c s).sslots = s.sslots := rfl
@[simp] theorem fetchTurned_jobs (c : Nat) : (fetchTurned c s).jobs = s.jobs := rfl
@[simp] theorem fetchTurned_engines (c : Nat) : (fetchTurned c s).engines = s.engines := rfl
@[simp] theorem fetchTurned_progs (c : Nat) : (fetchTurned c s).progs = s.progs := rfl
@[simp] theorem fetchTurned_loads (c : Nat) : (fetchTurned c s).loads = s.loads := rfl
@[simp] theorem fetchTurned_tiles (c : Nat) : (fetchTurned c s).tiles = s.tiles := rfl
@[simp] theorem fetchTurned_flights (c : Nat) : (fetchTurned c s).flights = s.flights := rfl
@[simp] theorem fetchTurned_mesh (c : Nat) : (fetchTurned c s).mesh = s.mesh := rfl
@[simp] theorem fetchTurned_reqs (c : Nat) : (fetchTurned c s).reqs = s.reqs := rfl
@[simp] theorem fetchTurned_netq (c : Nat) : (fetchTurned c s).netq = s.netq := rfl
@[simp] theorem fetchTurned_doms (c : Nat) : (fetchTurned c s).doms = s.doms := rfl
@[simp] theorem fetchTurned_pel (c : Nat) : (fetchTurned c s).pel = s.pel := rfl
@[simp] theorem fetchTurned_chans (c : Nat) : (fetchTurned c s).chans = s.chans := rfl
@[simp] theorem fetchTurned_groups (c : Nat) : (fetchTurned c s).groups = s.groups := rfl
@[simp] theorem fetchTurned_loops (c : Nat) : (fetchTurned c s).loops = s.loops := rfl
@[simp] theorem fetchTurned_avs (c : Nat) : (fetchTurned c s).avs = s.avs := rfl
@[simp] theorem fetchTurned_samples (c : Nat) : (fetchTurned c s).samples = s.samples := rfl
@[simp] theorem fetchTurned_board (c : Nat) : (fetchTurned c s).board = s.board := rfl
@[simp] theorem fetchTurned_ledger (c : Nat) : (fetchTurned c s).ledger = s.ledger := rfl
@[simp] theorem fetchTurned_integ (c : Nat) : (fetchTurned c s).integ = s.integ := rfl
@[simp] theorem fetchTurned_owl (c : Nat) : (fetchTurned c s).owl = s.owl := rfl
@[simp] theorem fetchTurned_fw (c : Nat) : (fetchTurned c s).fw = s.fw := rfl

/-! ### onCmd -/

@[simp] theorem onCmd_pending (x : Cmd) (f : Cmd → Cmd) : (onCmd x f s).pending = s.pending := rfl
@[simp] theorem onCmd_timebase (x : Cmd) (f : Cmd → Cmd) : (onCmd x f s).timebase = s.timebase := rfl
@[simp] theorem onCmd_aclk (x : Cmd) (f : Cmd → Cmd) : (onCmd x f s).aclk = s.aclk := rfl
@[simp] theorem onCmd_freeCtr (x : Cmd) (f : Cmd → Cmd) : (onCmd x f s).freeCtr = s.freeCtr := rfl
@[simp] theorem onCmd_bring (x : Cmd) (f : Cmd → Cmd) : (onCmd x f s).bring = s.bring := rfl
@[simp] theorem onCmd_cnt (x : Cmd) (f : Cmd → Cmd) : (onCmd x f s).cnt = s.cnt := rfl
@[simp] theorem onCmd_ports (x : Cmd) (f : Cmd → Cmd) : (onCmd x f s).ports = s.ports := rfl
@[simp] theorem onCmd_qps (x : Cmd) (f : Cmd → Cmd) : (onCmd x f s).qps = s.qps := rfl
@[simp] theorem onCmd_mbx (x : Cmd) (f : Cmd → Cmd) : (onCmd x f s).mbx = s.mbx := rfl
@[simp] theorem onCmd_cmds (x : Cmd) (f : Cmd → Cmd) : (onCmd x f s).cmds = s.cmds.map (fun y => if y.id == x.id then f y else y) := rfl
@[simp] theorem onCmd_nextId (x : Cmd) (f : Cmd → Cmd) : (onCmd x f s).nextId = s.nextId := rfl
@[simp] theorem onCmd_rota (x : Cmd) (f : Cmd → Cmd) : (onCmd x f s).rota = s.rota := rfl
@[simp] theorem onCmd_hostReads (x : Cmd) (f : Cmd → Cmd) : (onCmd x f s).hostReads = s.hostReads := rfl
@[simp] theorem onCmd_hostOut (x : Cmd) (f : Cmd → Cmd) : (onCmd x f s).hostOut = s.hostOut := rfl
@[simp] theorem onCmd_cplOut (x : Cmd) (f : Cmd → Cmd) : (onCmd x f s).cplOut = s.cplOut := rfl
@[simp] theorem onCmd_fns (x : Cmd) (f : Cmd → Cmd) : (onCmd x f s).fns = s.fns := rfl
@[simp] theorem onCmd_p2 (x : Cmd) (f : Cmd → Cmd) : (onCmd x f s).p2 = s.p2 := rfl
@[simp] theorem onCmd_tap (x : Cmd) (f : Cmd → Cmd) : (onCmd x f s).tap = s.tap := rfl
@[simp] theorem onCmd_slots (x : Cmd) (f : Cmd → Cmd) : (onCmd x f s).slots = s.slots := rfl
@[simp] theorem onCmd_parts (x : Cmd) (f : Cmd → Cmd) : (onCmd x f s).parts = s.parts := rfl
@[simp] theorem onCmd_locks (x : Cmd) (f : Cmd → Cmd) : (onCmd x f s).locks = s.locks := rfl
@[simp] theorem onCmd_seqs (x : Cmd) (f : Cmd → Cmd) : (onCmd x f s).seqs = s.seqs := rfl
@[simp] theorem onCmd_pools (x : Cmd) (f : Cmd → Cmd) : (onCmd x f s).pools = s.pools := rfl
@[simp] theorem onCmd_mem (x : Cmd) (f : Cmd → Cmd) : (onCmd x f s).mem = s.mem := rfl
@[simp] theorem onCmd_poison (x : Cmd) (f : Cmd → Cmd) : (onCmd x f s).poison = s.poison := rfl
@[simp] theorem onCmd_pagePoison (x : Cmd) (f : Cmd → Cmd) : (onCmd x f s).pagePoison = s.pagePoison := rfl
@[simp] theorem onCmd_windows (x : Cmd) (f : Cmd → Cmd) : (onCmd x f s).windows = s.windows := rfl
@[simp] theorem onCmd_hostSpill (x : Cmd) (f : Cmd → Cmd) : (onCmd x f s).hostSpill = s.hostSpill := rfl
@[simp] theorem onCmd_peerSpill (x : Cmd) (f : Cmd → Cmd) : (onCmd x f s).peerSpill = s.peerSpill := rfl
@[simp] theorem onCmd_segs (x : Cmd) (f : Cmd → Cmd) : (onCmd x f s).segs = s.segs := rfl
@[simp] theorem onCmd_ctxs (x : Cmd) (f : Cmd → Cmd) : (onCmd x f s).ctxs = s.ctxs := rfl
@[simp] theorem onCmd_cm (x : Cmd) (f : Cmd → Cmd) : (onCmd x f s).cm = s.cm := rfl
@[simp] theorem onCmd_sslots (x : Cmd) (f : Cmd → Cmd) : (onCmd x f s).sslots = s.sslots := rfl
@[simp] theorem onCmd_jobs (x : Cmd) (f : Cmd → Cmd) : (onCmd x f s).jobs = s.jobs := rfl
@[simp] theorem onCmd_engines (x : Cmd) (f : Cmd → Cmd) : (onCmd x f s).engines = s.engines := rfl
@[simp] theorem onCmd_progs (x : Cmd) (f : Cmd → Cmd) : (onCmd x f s).progs = s.progs := rfl
@[simp] theorem onCmd_loads (x : Cmd) (f : Cmd → Cmd) : (onCmd x f s).loads = s.loads := rfl
@[simp] theorem onCmd_tiles (x : Cmd) (f : Cmd → Cmd) : (onCmd x f s).tiles = s.tiles := rfl
@[simp] theorem onCmd_flights (x : Cmd) (f : Cmd → Cmd) : (onCmd x f s).flights = s.flights := rfl
@[simp] theorem onCmd_mesh (x : Cmd) (f : Cmd → Cmd) : (onCmd x f s).mesh = s.mesh := rfl
@[simp] theorem onCmd_reqs (x : Cmd) (f : Cmd → Cmd) : (onCmd x f s).reqs = s.reqs := rfl
@[simp] theorem onCmd_netq (x : Cmd) (f : Cmd → Cmd) : (onCmd x f s).netq = s.netq := rfl
@[simp] theorem onCmd_doms (x : Cmd) (f : Cmd → Cmd) : (onCmd x f s).doms = s.doms := rfl
@[simp] theorem onCmd_pel (x : Cmd) (f : Cmd → Cmd) : (onCmd x f s).pel = s.pel := rfl
@[simp] theorem onCmd_chans (x : Cmd) (f : Cmd → Cmd) : (onCmd x f s).chans = s.chans := rfl
@[simp] theorem onCmd_groups (x : Cmd) (f : Cmd → Cmd) : (onCmd x f s).groups = s.groups := rfl
@[simp] theorem onCmd_loops (x : Cmd) (f : Cmd → Cmd) : (onCmd x f s).loops = s.loops := rfl
@[simp] theorem onCmd_avs (x : Cmd) (f : Cmd → Cmd) : (onCmd x f s).avs = s.avs := rfl
@[simp] theorem onCmd_samples (x : Cmd) (f : Cmd → Cmd) : (onCmd x f s).samples = s.samples := rfl
@[simp] theorem onCmd_board (x : Cmd) (f : Cmd → Cmd) : (onCmd x f s).board = s.board := rfl
@[simp] theorem onCmd_ledger (x : Cmd) (f : Cmd → Cmd) : (onCmd x f s).ledger = s.ledger := rfl
@[simp] theorem onCmd_integ (x : Cmd) (f : Cmd → Cmd) : (onCmd x f s).integ = s.integ := rfl
@[simp] theorem onCmd_owl (x : Cmd) (f : Cmd → Cmd) : (onCmd x f s).owl = s.owl := rfl
@[simp] theorem onCmd_fw (x : Cmd) (f : Cmd → Cmd) : (onCmd x f s).fw = s.fw := rfl

/-! ### tick -/

@[simp] theorem tick_pending : (tick s).pending = s.pending := rfl
@[simp] theorem tick_timebase : (tick s).timebase = (s.timebase + 1) % 2 ^ 64 := rfl
@[simp] theorem tick_aclk : (tick s).aclk = s.aclk.advance s.board.stretch := rfl
@[simp] theorem tick_freeCtr : (tick s).freeCtr = s.freeCtr := rfl
@[simp] theorem tick_bring : (tick s).bring = s.bring := rfl
@[simp] theorem tick_cnt : (tick s).cnt = s.cnt := rfl
@[simp] theorem tick_ports : (tick s).ports = s.ports := rfl
@[simp] theorem tick_qps : (tick s).qps = s.qps := rfl
@[simp] theorem tick_mbx : (tick s).mbx = s.mbx := rfl
@[simp] theorem tick_cmds : (tick s).cmds = s.cmds := rfl
@[simp] theorem tick_nextId : (tick s).nextId = s.nextId := rfl
@[simp] theorem tick_rota : (tick s).rota = s.rota := rfl
@[simp] theorem tick_hostReads : (tick s).hostReads = s.hostReads := rfl
@[simp] theorem tick_hostOut : (tick s).hostOut = s.hostOut := rfl
@[simp] theorem tick_cplOut : (tick s).cplOut = s.cplOut := rfl
@[simp] theorem tick_fns : (tick s).fns = s.fns := rfl
@[simp] theorem tick_p2 : (tick s).p2 = s.p2 := rfl
@[simp] theorem tick_tap : (tick s).tap = s.tap := rfl
@[simp] theorem tick_slots : (tick s).slots = s.slots := rfl
@[simp] theorem tick_parts : (tick s).parts = s.parts := rfl
@[simp] theorem tick_locks : (tick s).locks = s.locks := rfl
@[simp] theorem tick_seqs : (tick s).seqs = s.seqs := rfl
@[simp] theorem tick_pools : (tick s).pools = s.pools := rfl
@[simp] theorem tick_mem : (tick s).mem = s.mem := rfl
@[simp] theorem tick_poison : (tick s).poison = s.poison := rfl
@[simp] theorem tick_pagePoison : (tick s).pagePoison = s.pagePoison := rfl
@[simp] theorem tick_windows : (tick s).windows = s.windows := rfl
@[simp] theorem tick_hostSpill : (tick s).hostSpill = s.hostSpill := rfl
@[simp] theorem tick_peerSpill : (tick s).peerSpill = s.peerSpill := rfl
@[simp] theorem tick_segs : (tick s).segs = s.segs := rfl
@[simp] theorem tick_ctxs : (tick s).ctxs = s.ctxs := rfl
@[simp] theorem tick_cm : (tick s).cm = s.cm := rfl
@[simp] theorem tick_sslots : (tick s).sslots = s.sslots := rfl
@[simp] theorem tick_jobs : (tick s).jobs = s.jobs := rfl
@[simp] theorem tick_engines : (tick s).engines = s.engines := rfl
@[simp] theorem tick_progs : (tick s).progs = s.progs := rfl
@[simp] theorem tick_loads : (tick s).loads = s.loads := rfl
@[simp] theorem tick_tiles : (tick s).tiles = s.tiles := rfl
@[simp] theorem tick_flights : (tick s).flights = s.flights := rfl
@[simp] theorem tick_mesh : (tick s).mesh = s.mesh := rfl
@[simp] theorem tick_reqs : (tick s).reqs = s.reqs := rfl
@[simp] theorem tick_netq : (tick s).netq = s.netq := rfl
@[simp] theorem tick_doms : (tick s).doms = s.doms := rfl
@[simp] theorem tick_pel : (tick s).pel = s.pel := rfl
@[simp] theorem tick_chans : (tick s).chans = s.chans := rfl
@[simp] theorem tick_groups : (tick s).groups = s.groups := rfl
@[simp] theorem tick_loops : (tick s).loops = s.loops := rfl
@[simp] theorem tick_avs : (tick s).avs = s.avs := rfl
@[simp] theorem tick_samples : (tick s).samples = s.samples := rfl
@[simp] theorem tick_board : (tick s).board = s.board := rfl
@[simp] theorem tick_ledger : (tick s).ledger = s.ledger := rfl
@[simp] theorem tick_integ : (tick s).integ = s.integ := rfl
@[simp] theorem tick_owl : (tick s).owl = s.owl := rfl
@[simp] theorem tick_fw : (tick s).fw = s.fw := rfl

end Sys2Proof.Laws
end

