-- ==== Sys2Proof/Tests/Build.lean ====
section
/-! SUPPORT. Small states and commands from which the tests and the witnesses are built. -/

namespace Sys2Proof.Tests

set_option Elab.async false

open Sys2Proof.Machine Sys2Proof.Safety

/-- A packet of an opcode for a partition with its parameter dwords inline (Table 09.2). -/
def pk (op part : Nat) (pars : List Nat) : Packet :=
  { dws := ([op + pars.length * 2 ^ 24, part * 2 ^ 16, 0, 0] ++ pars ++ List.replicate (12 - pars.length) 0).map dw }

/-- A packet whose `n` parameter dwords stand in a block at offset 0 of DATA (R317). -/
def pkBlock (op part n : Nat) : Packet :=
  { dws := ([op + 2 ^ 16 + n * 2 ^ 24, part * 2 ^ 16, 0, 0] ++ List.replicate 12 0).map dw }

/-- A command of a carrier in progress. -/
def cm (c : Nat) (p : Packet) (block : List Nat) : Cmd := { id := 40, carrier := c, pkt := p, block := block.map dw }

/-- A state in which that command is the only one in progress. -/
def give (s : State) (x : Cmd) : State := { s with cmds := [x] }

/-- A window of 64 pages on 64 pages of HBM from page 100. -/
def hbmWindow : Window := { valid := true, wr := true, vpage := 0, npages := 64, ext := [(100, 64)] }

/-- A device in S4 that has been set up: partition 3 with a window, a pool, tiles 4 and 5, a program on tile 5, a channel, two link
multicast groups, locks of P2's mailbox, stream contexts, a posted result, ports 1 (ACTIVE) and 2 (DOWN). -/
def up : State :=
  { State.reset with
    bring := { pll := true, stage := 4, s3done := true }
    parts := [(3, { state := .active, scount := 16 })]
    tiles := [(4, { owner := some 3 }), (5, { owner := some 3, prog := some 6 })]
    windows := [(48, hbmWindow), (49, { hbmWindow with vpage := 64, ext := [(200, 64)] })]
    pools := [(2, { owner := some 3, bufsize := 4096, pcount := 4, bufs := [(1, { allocated := true, gen := 9, owner := .ident 128 })] }),
      (4, { owner := some 3, bufsize := 4096, pcount := 4 })]
    locks := [(9, .held 128), (11, .held 128)]
    cm := { base := some 0x40000000 }
    sslots := [(8, { owner := .part 3, gen := 1 })]
    progs := [(6, { gen := 1, loaded := true, part := 3, tilemask := 0x20 }), (7, { gen := 1, loaded := true, part := 3, tilemask := 0x10, running := true })]
    slots := [(5, { gen := 2, held := true, port := 2, device := true, final := some 0, result := [0, 0, 0, 0, 0, 0] })]
    pel := [(1, { st := .active }), (2, { st := .down })]
    chans := [(17, { valid := true, owner := 3 })]
    groups := [(1, { valid := true, root := true, owner := 3, lch := 1, child := 2, subtree := 2 })]
    doms := domainCodes.map (fun d => (d, { on := true })) }

/-- A served command of P2's mailbox, which is ADMIN, and a free result slot. -/
def served2 (s : State) (op part : Nat) (pars : List Nat) (chk : State → Cmd → Verdict) : Bool :=
  let x := cm 128 (pk op part pars) []
  served (give s x) op 128 (pk op part pars) x chk && slotFree (give s x) 2

/-- One with a parameter block. -/
def served2b (s : State) (op part : Nat) (pars : List Nat) (chk : State → Cmd → Verdict) : Bool :=
  let x := cm 128 (pkBlock op part pars.length) pars
  served (give s x) op 128 (pkBlock op part pars.length) x chk && slotFree (give s x) 2

/-- P0 has queue pair 1, and its function has no link, so that it issues no request. -/
def cut (s : State) : State := { s with qps := [(1, { live := true, en := true, rdy := true, sqlog := 4, cqlog := 4 })] }

/-- P0 has queue pair 1, on a function that may issue requests. -/
def linked (s : State) : State := { cut s with fns := [(0, { linkUp := true, mse := true, bme := true })] }

/-- The three outcomes of a command with output: it can be written; its field, where `OUT` stands `off` dwords in, is misaligned; the
function cannot write it. -/
def servedOut (k : Nat) (s : State) (op part : Nat) (pars : List Nat) (chk : State → Cmd → Verdict) (out : State → Cmd → List Byte) : Bool :=
  let at_ := fun (u : State) (c : Nat) (ps : List Nat) (more : State → Cmd → Bool) =>
    let x := cm c (pk op part ps) []
    served (give u x) op c (pk op part ps) x chk && more (turned c (give u x)) x
  at_ s 128 pars (fun t x => xferStatus x k (out t x).length == 0 && outReady t x) &&
  at_ s 128 (pars.set (k - 4) 8) (fun t x => xferStatus x k (out t x).length != 0) &&
  at_ (cut s) 1 pars (fun t x => xferStatus x k (out t x).length == 0 && !outReady t x)

/-- A served command of which something more holds. -/
def servedAnd (s : State) (op part : Nat) (pars : List Nat) (chk : State → Cmd → Verdict) (more : State → Cmd → Bool) : Bool :=
  let x := cm 128 (pk op part pars) []
  served2 s op part pars chk && more (give s x) x

/-- A hardware-answered command that is its carrier's next. -/
def isNext (s : State) (op : Nat) : Bool :=
  let x := cm 128 (pk op 0 []) []
  decide (ready (give s x) op 128 (pk op 0 []) = some x)

/-- A served command of a queue pair, on a function with a link. -/
def servedQp (s : State) (c op part : Nat) (pars : List Nat) (chk : State → Cmd → Verdict) : Bool :=
  let x := cm c (pk op part pars) []
  served (give s x) op c (pk op part pars) x chk

end Sys2Proof.Tests
end

