-- ==== Sys2Proof/Tests/Commands.lean ====
section
/-! SUPPORT. Witnesses: for each statement about commands, states and commands that meet its hypotheses, clause by clause in its
order. -/

namespace Sys2Proof.Tests

set_option Elab.async false

open Sys2Proof.Machine Sys2Proof.Safety

/-- A queue with no command. -/
theorem witness_StepRunsFront : ∃ s : State, s.pending = [] := ⟨State.reset, rfl⟩

theorem witness_BringupCommands :
    served2 up 0x0000 0 [] unchecked = true ∧ isNext up 0x0001 = true ∧ isNext up 0x0002 = true ∧ isNext up 0x0003 = true ∧
    served2 up 0x0010 0 [0xFFFF, 0] clearAttnCheck = true ∧
    served2 up 0x0011 0 [0x101, cntLockBroken, 5] setThresholdCheck = true ∧
    servedAnd up 0x0012 0 [cntBufStale + 5 * 2 ^ 16, 0, 0, 0] readCountersCheck (fun _ x => decide (x.fld 4 23 16 + 1 ≤ 6)) = true ∧
    servedAnd up 0x0012 0 [cntBufStale + 6 * 2 ^ 16, 0, 0, 0] readCountersCheck (fun s x =>
      decide (6 < x.fld 4 23 16 + 1) && xferStatus x 6 (4 * (x.fld 4 23 16 + 1)) == 0 && outReady s x) = true ∧
    served2 up 0x0013 0 [cntLockBroken, 0] clearCountersCheck = true := by decide +kernel

theorem witness_PartitionCommands :
    served2 up 0x0100 5 [32, 16] partCreateCheck = true ∧ served2 up 0x0101 3 [] unchecked = true ∧
    served2 up 0x0102 3 [] unchecked = true ∧ served2 up 0x0103 3 [0x103] partBindPortCheck = true ∧
    served2 up 0x0104 3 [0x100, 0, 0x10, 0] partTilesCheck = true ∧ servedOut 4 up 0x0105 3 [0, 0] unchecked partReadOut = true ∧
    servedQp { up with qps := [(0, { live := true, en := true, rdy := true })] } 0 0x0108 0 [1, 0x1000, 0, 0x2000, 0, 0x404] qpCreateCheck = true ∧
    servedQp { up with qps := [(0, { live := true, en := true, rdy := true }), (2, { live := true })] } 0 0x0109 0 [2] qpDeleteCheck = true ∧
    served2 up 0x010A 0 [0x100] privGrantCheck = true := by decide +kernel

/-- A device in which P2's mailbox has a sequence open on lock 11. -/
def inSeq : State := { up with seqs := [(128, { lock := some 11 })] }

theorem witness_LockCommands :
    served2 up 0x0200 0 [7] (fun s x => firstOf [(heldByOther s x, stLockHeld)]) = true ∧
    served2 up 0x0201 0 [9] (fun s x => firstOf [(decide (tget s.locks x.lockNo ≠ .held x.carrier), stLockNotHeld),
      (decide ((tget s.seqs x.carrier).lock = some x.lockNo), stStateBusy)]) = true ∧
    served2 up 0x0202 0 [9] (fun s x => firstOf [(decide (tget s.locks x.lockNo ≠ .held x.carrier), stLockNotHeld),
      ((tget s.seqs x.carrier).lock.isSome, stStateBusy)]) = true ∧
    served2 inSeq 0x0203 0 [11] (fun s x => firstOf [(decide ((tget s.seqs x.carrier).lock ≠ some x.lockNo), stSequenceNotOpen)]) = true ∧
    served2 inSeq 0x0204 0 [11] (fun s x => firstOf [(decide ((tget s.seqs x.carrier).lock ≠ some x.lockNo), stSequenceNotOpen)]) = true ∧
    served2 up 0x0205 0 [9] unchecked = true := by decide +kernel

/-- Pool 2 of partition 3 with two buffers in each extent, those below index `n` allocated. -/
def pooled (n : Nat) : State :=
  { up with pools := [(2, { owner := some 3, spillable := true, bufsize := 4096, pcount := 2, sbase := 0x100000, scount := 2
                            bufs := (List.range n).map (fun i => (i, { allocated := true })) })] }

/-- BUF_ALLOC of pool 2 where `n` buffers are allocated: whether it is served, and how many are as the clause says. -/
def allocAt (n : Nat) (more : Pool → Bool) : Bool :=
  servedAnd (pooled n) 0x0302 3 [2] bufAllocCheck (fun s x =>
    let k := tget s.pools x.poolNo
    (List.range n).all (fun j => (tget k.bufs j).allocated) && more k)

theorem witness_PoolCommands :
    served2 up 0x0300 3 [1, 4096, 0x10000, 0, 4, 0, 0, 0] poolCreateCheck = true ∧ served2 up 0x0301 3 [4] poolDestroyCheck = true ∧
    allocAt 1 (fun k => decide (1 < k.pcount) && !(tget k.bufs 1).allocated) = true ∧
    allocAt 3 (fun k => decide (1 < k.scount) && k.pcount == 2 && !(tget k.bufs (k.pcount + 1)).allocated) = true ∧
    (let x := cm 128 (pk 0x0302 3 [2]) []
     let s := give (pooled 4) x
     let k := tget s.pools x.poolNo
     reached s 0x0302 128 x.pkt x && decide (k.owner = some x.part) &&
       (List.range (k.pcount + k.scount)).all (fun j => (tget k.bufs j).allocated)) = true ∧
    served2 up 0x0303 3 [2, 1 + 9 * 2 ^ 20] bufFreeCheck = true ∧
    servedAnd up 0x0304 3 [2] poolReadCheck (fun s x => decide ((tget s.pools x.poolNo).owner = some 3)) = true ∧
    servedAnd up 0x0304 3 [7] poolReadCheck (fun s x => decide ((tget s.pools x.poolNo).owner = none)) = true := by decide +kernel

/-- Tiles 4 and 5 are a DUAL pair that runs. -/
def paired : State :=
  { up with
    tiles := [(4, { owner := some 3, prog := some 7, running := true }), (5, { owner := some 3 })]
    progs := [(7, { gen := 1, loaded := true, part := 3, tilemask := 0x10, running := true, mode := .dual })] }

/-- A served MEM_READ or MEM_WRITE of 16 bytes, of a carrier, of which something more holds. -/
def memCmd (s : State) (op c a : Nat) (more : State → Cmd → Bool) : Bool :=
  let p := pk op 0 [a % 2 ^ 32, a / 2 ^ 32, 16, 0, 0]
  let x := cm c p []
  served (give s x) op c p x (fun t y => memCheck t y) && more (turned c (give s x)) x

theorem witness_MemoryCommands :
    served2 up 0x0400 3 [2 + 2 ^ 4 + 2 ^ 10 * 0x1F, 256, 8, 8, 0] windowMapCheck = true ∧
    served2 { up with progs := [], pools := [] } 0x0401 3 [1] windowUnmapCheck = true ∧
    servedOut 5 up 0x0402 3 [0, 0, 0] unchecked (fun s x => dwBytes (tget s.windows (winKey x.part (x.fld 4 3 0))).dws) = true ∧
    served2 up 0x0403 0 [0, 0, 1, 8] hostSpillSetCheck = true ∧ served2 up 0x0404 0 [1, 4, 8] peerSpillSetCheck = true ∧
    served2 { up with cm := {} } 0x0405 0 [0x40000000, 0] contextBaseCheck = true ∧
    memCmd up 0x0406 128 0x1000 (fun t x =>
      let g := sysRead viaProc (x.par64 4) (x.fld 6 12 0) t
      xferStatus x 7 (x.fld 6 12 0) == 0 && g.reply.status == 0 && xferStatus x 7 g.bytes.length == 0 && outReady g.s x) = true ∧
    memCmd paired 0x0406 128 (storeAddr 5 0) (fun t x =>
      xferStatus x 7 (x.fld 6 12 0) == 0 && (sysRead viaProc (x.par64 4) (x.fld 6 12 0) t).reply.status != 0) = true ∧
    memCmd up 0x0407 128 0x1000 (fun _ x => !isQp x.carrier) = true ∧
    memCmd (linked up) 0x0407 1 0x1000 (fun t x => isQp x.carrier && canMaster t x.port) = true ∧
    memCmd (cut up) 0x0407 1 0x1000 (fun t x => isQp x.carrier && !canMaster t x.port) = true := by decide +kernel

/-- 73 parameter dwords of a TABLE_LOAD: the slot, then 288 code lengths of which two are 1. -/
def tablePars : List Nat := 9 :: 0x0101 :: List.replicate 71 0

/-- Stream 4 is configured to encode, and its context is resident: a change of it. -/
def ctx4 (f : Ctx → Ctx) : State :=
  { up with
    ctxs := [(4, f { valid := true, encode := true, pendok := true, owner := 3, stream := 4, tsel := 1 })]
    cm := { base := some 0x40000000, resident := [4] } }

/-- A STREAM_READ or STREAM_FLUSH of stream 4, with its context as the command reads it. -/
def onCtx4 (s : State) (op : Nat) (pars : List Nat) (more : State → Ctx → Cmd → Bool) : Bool :=
  servedAnd s op 3 pars (if op = 0x0505 then streamReadCheck else streamFlushCheck) (fun u x =>
    let t := readCtx x.stream stOk none (fillCtx x.stream (turned 128 u))
    more t (tget t.ctxs x.stream) x)

/-- Partition 3 is being reset. -/
def resetting3 (s : State) : State := { s with parts := [(3, { state := .resetting, scount := 16 })] }

theorem witness_CodecCommands :
    served2 up 0x0500 3 [3, 0, 0, 0, 0, 0, 0, 0, 0, 0, 0, 0] codecSubmitCheck = true ∧
    served2b up 0x0501 3 tablePars tableLoadCheck = true ∧ served2 up 0x0502 3 [8] tableReleaseCheck = true ∧
    served2 up 0x0503 3 [4, 0, 0x400, 0, 0, 0, 0, 0] streamConfigCheck = true ∧ served2 up 0x0504 3 [4] streamResetCheck = true ∧
    onCtx4 (ctx4 id) 0x0505 [4, 0, 0] (fun t k x => xferStatus x 5 64 == 0 && !k.pfill && outReady t x) = true ∧
    onCtx4 (ctx4 (fun k => { k with pfill := true })) 0x0505 [4, 0, 0] (fun _ k x => xferStatus x 5 64 == 0 && k.pfill) = true ∧
    onCtx4 (ctx4 id) 0x0506 [4] (fun t k x => k.useStatus x.part true == 0 && !k.held && !hasWaiters t x.stream) = true ∧
    onCtx4 (ctx4 (fun k => { k with held := true })) 0x0506 [4] (fun t k x => k.useStatus x.part true == 0 && k.held && slotFree t x.port &&
      !partEnding t x.part) = true ∧
    onCtx4 (resetting3 (ctx4 (fun k => { k with held := true }))) 0x0506 [4] (fun t k x => k.useStatus x.part true == 0 && k.held &&
      slotFree t x.port && partEnding t x.part) = true ∧
    onCtx4 (ctx4 (fun k => { k with encode := false })) 0x0506 [4] (fun _ k x => k.useStatus x.part true != 0) = true := by decide +kernel

/-- A KAK_RUN's kernel runs on tile 5. -/
def kernel5 : State := { up with tiles := [(5, { owner := some 3, prog := some 6, kernel := some { k := 0, why := .command 9 } })] }

/-- The same, while the ticket's work goes on. -/
def goesOn : State := { up with slots := [(5, { gen := 2, held := true, port := 2, device := true })] }

theorem witness_ProgramCommands :
    served2 up 0x0600 3 [0, 0, 0x1000] unchecked = true ∧
    servedAnd up 0x0601 3 [6 + 64] programRunCheck (fun s x => !loadWaits s (maskTiles (tget s.progs x.progSlot).tilemask)) = true ∧
    servedAnd kernel5 0x0601 3 [6 + 64] programRunCheck (fun s x => loadWaits s (maskTiles (tget s.progs x.progSlot).tilemask)) = true ∧
    served2 up 0x0602 3 [7 + 64] programAbortCheck = true ∧ served2 up 0x0603 3 [6 + 64] programUnloadCheck = true ∧
    ([0x0604, 0x0605].all (fun op => servedAnd up op 0 [5 + 2 * 2 ^ 12 + 2 * 2 ^ 30] resultCheck
      (fun s x => match slotNamed s x with | some r => r.final.isSome | none => false))) = true ∧
    ([0x0604, 0x0605].all (fun op => servedAnd goesOn op 0 [5 + 2 * 2 ^ 12 + 2 * 2 ^ 30] resultCheck
      (fun s x => match slotNamed s x with | some r => r.final.isNone | none => false))) = true ∧
    servedOut 4 up 0x0606 3 [0, 0] unchecked (fun s x => dwBytes (tget s.parts x.part).report.dws) = true := by decide +kernel

theorem witness_LinkCommands :
    served2 up 0x0700 0 [1, 3, 64, 0] linkConfigCheck = true ∧ served2 up 0x0701 0 [2, 100] linkTrainCheck = true ∧
    served2 up 0x0702 0 [1] unchecked = true ∧ servedOut 5 up 0x0703 0 [1, 0, 0] unchecked linkStatusOut = true ∧
    served2 up 0x0704 0 [1] linkRecalCheck = true ∧ served2 up 0x0705 3 [18, 1, 0] channelBindCheck = true ∧
    served2 up 0x0706 0 [17] channelReadCheck = true ∧ served2 up 0x0707 3 [2, 0x103, 0, 0, 0, 0, 0, 0, 0] mcGroupSetCheck = true ∧
    served2 up 0x0708 3 [17, 0, 0, 64, 0, 0] linkPushCheck = true ∧ served2 up 0x0709 3 [1, 0, 0, 4] linkMcastCheck = true ∧
    servedOut 5 up 0x070A 3 [1, 0, 0] linkMcReportCheck linkMcReportOut = true := by decide +kernel

theorem witness_KestrelCommands :
    served2 up 0x0800 0 [1] unchecked = true ∧
    servedAnd up 0x0801 0 [0x11] loopSetModeCheck (fun s x => decide ((tget s.loops (x.fld 4 2 0)).mode = modeOf (x.fld 4 6 4))) = true ∧
    servedAnd up 0x0801 0 [1] loopSetModeCheck (fun s x => decide ((tget s.loops (x.fld 4 2 0)).mode ≠ modeOf (x.fld 4 6 4))) = true ∧
    served2 up 0x0802 0 [1, 5] loopWriteCoefCheck = true ∧ served2 up 0x0803 0 [1, 5, 0x00090001] loopSetPointCheck = true ∧
    served2 up 0x0804 0 [1, 0x1000, 0, 4] loopTraceCheck = true ∧ served2 up 0x0805 0 [1, 0x1000, 0, 4, 0] loopInjectCheck = true ∧
    served2 up 0x0806 0 [1, 0] avsAccessCheck = true ∧ served2 up 0x0807 0 [] unchecked = true := by decide +kernel

/-- A drain, with the ticket of its DRAIN_START or without. -/
def draining (tk : Option Nat) : State := { up with integ := { dstate := .draining, drainTk := tk } }

theorem witness_IntegrityCommands :
    served2 up 0x0900 3 [0] checkModeSetCheck = true ∧
    servedOut 6 up 0x0901 0 [0, 0, 0, 0] ledgerReadCheck
      (fun s x => (List.range (x.fld 5 6 0 + 1)).flatMap (fun i => (tget s.ledger.recs (x.fld 4 11 0 + i)).bytes s)) = true ∧
    servedAnd { up with ledger := { recs := [(3, { kind := 1 })], order := [3] } } 0x0902 0 [3, 0, 0] signatureReadCheck
      (fun s x => xferStatus x 5 4096 == 0 && outReady s x) = true ∧
    served2 up 0x0903 0 [0x0901] kakRunCheck = true ∧ served2 up 0x0904 0 [1000] unchecked = true ∧
    served2 up 0x0905 0 [0] drainStartCheck = true ∧ served2 (draining (some 9)) 0x0906 0 [] drainCancelCheck = true ∧
    served2 (draining none) 0x0906 0 [] drainCancelCheck = true ∧
    served2 { up with fw := { unlocked := true } } 0x0907 0 [unitId 4 3, 1] errInjectCheck = true ∧
    served2 up 0x0908 0 [1, 0xFFFF] unchecked = true := by decide +kernel

theorem witness_OwlCommands :
    served2 up 0x0A00 0 [0x10001, 0, 0, 0, 0] (fun _ x => if portPresent (x.fld 4 14 8) (x.fld 4 18 16) then {} else no stParamRange) = true ∧
    served2 up 0x0A01 0 [1] unchecked = true ∧ served2 up 0x0A02 0 [0, 0, 0x10000, 1] traceConfigCheck = true ∧
    served2 up 0x0A03 0 [0] traceControlCheck = true ∧ served2 up 0x0A04 0 [] unchecked = true := by decide +kernel

theorem witness_DomainCommands :
    served2 up 0x0B00 0 [3, 0xFFFF] domainOffCheck = true ∧
    servedAnd up 0x0B01 0 [3] domainOnCheck (fun s x => (tget s.doms (x.fld 4 4 0)).on) = true ∧
    servedAnd { up with doms := [] } 0x0B01 0 [3] domainOnCheck (fun s x => !(tget s.doms (x.fld 4 4 0)).on) = true ∧
    served2 up 0x0B02 0 [] unchecked = true := by decide +kernel

/-- A served command of P3's mailbox, with P3 as it is at reset. -/
def served3 (s : State) (op : Nat) (more : State → Cmd → Bool) : Bool :=
  let p := if op = 0x0C04 then pkBlock op 0 24 else pk op 0 []
  let x := cm 192 p (List.replicate (if op = 0x0C04 then 24 else 0) 0)
  served (give s x) op 192 p x onlyP3 && more (give s x) x

/-- A served command of P2's mailbox, behind an older one of P0's. -/
def behind (s : State) (op : Nat) (pars : List Nat) (chk : State → Cmd → Verdict) : Bool :=
  let x := cm 128 (pk op 0 pars) []
  let t := { s with cmds := [{ cm 64 (pk 0 0 []) [] with id := 39, waits := 1 }, x] }
  served t op 128 x.pkt x chk && olderWaits t x

theorem witness_FirmwareCommands :
    servedAnd up 0x0C00 0 [0, 0, 0x200] patchLoadCheck (fun s x => !olderWaits s x) = true ∧
    behind up 0x0C00 [0, 0, 0x200] patchLoadCheck = true ∧
    servedAnd { up with fw := { patch := some (1, 1) } } 0x0C01 0 [] patchRemoveCheck (fun s x => !olderWaits s x) = true ∧
    behind { up with fw := { patch := some (1, 1) } } 0x0C01 [] patchRemoveCheck = true ∧
    served2 up 0x0C02 0 [] unchecked = true ∧ served3 up 0x0C03 (fun _ _ => true) = true ∧
    served3 up 0x0C04 (fun s x => !unlockOk s x) = true ∧ served3 up 0x0C05 (fun _ _ => true) = true := by decide +kernel

/-- A DEBUG_UNLOCK of P3 with a nonce. -/
def unlocking : Cmd := cm 192 (pkBlock 0x0C04 0 24) (List.replicate 24 0)

/-- Where the fuses allow debug and the signature verifies, it unlocks. -/
theorem witness_FirmwareCommands_unlock (h1 : Config.fuseDbgEn = true) (h2 : Config.fuseKeyRev.getLsbD Config.fuseDbgKey.toNat = false)
    (h3 : Config.verifies Config.fuseDbgKey.toNat (leBytes 8 Config.fuseSerial.toNat) (dwBytes unlocking.params) = true) :
    (let s := give { up with fw := { nonce := some [] } } unlocking
     served s 0x0C04 192 unlocking.pkt unlocking onlyP3 = true ∧ unlockOk s unlocking = true) := by
  refine ⟨by decide +kernel, ?_⟩
  have h4 : (({ up with fw := { nonce := some [] } } : State).bring.dbgoff) = false := by decide
  simp [unlockOk, unlockAvailable, nonceOver, give, h1, h2, h3]
  decide

end Sys2Proof.Tests
end

