-- ==== Sys2Proof/Tests/Events.lean ====
section
/-! SUPPORT. Witnesses: for each statement about the host, P2, the test access port, resets and stages, states and events that meet its
hypotheses, clause by clause in its order. -/

namespace Sys2Proof.Tests

set_option Elab.async false

open Sys2Proof.Machine Sys2Proof.Safety

/-! ### The host -/

/-- Function 0 with a link and its BAR open, QP0 as a change makes it of one that has an entry to fetch, and segment 0 on partition 3. -/
def host (f : Qp → Qp) : State :=
  { up with
    fns := [(0, { linkUp := true, mse := true, bme := true })]
    qps := [(0, f { live := true, en := true, rdy := true, sqlog := 4, cqlog := 4, sqtail := 3 })]
    segs := [(0, { en := true, wren := true, part := 3 })] }

/-- A function in the state that a write through its BAR needs. -/
def served0 (s : State) : Bool := fnUp s 0 && barOpen s 0

/-- Its BAR closed. -/
def closed : State := { host id with fns := [(0, { linkUp := true })] }

theorem witness_HostRegisters :
    served0 (host (fun _ => {})) = true ∧ (tget (host (fun _ => {})).qps 0).en = false ∧ (tget (host (fun _ => {})).qps 0).rdy = false ∧
    (let s := host (fun q => { q with en := false })
     served0 s && !(tget s.qps 0).en && (tget s.qps 0).rdy) = true ∧
    served0 (host id) = true ∧ (tget (host id).qps 0).en = true ∧ (tget (host id).qps 0).rdy = true ∧
    (let n := 2 ^ (tget (host id).qps 0).sqlog
     n = 16 ∧ 15 % 4096 < n ∧ n ≤ 16 % 4096 ∧ (tget (host id).qps 0).cqlog = 4) ∧ (tget (host (fun _ => {})).qps 0).rdy = false ∧
    (0x1010 ∈ [0x1000, 0x1004, 0x1008, 0x100C, 0x1010]) ∧ (0xFFC % 4 = 0 ∧ 0xFFC < 0x1000) ∧ (0xF100 % 4 = 0 ∧ 0xF100 ≤ 0xF100) ∧
    (fnUp closed 0 = true ∧ barOpen closed 0 = false) := by decide +kernel

/-- Segment 0 as a change makes it. -/
def seg0 (f : Seg → Seg) : State := { host id with segs := [(0, f { en := true, wren := true, part := 3 })] }

/-- A write of one byte at offset 0 of BAR2, or its read. -/
def put1 (s : State) (bad : List Nat) : Got := partWrite viaHost (tget s.segs (segKey 0 0)).part (segAddr (tget s.segs (segKey 0 0)) 0) [1] bad s

/-- Its read. -/
def get1 (s : State) : Got := partRead viaHost (tget s.segs (segKey 0 0)).part (segAddr (tget s.segs (segKey 0 0)) 0) 1 s

theorem witness_HostApertures :
    (served0 (seg0 id) = true ∧ segOpen (seg0 id) 0 true 0 1 = true ∧ (put1 (seg0 id) []).st = 0) ∧
    (let s := seg0 (fun g => { g with vpage := 1000 })
     served0 s = true ∧ segOpen s 0 true 0 1 = true ∧ (put1 s []).st ≠ 0 ∧ segOpen s 0 false 0 1 = true ∧ (get1 s).st ≠ 0) ∧
    (let s := seg0 (fun _ => {})
     served0 s = true ∧ segOpen s 0 true 0 1 = false ∧ segOpen s 0 false 0 1 = false) ∧
    (let t := bump cntPciePoisonRx (unitId 0x0C 0) (seg0 id)
     segOpen t 0 true 0 1 = true ∧ (put1 t [0]).st = 0) ∧
    (segOpen (seg0 id) 0 false 0 1 = true ∧ (get1 (seg0 id)).st = 0 ∧ (get1 (seg0 id)).bad = []) ∧
    (let s := { seg0 id with poison := [100 * pageSize / 32] }
     segOpen s 0 false 0 1 = true ∧ (get1 s).st = 0 ∧ (get1 s).bad ≠ []) ∧ (fnUp closed 0 = true ∧ barOpen closed 0 = false) := by decide +kernel

/-- A read of a submission entry of QP0 is under way. -/
def fetching0 : State := { host id with hostReads := [{ tag := 7, acc := 7, fn := 0, addr := 0, len := 64, kind := .sqEntry 0 0 }] }

theorem witness_HostFetches :
    (fnUp (host id) 0 = true ∧ mayFetch (host id) (64 * 0 + 0) = true ∧ canMaster (host id) 0 = true) ∧
    (let s := { host id with fns := [(0, { linkUp := true, mse := true })] }
     fnUp s 0 && mayFetch s 0 && !canMaster s 0) = true ∧
    (let s := fetching0
     match readOf s 7 with
     | some r => decide (r.kind = .sqEntry 0 0) && !olderFetch s r && decide (r.len = 64) && decide (s.hostReads.filter (fun x => x.acc == r.acc) = [r]) &&
         s.hostReads.all (fun x => decide (x.tag = r.tag → x.acc = r.acc)) && decide ((tget s.qps 0).epoch = 0) && (tget s.qps 0).rdy &&
         (tget s.qps 0).en && !(tget s.qps 0).enWaits
     | none => false) = true := by decide +kernel

theorem witness_HostFunctions :
    fnUp (host id) 0 = true ∧ (0 < 2 ∧ portExists up 0 = true ∧ up.bring.pll = true ∧ up.bring.inReset = false) := by decide +kernel

/-- P2's mailbox as it is, with a change. -/
def mbx2 (f : Mbx → Mbx) : State := { up with mbx := [(2, f (tget up.mbx 2))] }

/-- Port `p` is being reset. -/
def portResets (p : Nat) (s : State) : State := { s with ports := tset s.ports p { tget s.ports p with resetting := true } }

theorem witness_MailboxEvents :
    (up.bring.inReset = false ∧ (tget up.mbx 2).busy = false ∧ (tget up.ports 2).resetting = false ∧ (tget up.mbx 2).last ≠ some (mbxBytes up 2 0 64)) ∧
    (let s := mbx2 (fun m => { m with last := some (List.replicate 64 0) })
     (tget s.mbx 2).busy = false ∧ (tget s.mbx 2).last = some (mbxBytes s 2 0 64)) ∧
    (tget (mbx2 (fun m => { m with busy := true })).mbx 2).busy = true ∧
    ((tget (portResets 2 up).ports 2).resetting = true ∧ (tget (portResets 2 up).mbx 2).busy = false ∧ (tget (portResets 2 up).mbx 2).held = false) ∧
    (let s := portResets 2 (mbx2 (fun m => { m with held := true, busy := true }))
     (tget s.ports 2).resetting = true ∧ (tget s.mbx 2).held = true) := by decide +kernel

/-! ### P2 and the test access port -/

/-- A whole transfer to P2. -/
def heard (s : State) : P2Xfer := { addr := p2Address s, early := false, parityError := false, pec := none }

/-- P2 in its I3C mode, with what RSTACT chose. -/
def inI3c (a : Option Nat) : State := { up with p2 := { up.p2 with i3c := true, dyn := 9, rstact := a } }

theorem witness_P2Transfers :
    (p2Heard up (heard up) = true ∧ (heard up).early = false ∧ up.p2.i3c = false ∧ (heard up).pec ≠ some false) ∧
    (p2Heard (inI3c none) (heard (inI3c none)) = true ∧ (heard (inI3c none)).parityError = false ∧ (inI3c none).p2.i3c = true) ∧
    (p2RangeOk up 0x13FC 4 = true ∧ p2RangeOk up 0x40 (setptrLen up 32) = true ∧ p2RangeOk up 0x13FC 8 = false ∧
      p2RangeOk up 0x41 (setptrLen up 32) = false) ∧
    p2Heard up { heard up with early := true } = true ∧ p2Heard (inI3c none) { heard (inI3c none) with parityError := true } = true ∧
    p2Heard up { heard up with pec := some false } = true ∧ p2Heard up { heard up with pec := some true } = true ∧
    (up.bring.inReset = false ∧ pinsTaken up = false) := by decide +kernel

theorem witness_I3cCodes :
    p2Awake up = true ∧ up.p2.i3c = false ∧ p2I3c (inI3c none) = true ∧ (inI3c none).p2.rstact = none ∧ p2I3c (inI3c (some 2)) = true ∧
    ((inI3c (some 0)).p2.rstact = some 0 ∧ (0 ≠ 1 ∧ 0 ≠ 2)) ∧ (8 ≤ 259 ∧ 259 ≤ 259 ∧ 8 ≤ 256) ∧ (7 < 8 ∧ 259 < 260 ∧ 256 < 257) := by decide +kernel

/-- MBOX is selected, and an access to dword 3 is in progress or none is. -/
def mboxOn (a : Option (Nat × Option Dword)) (due : Bool) : State := { up with tap := { up.tap with ir := 0x20, access := a, resetDue := due } }

theorem witness_TapInstructions :
    (let v : BitVec 46 := BitVec.ofNat 46 (2 ^ 45 + 2 ^ 32 * 1279)
     let s := mboxOn none false
     s.bring.inReset = false ∧ s.tap.ir = 0x20 ∧ v.getLsbD 45 = true ∧ s.tap.access = none ∧ v.toNat / 2 ^ 32 % 2 ^ 11 ≤ 1279) ∧
    (let v : BitVec 46 := BitVec.ofNat 46 (2 ^ 45 + 2 ^ 32 * 1280)
     v.getLsbD 45 = true ∧ 1279 < v.toNat / 2 ^ 32 % 2 ^ 11) ∧
    (0 : BitVec 46).getLsbD 45 = false ∧
    ((mboxOn (some (3, none)) false).tap.access = some (3, none) ∧ (mboxOn (some (3, none)) false).tap.resetDue = false) ∧
    (mboxOn (some (3, some 5)) false).tap.access = some (3, some 5) ∧ (mboxOn (some (3, none)) true).tap.resetDue = true ∧
    up.tap.access = none := by decide +kernel

/-! ### Resets and bring-up -/

/-- A device in a stage of bring-up. -/
def inStage (n : Nat) (done : Bool) : State := { State.reset with bring := { pll := true, stage := n, s3done := done } }

/-- A reset is held. -/
def held : State := { State.reset with bring := { inReset := true } }

theorem witness_ResetEvents :
    (1000 ≤ 1000 ∧ 10000 ≤ 10000 ∧ up.bring.inReset = false ∧ held.bring.inReset = true ∧ 999 < 1000) ∧ (5 % 4 < 2 ∧ 2 ≤ 2 % 4) ∧
    (stageRuns State.reset = true ∧ State.reset.bring.stage = 1) ∧ (up.bring.pll = true ∧ 7 < 8 ∧ 3 ≤ up.bring.stage) ∧
    (tget up.pel 1).st = .active ∧ (tget ({ up with pel := [(1, { st := .training })] } : State).pel 1).st = .training := by decide +kernel

/-- The ledger holds a valid REPLACE record. -/
def pinned (s : State) : State := { s with ledger := { recs := [(3, { kind := 0x0F })], order := [3] } }

theorem witness_StageEvents :
    ([1, 2, 3].all (fun n => stageRuns (inStage n false) && (inStage n false).bring.pll && !(inStage n false).bring.s3done)) = true ∧
    (stageRuns (inStage 3 true) = true ∧ (inStage 3 true).bring.s3done = true ∧ replacePinned (inStage 3 true) = false) ∧
    (stageRuns (pinned (inStage 3 true)) = true ∧ replacePinned (pinned (inStage 3 true)) = true) ∧
    (runningStage (inStage 1 false).bring = 1 ∧ (causesOf 1).contains 0x01 = true ∧ unrecorded 0x01 = true) ∧
    (runningStage (inStage 2 false).bring = 2 ∧ (causesOf 2).contains 0x13 = true ∧ unrecorded 0x13 = false ∧
      causeNames 0x13 (unitId 0x0A 4) = true) ∧
    (runningStage (inStage 3 true).bring = 4 ∧ (causesOf 4).contains 0x30 = true ∧ causeNames 0x30 (unitId 0x0D 0) = true) ∧
    (runningStage (inStage 3 false).bring = 3 ∧ (causesOf 3).contains 0x20 = true ∧ causeNames 0x20 (unitId 0x07 5) = true) := by decide +kernel

end Sys2Proof.Tests
end

