-- ==== Sys2Proof/Tests/Links.lean ====
section
/-! SUPPORT. Witnesses: for each statement about Peloc Link, states, flits and transactions that meet its hypotheses, clause by clause
in its order. -/

namespace Sys2Proof.Tests

set_option Elab.async false

open Sys2Proof.Machine Sys2Proof.Safety

/-- Port 1 as the function makes it of an active one. -/
def port1 (f : Peloc → Peloc) : State := { up with pel := tset up.pel 1 (f { st := .active }) }

/-- The bytes of a flit of a kind with a sequence number. -/
def raw (kind seq : Nat) : List Byte := flitBytes { kind := kind, seq := seq, body := List.replicate 244 0 }

/-- A state after a flit has brought its ACK. -/
def acked (s : State) (kind seq : Nat) : State := takeAck 1 (parseFlit (raw kind seq)) (countFlit 1 false {} s)

/-- A good flit of a kind meets the sequence of port 1 as `a` says. -/
def meets (kind seq : Nat) (a : Arrival) : Bool :=
  let s := port1 (fun x => { x with rxSeq := 4 })
  listens s 1 && !flitBad (raw kind seq) {} && (parseFlit (raw kind seq)).kind == kind &&
    decide ((tget (acked s kind seq).pel 1).arrival (parseFlit (raw kind seq)).seq = a)

/-- A NAK finds that the replay it asks for is under way, or that it is not. -/
def naks (f : Peloc → Peloc) (under : Bool) : Bool :=
  let s := port1 f
  let g := parseFlit (raw 2 0)
  let t := onPel 1 (fun x => { x.acked g.ack with txCredit := tset x.txCredit g.crvc g.crtot }) (countFlit 1 false {} s)
  listens s 1 && !flitBad (raw 2 0) {} && g.kind == 2 && replayingFrom t 1 ((g.ack + 1) % 4096) == under

theorem witness_Flits :
    (listens (port1 id) 1 = true ∧ flitBad (raw 0 0) {} = false ∧ (parseFlit (raw 0 0)).kind = 0) ∧
    flitBad (List.replicate 256 0xFF) {} = true ∧
    (meets 1 5 .expected = true ∧ meets 3 5 .expected = true) ∧ (meets 1 6 .ahead = true ∧ meets 3 6 .ahead = true) ∧
    (meets 1 4 .duplicate = true ∧ meets 3 4 .duplicate = true) ∧
    (naks id false = true ∧ naks (fun x => { x with replay := [{ seq := 1 }], replaying := some (1, 9) }) true = true) ∧
    (let s := port1 (fun x => { x with replay := [{ seq := 1 }], replays := 15 })
     listens s 1 = true ∧ (tget s.pel 1).replay ≠ [] ∧ (tget s.pel 1).replays < 16) ∧
    (let s := port1 (fun x => { x with replay := [{ seq := 1 }], replays := 16 })
     listens s 1 = true ∧ (tget s.pel 1).replay ≠ [] ∧ 16 ≤ (tget s.pel 1).replays) := by decide +kernel

/-- A link-control message at port 1. -/
def told (f : Peloc → Peloc) (m : List Byte) : State := port1 (fun x => f { x with ctrl := [m] })

/-- What a peer AK520 says in HELLO (code 1) or HELLO_ACK (code 2). -/
def peerSays (c : Byte) : List Byte :=
  [c, 0, 0x6C, 0x1F, 0x20, 0x05, 0xB0, 3, 1, 64, 0, 0, 2, 0, 2, 192, 0, 0, 2, 0, 0, 0, 0, 0, 1, 0, 0, 0, 0, 0, 0, 0]

/-- Port 1 has asked to sleep or not, and may sleep or not, when a message comes. -/
def asksSleep (c : Byte) (asked : Bool) (idle : Nat) : State := told (fun x => { x with sleepReq := asked, cfg := { sleepidle := idle } }) [c]

/-- What port 1 is once that message has been taken. -/
def sleepAs (c : Byte) (asked : Bool) (idle : Nat) (p : State → Bool) : Bool :=
  let s := asksSleep c asked idle
  let t := onPel 1 (fun x => { x with ctrl := x.ctrl.tail }) s
  decide ((tget s.pel 1).st = .active) && (frontCtrl s 1 c.toNat).isSome && (tget t.pel 1).sleepReq == asked &&
    (tget t.pel 1).cfg.sleepidle == idle && p t

theorem witness_LinkControl :
    (let s := told (fun x => { x with st := .training, step := 4 }) (peerSays 1)
     inHello s 1 = true ∧ frontCtrl s 1 1 = some (peerSays 1) ∧ helloOk (peerSays 1) = true) ∧
    (let s := told (fun x => { x with st := .training, step := 4 }) (peerSays 2)
     inHello s 1 = true ∧ frontCtrl s 1 2 = some (peerSays 2) ∧ helloOk (peerSays 2) = true) ∧
    (sleepAs 3 true 0 (fun _ => true) = true ∧
     sleepAs 3 false 5 (fun t => decide ((tget t.pel 1).degRx = none) && portQuiet t 1) = true ∧
     sleepAs 3 false 0 (fun _ => true) = true) ∧
    sleepAs 4 true 0 (fun _ => true) = true ∧
    (frontCtrl (told id [5]) 1 5).isSome = true ∧
    (let s := told id [6, 2, 0]
     (tget s.pel 1).st = .active ∧ frontCtrl s 1 6 = some [6, 2, 0]) ∧
    (frontCtrl (told id [7]) 1 7).isSome = true := by decide +kernel

/-- Four good frame words. -/
def goodWords : List (List Byte) := [250, 251, 252, 253].map (fun n => frameWord n 0)

/-- Four bad ones. -/
def badWords : List (List Byte) := List.replicate 4 (List.replicate 10 0)

/-- Port 1 trains at a step. -/
def trains (step : Nat) (f : Peloc → Peloc) : State := port1 (fun x => f { x with st := .training, step := step })

/-- Port 1 once the lanes that are behind at T1 have failed. -/
def lagging (x : Peloc) : Peloc :=
  { x with lanes := (List.range 8).foldl (fun m l => tmod m l (fun q =>
      if (if x.step = 1 then laneLocked q else laneReady q) then q else { q with failed := true })) x.lanes }

/-- Lanes 0 to 3 are locked. -/
def halfLocked : Tab Lane := [0, 1, 2, 3].map (fun l => (l, { seen := true, locked := true }))

/-- Lane 7 of port 1 loses its lock under a configuration. -/
def laneLost (c : LinkCfg) (p : Peloc → Peloc → Bool) : Bool :=
  let s := port1 (fun x => { x with live := c })
  let x := tget s.pel 1
  decide (x.st = .active) && x.usesLane 7 && laneBad s 1 7 true &&
    p x { x with lanes := tmod x.lanes 7 (fun q => { q with failed := true }), sleepReq := false }

theorem witness_LinkTraining :
    (let s := trains 2 id
     (tget s.pel 1).st = .training ∧ (tget s.pel 1).step ≤ 2 ∧ 7 < 8) ∧
    ([1, 2].all (fun n => decide ((tget (trains n id).pel 1).st = .training) && (tget (trains n id).pel 1).step == n)) = true ∧
    (lagging (tget (trains 1 (fun x => { x with lanes := halfLocked })).pel 1)).hopeless = false ∧
    (lagging (tget (trains 1 id).pel 1)).hopeless = true ∧
    ((tget (trains 3 id).pel 1).st = .training ∧ 3 ≤ (tget (trains 3 id).pel 1).step) ∧
    ((tget (trains 0 id).pel 1).st = .training ∧ (tget (trains 0 id).pel 1).step = 0) ∧
    (let s := trains 3 (fun x => { x with lanes := (List.range 8).map (fun l => (l, { from_ := 7 - l })) })
     givesLock goodWords = true ∧ (tget s.pel 1).st = .training ∧ (tget s.pel 1).step = 3 ∧ (tget s.pel 1).order = some true) ∧
    (let s := port1 (fun x => { x with st := .sleep, waking := true })
     (tget s.pel 1).st = .sleep ∧ (tget s.pel 1).waking = true) ∧
    (losesLock badWords = true ∧ (tget (port1 id).pel 1).st = .active) ∧
    laneLost { degauto := false } (fun x _ => !x.live.degauto) = true ∧
    laneLost {} (fun x x1 => x.live.degauto && x.live.wmin && x.rxWidth == 0 && x1.half (1 - 7 / 4) (fun q => !q.failed) &&
      decide (x.degRx = none)) = true ∧
    (tget (port1 (fun x => { x with degRx := some (1, 3) })).pel 1).degRx = some (1, 3) ∧
    (tget (port1 (fun x => { x with degTx := some (2, 3) })).pel 1).degTx = some (2, 3) := by decide +kernel

theorem witness_LinkPower :
    (let s := port1 (fun x => { x with cfg := { sleepidle := 5 } })
     (tget s.pel 1).st = .active ∧ (tget s.pel 1).cfg.sleepidle ≠ 0 ∧ (tget s.pel 1).sleepReq = false ∧ portQuiet s 1 = true) ∧
    (let s := port1 (fun x => { x with st := .sleep })
     (tget s.pel 1).st = .sleep ∧ (tget s.pel 1).waking = false) ∧
    (let s := port1 (fun x => { x with st := .sleep, waking := true })
     (tget s.pel 1).st = .sleep ∧ (tget s.pel 1).waking = true) ∧
    ((tget (port1 id).pel 1).st = .active ∧ (tget (port1 id).pel 1).live.recal = true) ∧
    (tget (port1 (fun x => { x with recalTks := [9] })).pel 1).recalTks = [9] := by decide +kernel

/-- Link channel 1 of port 1 as partition 3 has opened it. -/
def open1 : Chan := { valid := true, owner := 3, inen := true, tokenok := true, mcok := true, inwin := 1 }

/-- Port 1 has received a transaction. -/
def received (t : PelTx) : State := port1 (fun x => { x with rx := [t] })

/-- A transaction of a type, at the first byte of the window, under that channel. -/
def tx (typ : Nat) : PelTx :=
  { ttype := typ, lch := 1, len := 1, rtile := 4, addr := 100 * pageSize, data := List.replicate 16 0, gate := { chan := open1 } }

/-- A block push: a header without payload and its sector. -/
def pushTx : PelTx :=
  let h : List Byte := List.replicate 11 0
  { tx 0x04 with len := 2, data := h ++ [BitVec.ofNat 8 (crc8 h)] ++ List.replicate 20 0 }

/-- A received transaction of type `n` and what its checks come to. -/
def comes (t : PelTx) (n : Nat) (p : Nat → Bool) : Bool := decide (frontTx (received t) 1 n = some t) && p (inboundStatus (received t) t)

/-- Outbound transaction 9 of port 1 waits, of a type, for a reason, when a response of a type comes. -/
def awaits (typ : Nat) (why : OutWhy) (resp : Nat) (p : OutTx → Bool) : Bool :=
  let t : PelTx := { ttype := resp, tag := 9 }
  let s := port1 (fun x => { x with rx := [t], out := [(9, { live := true, ttype := typ, why := why })] })
  decide (frontTx s 1 resp = some t) && (tget (tget s.pel 1).out t.tag).live && p (tget (tget s.pel 1).out t.tag)

theorem witness_PelocTransactions :
    ([0x01, 0x02, 0x03, 0x04].all (fun n => comes { tx n with gate := {} } n (· != 0))) = true ∧
    ([0x01, 0x02, 0x03, 0x04].all (fun n => comes { tx n with gate := { chan := open1, fence := some 7 } } n (· == stDomainFenced))) = true ∧
    ([0x01, 0x02, 0x03].all (fun n => comes (tx n) n (· == 0))) = true ∧ comes pushTx ttPush (· == 0) = true ∧
    awaits ttRd (.chip {}) ttRdData (fun o => o.ttype == ttRd && decide (o.why = .chip {})) = true ∧
    (awaits ttWr (.chip {}) ttAck (fun o => o.ttype == ttWr && decide (o.why = .chip {})) = true ∧
     awaits ttToken (.chip {}) ttAck (fun o => o.ttype == ttToken && decide (o.why = .chip {})) = true) ∧
    awaits ttPush (.push 3 0 48) ttAck (fun o => o.ttype == ttPush && decide (o.why = .push 3 0 48)) = true ∧
    ([ttRd, ttWr, ttToken, ttPush].all (fun n => awaits n .nobody ttNack (fun o => o.ttype == n))) = true ∧
    ([ttRdData, ttAck, ttNack].all (fun n =>
      decide (frontTx (received { ttype := n, tag := 9 }) 1 n = some { ttype := n, tag := 9 }) &&
        !(tget (tget (received { ttype := n, tag := 9 }).pel 1).out 9).live)) = true ∧
    (let s := port1 (fun x => { x with out := [(9, { live := true, ttype := ttRd })] })
     (tget (tget s.pel 1).out 9).live = true ∧ hasAnswer s 1 9 = false) ∧
    (let s := port1 (fun x => { x with pushes := [{}] })
     (tget s.pel 1).pushes.find? (fun q => q.flying == 0 && (q.failed.isSome || q.left == 0)) = some {}) := by decide +kernel

/-- A node of group 5 below port 1, with port 2 as its child, or the group's root with port 1 as its child. -/
def node (root : Bool) (run : Option LmcRun) (t : PelTx) : State :=
  { received t with
    groups := [(5, { valid := true, root := root, owner := 3, lch := 1, parent := if root then 0 else 1, node := 2,
                     child := if root then 2 else 4, run := run })] }

/-- A transaction of a link multicast of group 5, under an open channel. -/
def lmcTx (typ : Nat) : PelTx :=
  { ttype := typ, lch := 1, rtile := 5, nmask := 4, len := 1, slast := true, data := List.replicate 16 0, gate := { chan := open1 } }

/-- Port 1 holds a multicast of group 5 of which one segment has come. -/
def holding (t : PelTx) : State := port1 (fun x => { x with rx := [t], lmc := some { group := 5, total := 4 } })

/-- The multicast that port 1 holds, as a segment completes it or not. -/
def holds (t : PelTx) (p : State → LmcBuf → Bool) : Bool :=
  let s := holding t
  decide (frontTx s 1 ttLmcData = some t) && t.barred == 0 &&
  (match (tget s.pel 1).lmc with
   | some b => b.group == t.rtile && !b.whole && p s b
   | none => false)

/-- A node in the middle: port 2 is its child, and it takes what the child says. -/
def middle (t : PelTx) : State :=
  let s := node false (some { total := 4 }) t
  { s with groups := tmod s.groups 5 (fun g => { g with parent := 0, child := 2 }) }

/-- A message of a child of group 5. -/
def fromBelow (s : State) (n : Nat) (root : Bool) : Bool :=
  decide (frontTx s 1 n = some (lmcTx n)) && fromChild (tget s.groups 5) 1 && (tget s.groups 5).root == root

theorem witness_LinkMulticastEvents :
    (let s := node false none (lmcTx 0x10)
     frontTx s 1 ttReserve = some (lmcTx 0x10) ∧ reserveRefusal s 1 (lmcTx 0x10) = 0) ∧
    (let t := { lmcTx 0x10 with gate := {} }
     let s := node false none t
     frontTx s 1 ttReserve = some t ∧ reserveRefusal s 1 t ≠ 0) ∧
    (fromBelow (node true (some { root := true, total := 4 }) (lmcTx 0x18)) ttGrant true = true ∧
     fromBelow (middle (lmcTx 0x18)) ttGrant false = true) ∧
    holds { lmcTx 0x11 with slast := false } (fun _ b => !(b.take { lmcTx 0x11 with slast := false }).full) = true ∧
    holds (lmcTx 0x11) (fun s b => (b.take (lmcTx 0x11)).full && (freeTag s (pelocRouter 1) 2).isSome) = true ∧
    ([0x11, 0x12].all (fun n =>
      let t := { lmcTx n with gate := {} }
      t.barred != 0 && decide (frontTx (received t) 1 n = some t))) = true ∧
    fromBelow (node true (some { root := true, total := 4 }) (lmcTx 0x19)) ttResult true = true ∧
    fromBelow (middle (lmcTx 0x19)) ttResult false = true ∧
    (let s := node false none (lmcTx 0x12)
     frontTx s 1 ttAbort = some (lmcTx 0x12) ∧ (lmcTx 0x12).barred = 0 ∧ (tget s.groups 5).valid = true ∧ (tget s.groups 5).parent = 1 ∧
       (tget s.groups 5).root = false) ∧
    ([true, false].all (fun d => decide ((tget (node true (some { root := true, dataSent := d }) (lmcTx 0x18)).groups 5).run =
      some { root := true, dataSent := d }))) = true ∧
    (let s := node false (some { total := 4 }) (lmcTx 0x18)
     (tget s.groups 5).run = some { total := 4 } ∧ lmcPorts s 5 = []) := by
  decide +kernel

end Sys2Proof.Tests
end

