-- ==== Sys2Proof/Tests/Network.lean ====
section
/-! SUPPORT. Witnesses: for each statement about contexts, jobs, memory and the on-chip network, states and packets that meet its
hypotheses, clause by clause in its order. -/

namespace Sys2Proof.Tests

set_option Elab.async false

open Sys2Proof.Machine Sys2Proof.Safety

/-! ### Contexts, jobs and memory -/

/-- Context 4 is in the cache, and codec engine 1 waits for it. -/
def waiting : State := { up with cm := { base := some 0x40000000, resident := [4], waiting := [(engineKey 1, 4)] } }

theorem witness_ContextEvents :
    (hasWaiters waiting 4 = true ∧ streamsOpen waiting = true) ∧
    (waiting.cm.waiting.find? (fun w => w.2 == 4) = some (engineKey 1, 4) ∧ tget waiting.cm.holder 4 = none ∧ resident waiting 4 = true) ∧
    (let s := { up with cm := { base := some 0x40000000, clearing := some 9 } }
     s.cm.clearing = some 9 ∧ s.cm.base = some 0x40000000) := by decide +kernel

/-- A job of partition 3 that compresses 64 bytes, with a change of its first descriptor dword. -/
def job (d0 : Nat) : Job := { id := 6, part := 3, desc := [d0, 0, 0, 0, 0, 64, 0, 0, 4096, 0, 0, 0, 0, 0, 0, 0].map dw, srcLeft := 64 }

/-- That job queued. -/
def jobQueued (d0 : Nat) : State := { up with jobs := [job d0] }

/-- A change of it on engine 0. -/
def jobOn (f : Job → Job) : State := { up with jobs := [f { job 0 with engine := some 0 }], engines := [(0, { job := some 6 })] }

/-- The job of engine 0. -/
def theJob (s : State) (p : Job → Bool) : Bool :=
  match (tget s.engines 0).job.bind (jobOf s) with
  | some j => p j
  | none => false

/-- The job that engine 0 may take. -/
def nextJob (s : State) (p : Job → Bool) : Bool :=
  (tget s.engines 0).job.isNone && match sliceFor s 0 with | some j => lowestFree s 0 j && !j.didSize && p j | none => false

/-- A job of tile 4's CODEC that has ended, with its descriptor at an address of partition 3, and what writing its result there comes to. -/
def ended4 (a tries : Nat) (behind : Bool) : State :=
  { jobOn (fun j => { j with ending := some stOk, prog := some (7, 4), descAddr := a, tries := tries }) with
    windows := [(48, if behind then { hbmWindow with ext := [(storeAddr 63 0 / pageSize, 1)] } else hbmWindow)]
    doms := tset up.doms 3 { on := true, fenced := behind, hint := 7 } }

theorem witness_CodecEvents :
    nextJob (jobQueued 0) (fun j => !j.d.ordered) = true ∧ nextJob (jobQueued (2 ^ 8))
      (fun j => j.d.ordered) = true ∧
    theJob (jobOn id) (fun j => blockReady (jobOn id) 0 j && decide (j.pass = .queued) && (jobStart j (jobOn id)).1.ending.isNone) = true ∧
    (let s := { jobOn (fun j => { j with desc := (job (2 ^ 8)).desc }) with cm := { base := some 0x40000000, resident := [0], holder := [(0, some (engineKey 0))] } }
     theJob s (fun j => blockReady s 0 j && decide (j.pass = .queued) && (jobStart j s).1.ending.isSome)) = true ∧
    (let s := jobOn (fun j => { j with pass := .direct })
     theJob s (fun j => blockReady s 0 j && decide (j.pass ≠ .queued))) = true ∧
    theJob (jobOn (fun j => { j with pass := .sized, need := 4097 })) (fun j => decide (j.pass = .sized) && decide (j.d.dstlen < j.need)) = true ∧
    theJob (jobOn (fun j => { j with pass := .sized, need := 4096 })) (fun j => decide (j.pass = .sized) && decide (j.need ≤ j.d.dstlen)) = true ∧
    theJob (jobOn (fun j => { j with ending := some stOk })) (fun j => decide (j.ending = some stOk) && j.prog.isNone) = true ∧
    theJob (ended4 0 0 false) (fun j => j.ending.isSome && decide (j.prog = some (7, 4)) &&
      ((resultGot j (ended4 0 0 false)).stop.again j.tries).isNone) = true ∧
    theJob (ended4 0 0 true) (fun j => j.ending.isSome && ((resultGot j (ended4 0 0 true)).stop.again j.tries).isSome) = true := by decide +kernel

theorem witness_MemoryEvents :
    (tget ({ up with windows := [(winKey 3 2, { hbmWindow with zeroing := true })] } : State).windows (winKey 3 2)).zeroing = true ∧
    scrubs up (memUnit 0x100) 0x100 = true := by decide +kernel

/-! ### Requests -/

/-- A packet for a place and an address, from router 0. -/
def pktTo (typ vn dest dport a : Nat) : NocPkt :=
  { typ := typ, vn := vn, dest := dest, dport := dport, part := 3, len := 1, addr := a, data := List.replicate 16 0 }

/-- For tile 4's store. -/
def toTile4 (typ vn : Nat) : NocPkt := pktTo typ vn (tileRouter 4) 0 (storeAddr 4 0)

/-- For host spill. -/
def toHost (typ : Nat) : NocPkt := pktTo typ 0 hostRouter 0 hostBase

/-- Host spill lies behind function 0, which has a link or none. -/
def spilling (link : Bool) : State :=
  { up with hostSpill := some { fn := 0, base := 0x100000, first := 0, count := 8 }, fns := [(0, { linkUp := link, mse := true, bme := true })] }

/-- Quadrant 1, which holds tile 4, is fenced. -/
def fenced1 : State := { up with doms := tset up.doms 1 { on := true, fenced := true, hint := 7 } }

/-- An undamaged request where it arrives. -/
def asks (s : State) (k : NocPkt) (p : State → NocPkt → Bool) : Bool := wholeAt s k.typ 0 k {} && p (landed k {} s) (asTaken k)

/-- What came of a write's arrival. -/
def cameTo (k : NocPkt) (d : Damage) (p : Arrived → Bool) : Bool := k.typ == 0x02 && (arrive k d up).1.came && p (arrive k d up).1

theorem witness_NocRequests :
    asks (spoilWords [] up) (toTile4 0x01 0) (fun t k => memoryAt t k && decide (levelOf k.addr ≠ .host)) = true ∧
    asks (spoilWords [] (spilling true)) (toHost 0x01)
      (fun t k => memoryAt t k && decide (levelOf k.addr = .host) && t.hostSpill.isSome && !noTransport t k.addr) = true ∧
    asks (spoilWords [] (spilling false)) (toHost 0x01) (fun t k => memoryAt t k && decide (levelOf k.addr = .host) && noTransport t k.addr) = true ∧
    asks up (toTile4 0x02 0) (fun t k => memoryAt t k && !noTransport t k.addr) = true ∧
    asks (spilling false) (toHost 0x02) (fun t k => memoryAt t k && noTransport t k.addr) = true ∧
    asks up (toTile4 0x03 0) (fun t k => (fenceBefore t k).isNone && decide (routerTile k.dest = some 4) && !isShadow t 4 &&
      decide ((tget t.tiles 4).owner = some k.part)) = true ∧
    ([0x04, 0x05].all (fun n => asks up { toTile4 n 0 with sys := true } (fun t k => (fenceBefore t k).isNone && k.sys))) = true ∧
    ([0x04, 0x05].all (fun n => asks up (toTile4 n 0) (fun t k => (fenceBefore t k).isNone && !k.sys))) = true ∧
    ([0x01, 0x02, 0x03, 0x04, 0x05].all (fun n => asks fenced1 (toTile4 n 0) (fun t k => decide (fenceBefore t k = some 7)))) = true ∧
    ([0x01, 0x02, 0x03].all (fun n => asks up { toTile4 n 0 with part := 6 }
      (fun t k => (fenceBefore t k).isNone && decide (routerTile k.dest = some 4) && tileCheck t 4 k != 0))) = true ∧
    ([0x01, 0x02, 0x03].all (fun n => asks (if n = 1 then spoilWords [] up else up) (pktTo n 0 (pelocRouter 1) 2 0) (fun t k =>
      (fenceBefore t k).isNone && decide (routerTile k.dest = none) && decide (routerPeloc k.dest = some 1)))) = true ∧
    ([0x01, 0x02, 0x03].all (fun n => asks (if n = 1 then spoilWords [] up else up) (pktTo n 0 hostRouter 0 0) (fun t k =>
      (fenceBefore t k).isNone && decide (routerTile k.dest = none) && k.dport != 2 && decide (placeOf k.addr ≠ (k.dest, k.dport))))) = true ∧
    cameTo (pktTo 0x02 0 100 0 0) {} (fun _ => true) = true ∧ (99 < 100) ∧
    (cameTo (pktTo 0x02 0 99 7 0) {} (fun _ => true) = true ∧ localPort 99 7 = false) ∧
    (cameTo { toTile4 0x02 0 with rsvd := 1 } {} (fun _ => true) = true ∧ badHeader { toTile4 0x02 0 with rsvd := 1 } = true ∧
      localPort (tileRouter 4) 0 = true) ∧
    (cameTo (toTile4 0x02 0) { header := true } (fun a => a.real.header) = true ∧ badHeader (toTile4 0x02 0) = false) := by decide +kernel

/-! ### Responses -/

/-- Tile 5 waits for the answer to a request of a type, with tag 9. -/
def asked (f : NocReq → NocReq) (typ : Nat) : State :=
  { up with reqs := [f { pkt := { toTile4 typ 0 with src := tileRouter 5, tag := 9 }, why := .moveWrite 5 }] }

/-- An answer of a type to it. -/
def answerTo5 (typ : Nat) : NocPkt := { typ := typ, vn := 1, dest := tileRouter 5, part := 3, tag := 9, src := tileRouter 4 }

/-- A NACK of a fence, with its HINT. -/
def nackTo5 (hint : Nat) : NocPkt := { answerTo5 0x0A with status := stDomainFenced, hint := hint }

/-- The request that the answer names is outstanding where it arrives. -/
def finds (s : State) (k : NocPkt) (p : NocReq → Bool) : Bool :=
  wholeAt s k.typ 1 k {} &&
  (match reqOf (landed k {} s) k.dest k.dport k.tag with
   | some x => p x
   | none => false)

/-- The request of tile 5 with tag 9. -/
def waitsAt5 (s : State) (p : NocReq → Bool) : Bool :=
  match reqOf s (tileRouter 5) 0 9 with
  | some x => p x
  | none => false

/-- Tile 5 sends a multicast to tile 4. -/
def sends5 (m : McSend) : State := { up with tiles := [(4, { owner := some 3 }), (5, { owner := some 3, send := some m })] }

/-- That multicast, while no request has its tag. -/
def sendsAt5 (s : State) (p : McSend → Bool) : Bool :=
  (reqOf s (tileRouter 5) 0 9).isNone && match sendAt s (tileRouter 5) 0 with | some m => m.tag == 9 && p m | none => false

theorem witness_NocResponses :
    ([0x01, 0x04].all (fun n => finds (asked id n) (answerTo5 0x08) (fun x => x.pkt.typ == n))) = true ∧
    ([0x02, 0x03, 0x05].all (fun n => finds (asked id n) (answerTo5 0x09) (fun x => x.pkt.typ == n))) = true ∧
    finds (asked id 0x02) (nackTo5 5) (fun x => decide (x.attempts < 16)) = true ∧
    (finds (asked (fun x => { x with attempts := 16 }) 0x02) (nackTo5 5) (fun x => decide (16 ≤ x.attempts)) = true ∧
      finds (asked id 0x02) (nackTo5 0xFFFF) (fun _ => true) = true) ∧
    ([0x08, 0x09, 0x0A].all (fun n => wholeAt up n 1 (answerTo5 n) {} &&
      (reqOf (landed (answerTo5 n) {} up) (tileRouter 5) 0 9).isNone)) = true ∧
    ([0x01, 0x02].all (fun n => waitsAt5 (asked id n) (fun x => timed x.pkt && x.backoff.isNone && x.pkt.typ == n))) = true ∧
    sendsAt5 (sends5 { tag := 9, mask := 0x10 }) (fun m => !m.granted) = true ∧
    sendsAt5 (sends5 { tag := 9, mask := 0x10, grants := [(4, 1)], sent := true }) (fun m => m.granted && m.sent) = true ∧
    waitsAt5 (asked (fun x => { x with backoff := some 3 }) 0x01)
      (fun x => x.backoff.isSome && !srcFenced (asked (fun x => { x with backoff := some 3 }) 0x01) x.pkt) = true := by decide +kernel

/-! ### Multicasts -/

/-- A packet of a multicast from tile 5 to tile 4. -/
def mcTo4 (typ : Nat) : NocPkt :=
  { typ := typ, vn := 2, mask := 0x10, part := 3, tag := 9, src := tileRouter 5, len := 1, mtotal := 1, data := List.replicate 16 0 }

/-- An answer of tile 4 to tile 5's multicast. -/
def mcFrom4 (typ : Nat) : NocPkt := { typ := typ, vn := 1, dest := tileRouter 5, part := 3, tag := 9, src := tileRouter 4 }

/-- Tile 4's landing buffer is reserved by that multicast. -/
def landing4 (f : Landing → Landing) : State :=
  { up with tiles := [(4, { owner := some 3, landing := some (f { src := tileRouter 5, tag := 9, part := 3, total := 1 }) }), (5, { owner := some 3 })] }

/-- The multicast of tile 5 where an answer arrives. -/
def sender (s : State) (k : NocPkt) (p : McSend → Bool) : Bool :=
  wholeAt s k.typ 1 k {} && decide (routerTile k.src = some 4) &&
  (match sendAt (landed k {} s) k.dest k.dport with
   | some m => m.tag == k.tag && m.mask.getLsbD 4 && p m
   | none => false)

/-- The landing of tile 4 where a packet of its multicast arrives. -/
def lands (s : State) (k : NocPkt) (p : Landing → Bool) : Bool :=
  wholeAtTile s k.typ k {} 4 && match (tget (landed k {} s).tiles 4).landing with | some l => p l | none => false

/-- The landing of tile 4. -/
def landingNow (s : State) (p : Landing → Option Nat → Bool) : Bool :=
  match (tget s.tiles 4).landing with
  | some l => p l (tget s.tiles 4).owner
  | none => false

theorem witness_Multicast :
    ([0x10, 0x12, 0x13].all (fun n => wholeAtMask (landing4 id) n { mcTo4 n with mask := 0x30 } {})) = true ∧
    ([0x10, 0x11].all (fun n => wholeAtTile up n (mcTo4 n) {} 4 && (tget (landed (mcTo4 n) {} up).tiles 4).landing.isNone)) = true ∧
    sender (sends5 { tag := 9, mask := 0x10 }) (mcFrom4 0x0B) (fun m => tget m.grants 4 == 0) = true ∧
    sender (sends5 { tag := 9, mask := 0x10, grants := [(4, 1)] }) (mcFrom4 0x0C) (fun m => tget m.grants 4 == 1 && tget m.results 4 == 0) = true ∧
    ([0x0B, 0x0C].all (fun n => wholeAt up n 1 (mcFrom4 n) {} && (sendAt (landed (mcFrom4 n) {} up) (tileRouter 5) 0).isNone)) = true ∧
    lands (landing4 id) (mcTo4 0x11) (fun l => l.of (asTaken (mcTo4 0x11)) && decide (l.off ≤ 0) && decide ((0 - l.off) / 16 + 1 ≤ l.total) &&
      (List.range 1).all (fun g => !l.got.contains ((0 - l.off) / 16 + g))) = true ∧
    lands (landing4 id) { mcTo4 0x11 with addr := 16 } (fun l => l.of (asTaken { mcTo4 0x11 with addr := 16 }) &&
      decide (l.total < (16 - l.off) / 16 + 1)) = true ∧
    lands (landing4 (fun l => { l with tag := 8 })) (mcTo4 0x11) (fun l => !l.of (asTaken (mcTo4 0x11))) = true ∧
    landingNow (landing4 (fun l => { l with whole := true })) (fun l o => l.whole && decide (o = some l.part)) = true ∧
    landingNow (landing4 (fun l => { l with whole := true, part := 6 })) (fun l o => l.whole && decide (o ≠ some l.part)) = true ∧
    landingNow (landing4 id) (fun l _ => !l.whole) = true := by decide +kernel

theorem witness_DomainEvents :
    (let s := { up with tiles := [], doms := tset up.doms 1 { on := true, fenced := true, offTk := some 9 } }
     (tget s.doms 1).offTk = some 9 ∧ (tget s.doms 1).fenced = true ∧ (tget s.doms 1).on = true ∧ domainQuiet s 1 = true) ∧
    (let s := { up with tiles := [], doms := tset up.doms 1 { fenced := true, onTks := [9] } }
     (tget s.doms 1).on = false ∧ (tget s.doms 1).onTks ≠ []) := by decide +kernel

end Sys2Proof.Tests
end

