-- ==== Sys2Proof/Tests/Rules.lean ====
section
/-! SUPPORT. Witnesses: for each statement about Kestrel, the board, integrity, partitions, the trace and firmware in time, and for
the rules over many commands, states that meet its hypotheses, clause by clause in its order. -/

namespace Sys2Proof.Tests

set_option Elab.async false

open Sys2Proof.Machine Sys2Proof.Safety

/-- AVSBus 0 carries a frame. -/
def frame (w : AvsWhat) : State := { up with avs := [(0, { frame := some (w, 543) })] }

theorem witness_KestrelEvents :
    sampleReady up = true ∧ (tget (frame .readback).avs 0).frame = some (.readback, 543) ∧
    (tget (frame (.write 750 false)).avs 0).frame = some (.write 750 false, 543) ∧
    (tget (frame (.partner 1 750 (cm 128 (pk 0 0 []) []))).avs 0).frame = some (.partner 1 750 (cm 128 (pk 0 0 []) []), 543) ∧
    (tget ({ up with avs := [(0, { late := true })] } : State).avs 0).late = true ∧
    (let s := { up with loops := [(4, { coef := [(0x0AD, 5)] })] }
     4 < 5 ∧ (tget s.loops 4).w 0x0AD ≠ 0 ∧ s.bring.inReset = false ∧ 2 ≤ s.bring.stage ∧ (tget s.loops 4).suspended = false) ∧
    (let s := { up with timebase := 5 + 10 ^ 5, board := { up.board with hot := true, coolSince := some 5 } }
     (s.board.hot = true ∨ s.board.critical = true) ∧ s.board.coolSince = some 5 ∧ 5 + 10 ^ 5 ≤ s.timebase) := by decide +kernel

/-- The state after one second, three times, with a change of the board. -/
def later (f : Board → Board) : State := { up with timebase := 3 * 10 ^ 8, board := f up.board }

theorem witness_BoardEvents :
    (up.bring.inReset = false ∧ up.board.pwr = false ∧ up.board.therm = false) ∧
    ((later (fun b => { b with pwr := true, therm := true })).board.pwr = true ∧
      (later (fun b => { b with pwr := true, therm := true })).board.therm = true) ∧
    (let b := (later (fun b => { b with pwr := true, therm := true })).board
     b.pwrStuck = false ∧ b.pwrSince + 10 ^ 8 ≤ 3 * 10 ^ 8 ∧ b.thermStuck = false ∧ b.thermSince + 10 ^ 8 ≤ 3 * 10 ^ 8) ∧
    (1 < 2 ∧ (tget (later id).board.tach 1).edges.head? ≠ some (later id).timebase) ∧
    (let s := later (fun b => { b with tach := [(1, { edges := [2 * 10 ^ 8] })] })
     (tget s.board.tach 1).edges ≠ [] ∧ (tget s.board.tach 1).edges.getD 0 0 + 10 ^ 8 ≤ s.timebase) ∧
    (let s := later (fun b => { b with dutySince := some 0 })
     (tget s.board.tach 1).stuck = false ∧ (tget s.board.tach 1).speed s.timebase = 0 ∧ s.board.dutySince = some 0 ∧
       0 + 3 * 10 ^ 8 ≤ s.timebase) := by
  decide +kernel

/-- A device whose self-test runs kernel 0 everywhere. -/
def tested : State := { up with integ := { selfEn := true, selfMask := 1 } }

/-- Tile 4 runs kernel 0, and a fault of it is armed or not. -/
def kernel4 (f : KernelRun → KernelRun) (inject : Bool) : State :=
  { up with
    tiles := [(4, { owner := some 3, kernel := some (f { k := 0 }) })]
    integ := { up.integ with inject := if inject then [(unitId 0x01 4, 9, 1)] else [] } }

/-- That kernel, and whether a fault of it is armed. -/
def runs4 (f : KernelRun → KernelRun) (inject : Bool) (p : KernelRun → Bool) : Bool :=
  (match (tget (kernel4 f inject).tiles 4).kernel with | some k => p k | none => false) && armed (kernel4 f inject) (unitId 0x01 4) 9 == inject

/-- A drain in progress that leaves no job. -/
def drains (f : Integ → Integ) : State := { up with progs := [], integ := f { up.integ with dstate := .draining } }

theorem witness_IntegrityEvents :
    (tested.bring.inReset = false ∧ tested.integ.selfEn = true ∧ tested.integ.dstate = .running ∧ backgroundRuns tested = false ∧
      (nextTileOf tested).isSome = true ∧ (nextTileOf tested).bind (nextKernelOf tested) = some 0) ∧
    (let c : Confirm := { tile := 4, left := [32 * 4 + 1] }
     let s := { up with integ := { up.integ with confirms := [c] } }
     s.integ.confirms.findIdx? (fun c => !c.running && (match c.left with | r :: _ => r / 32 == 4 | [] => false)) = some 0 ∧
       (tget s.doms (quadOf 4)).on = true ∧ s.bring.inReset = false) ∧
    runs4 id false (fun k => !k.rerun) = true ∧ runs4 (fun k => { k with rerun := true }) false (fun k => k.rerun && !k.forced) = true ∧
    runs4 id true (fun k => !k.rerun) = true ∧
    runs4 (fun k => { k with rerun := true, forced := true }) false (fun k => k.rerun && k.forced) = true ∧
    (let s := drains (fun x => { x with deadline := 0 })
     s.integ.dstate = .draining ∧ s.integ.drainOver = false ∧ s.integ.deadline ≠ 0xFFFFFFFF ∧
       s.integ.drainStart + s.integ.deadline * 10 ^ 5 ≤ s.timebase) ∧
    (let s := drains (fun x => { x with drainTk := some 9 })
     s.integ.dstate = .draining ∧ s.integ.drainOver = false ∧ jobsLeft s = false ∧ s.integ.drainTk = some 9 ∧ s.integ.drainSuspect = false) ∧
    (let s := drains (fun x => { x with drainSuspect := true })
     s.integ.dstate = .draining ∧ s.integ.drainOver = false ∧ jobsLeft s = false ∧ s.integ.drainTk = none ∧ s.integ.drainSuspect = true) := by
  decide +kernel

/-- A CRC that a kernel's expected one is not. -/
theorem witness_IntegrityEvents_crc : Config.kakExpected 0 + 1 ≠ Config.kakExpected 0 := by
  intro h
  have h1 : ∀ v : BitVec 32, v + 1 = v → False := by
    intro v h2
    have := congrArg BitVec.toNat h2
    simp [BitVec.toNat_add] at this
    omega
  exact h1 _ h

/-- Partition 3 in a state. -/
def part3 (f : Part → Part) : State := { up with progs := [], parts := [(3, f { state := .resetting, resetTks := [9] })] }

theorem witness_PartitionEvents :
    ((tget (part3 id).parts 3).state = .resetting ∧ partAwaited (part3 id) 3 = false ∧ (tget (part3 id).parts 3).laterTks = []) ∧
    (let s := part3 (fun x => { x with laterTks := [7] })
     (tget s.parts 3).state = .resetting ∧ partAwaited s 3 = false ∧ (tget s.parts 3).laterTks ≠ []) ∧
    (let s := part3 (fun x => { x with state := .destroying })
     (tget s.parts 3).state = .destroying ∧ partAwaited s 3 = false) := by decide +kernel

/-- A trace runs with one record in its buffer. -/
def tracing : State := { up with owl := { base := some 0x40000000, running := true, buf := [List.replicate 8 0] } }

theorem witness_TraceEvents :
    (let t := owlPump 17 (owlEcc .corrected tracing)
     owlCanSend (min t.owl.group t.owl.buf.length) t) = true ∧
    (let t := owlPump 17 (owlEcc .corrected up)
     owlCanSend (min t.owl.group t.owl.buf.length) t) = false ∧
    up.timebase % 2 ^ 31 = 0 ∧
    (let s := { up with owl := { running := true, stopping := true } }
     s.owl.running = true ∧ s.owl.stopping = true ∧ s.owl.buf = [] ∧ owlOut s = []) := by decide +kernel

/-- A patch image is to be read from an address. -/
def loading (a : Nat) : State := { up with fw := { loadTk := some 9, loadAddr := a, loadLen := 176 } }

/-- Which images pass is for the fuses and the key to say; this one does not. -/
theorem witness_FirmwareEvents :
    (let s := loading 0x40000000
     let r := sysRead viaProc s.fw.loadAddr s.fw.loadLen s
     s.fw.loadTk = some 9 ∧ r.reply.status = 0 ∧ patchOk s.fw.loadLen r.bytes = false) ∧
    (let s := { loading (storeAddr 4 0) with doms := tset up.doms 1 { on := true, fenced := true, hint := 7 } }
     (sysRead viaProc s.fw.loadAddr s.fw.loadLen s).reply.status ≠ 0) ∧
    ({ up with fw := { removeTk := some 9 } } : State).fw.removeTk = some 9 ∧
    (let s := { up with timebase := 10 ^ 9, fw := { nonce := some [5] } }
     s.fw.nonce = some [5] ∧ s.fw.nonceTime + 10 ^ 9 ≤ s.timebase) := by
  decide +kernel

/-! ### Rules over many commands -/

/-- P2's sequence is open with so many changes staged. -/
def seqOpen (n : Nat) : State := { up with seqs := [(128, { lock := some 11, staged := List.replicate n (cm 128 (pk 0x0705 3 [18, 1, 0]) []) })] }

/-- A command that is its carrier's next, of which something holds once its carrier's turn has come. -/
def nextIs (s : State) (op c : Nat) (p : Packet) (f : State → Cmd → Bool) : Bool :=
  let x := cm c p []
  decide (ready (give s x) op c p = some x) && f (turned c (give s x)) x

/-- One that is reached, of which something more holds. -/
def reachedAt (s : State) (op part : Nat) (pars : List Nat) (f : State → Cmd → Bool) : Bool :=
  let x := cm 128 (pk op part pars) []
  reached (give s x) op 128 (pk op part pars) x && f (turned 128 (give s x)) x

/-- Each outcome of the checks before a command's own: not its carrier's next, privilege, the parameter block of a queue pair with a link and
of one without, a partition in reset, a reserved bit, the entry's own check, and a sequence with room and without. -/
theorem witness_ChecksBeforeEffect :
    (∃ i, asCommand i = some (0x0200, 128, pk 0x0200 0 [9])) ∧ ready up 0x0200 128 (pk 0x0200 0 [9]) = none ∧
    nextIs up 0x0104 64 (pk 0x0104 3 []) (fun s x => gateStatus s x != 0) = true ∧
    ([linked up, cut up].all (fun s => nextIs s 0x0501 1 (pkBlock 0x0501 3 16) (fun t x => gateStatus t x == 0 && needsBlock x))) = true ∧
    nextIs { up with parts := [(3, { state := .resetting, scount := 16 })] } 0x0400 128 (pk 0x0400 3 [0x12, 256, 8, 8, 0])
      (fun s x => gateStatus s x == 0 && !needsBlock x && pendDoomed s x) = true ∧
    nextIs up 0x0200 128 (pk 0x0200 0 [0x100]) (fun s x => gateStatus s x == 0 && !needsBlock x && !pendDoomed s x && !paramsClear x) = true ∧
    reachedAt up 0x0201 0 [12] (fun s x => (ownCheck 0x0201 s x).status != 0) = true ∧
    ([0, 64].all (fun n => reachedAt (seqOpen n) 0x0705 3 [18, 1, 0]
      (fun s x => (ownCheck 0x0705 s x).status == 0 && (attr 0x0705).staged && (tget s.seqs x.carrier).lock.isSome))) = true := by
  refine ⟨⟨.lockAcquire 128 (pk 0x0200 0 [9]), rfl⟩, ?_⟩
  decide +kernel

/-- No result slot of P2 is free: it holds its 32. -/
def slotless (s : State) : State := { s with slots := (List.range 32).map (fun n => (n, { held := true, port := 2, device := true })) }

/-- A served command of P2's mailbox that finds no slot free. -/
def servedFull (s : State) (op part : Nat) (pars : List Nat) (chk : State → Cmd → Verdict) : Bool :=
  let x := cm 128 (pk op part pars) []
  served (give (slotless s) x) op 128 (pk op part pars) x chk && !slotFree (give (slotless s) x) 2

/-- Where a slot is free, the witnesses are those of the commands' own statements. -/
theorem witness_ResultSlots :
    servedFull up 0x0101 3 [] unchecked = true ∧ servedFull up 0x0102 3 [] unchecked = true ∧
    servedFull up 0x0400 3 [2 + 2 ^ 4 + 2 ^ 10 * 0x1F, 256, 8, 8, 0] windowMapCheck = true ∧
    servedFull { up with cm := {} } 0x0405 0 [0x40000000, 0] contextBaseCheck = true ∧
    servedFull up 0x0500 3 [3, 0, 0, 0, 0, 0, 0, 0, 0, 0, 0, 0] codecSubmitCheck = true ∧
    servedFull up 0x0600 3 [0, 0, 0x1000] unchecked = true ∧ servedFull up 0x0701 0 [2, 100] linkTrainCheck = true ∧
    servedFull up 0x0704 0 [1] linkRecalCheck = true ∧ servedFull up 0x0708 3 [17, 0, 0, 64, 0, 0] linkPushCheck = true ∧
    servedFull up 0x0709 3 [1, 0, 0, 4] linkMcastCheck = true ∧ servedFull up 0x0804 0 [1, 0x1000, 0, 4] loopTraceCheck = true ∧
    servedFull up 0x0805 0 [1, 0x1000, 0, 4, 0] loopInjectCheck = true ∧ servedFull up 0x0903 0 [0x0901] kakRunCheck = true ∧
    servedFull up 0x0905 0 [0] drainStartCheck = true ∧ servedFull up 0x0B00 0 [3, 0xFFFF] domainOffCheck = true ∧
    servedFull up 0x0601 3 [6 + 64] programRunCheck = true ∧ loadWaits (slotless up) (maskTiles (tget up.progs 6).tilemask) = false ∧
    servedFull { up with doms := [] } 0x0B01 0 [3] domainOnCheck = true ∧ servedFull up 0x0C00 0 [0, 0, 0x200] patchLoadCheck = true ∧
    servedFull { up with fw := { patch := some (1, 1) } } 0x0C01 0 [] patchRemoveCheck = true ∧
    (let x := cm 128 (pk 0x0C01 0 []) []
     olderWaits (give up x) x = false) ∧
    (let s := { slotless up with ctxs := [(4, { valid := true, encode := true, owner := 3, held := true })]
                                 cm := { base := some 0x40000000, resident := [4] } }
     let x := cm 128 (pk 0x0506 3 [4]) []
     let t := readCtx x.stream stOk none (fillCtx x.stream (turned 128 (give s x)))
     served (give s x) 0x0506 128 x.pkt x streamFlushCheck = true ∧ (tget t.ctxs x.stream).useStatus x.part true = 0 ∧
       (tget t.ctxs x.stream).held = true ∧ slotFree t x.port = false) := by decide +kernel

/-- A reached command of P2's mailbox. -/
def reached2 (s : State) (op part : Nat) (pars : List Nat) (more : State → Cmd → Bool) : Bool :=
  let x := cm 128 (pk op part pars) []
  reached (give s x) op 128 (pk op part pars) x && more (give s x) x

theorem witness_SequenceAbort :
    reached2 { up with seqs := [(128, { lock := some 11 })] } 0x0204 0 [11]
      (fun s x => decide ((tget s.seqs x.carrier).lock = some x.lockNo)) = true ∧
    reached2 { up with seqs := [(128, { lock := some 11 })] } 0x0201 0 [11]
      (fun s x => decide (tget s.locks x.lockNo = .held x.carrier) && decide ((tget s.seqs x.carrier).lock = some x.lockNo)) = true := by
  decide +kernel

/-- One handle for each outcome: no pool, an index outside, stale, free already, another's, and the caller's own. -/
theorem witness_BufferFree :
    reached2 up 0x0303 3 [7, 0] (fun s x => (tget s.pools x.poolNo).owner.isNone) = true ∧
    reached2 up 0x0303 3 [2, 0xFFFFF] (fun s x => (tget s.pools x.poolNo).owner.isSome && decide ((tget s.pools x.poolNo).count ≤ x.fld 5 19 0)) = true ∧
    ([1, 1 + 9 * 2 ^ 20, 2].all (fun h => reached2 up 0x0303 3 [2, h]
      (fun s x => (tget s.pools x.poolNo).owner.isSome && decide (x.fld 5 19 0 < (tget s.pools x.poolNo).count)))) = true := by decide +kernel

/-- A command that has been taken in, of a carrier. -/
def taken (c : Nat) : State :=
  { give up (cm c (pk 0 0 []) []) with
    fns := [(0, { linkUp := true, mse := true, bme := true })], qps := [(1, { live := true, en := true, rdy := true, sqlog := 4, cqlog := 4 })] }

theorem witness_ReplyWritten :
    up.owl.running = false ∧
    ((taken 128).cmds.find? (fun y => y.id == 40) = some (cm 128 (pk 0 0 []) []) ∧ (cm 128 (pk 0 0 []) []).owed = true ∧ isQp 128 = false) ∧
    ((taken 1).cmds.find? (fun y => y.id == 40) = some (cm 1 (pk 0 0 []) []) ∧ isQp 1 = true ∧ canMaster (taken 1) 0 = true ∧
      (tget (taken 1).qps 1).en = true ∧ (tget (taken 1).qps 1).enWaits = false) ∧
    (tget (taken 1).qps 1).cqbase % 4096 = 0 ∧
    (let x := { cm 128 (pk 0 0 []) [] with owed := false }
     (give up x).cmds.find? (fun y => y.id == x.id) = some x ∧ x.owed = false ∧ isQp x.carrier = false) := by decide +kernel

theorem witness_CounterSaturates : twf up.cnt = true := by decide

theorem witness_LockBreaks :
    twf up.locks = true ∧ twf up.seqs = true ∧ twf up.cnt = true ∧ tget up.locks 9 = .held 128 ∧
    tget (breakLocks (fun _ => false) up).locks 9 = .held 128 := by decide

/-- Commits of a change that fails, of one that does not, and of none. -/
theorem witness_CommitAllOrNothing :
    (let f := fun (s : State) (y : Cmd) => match commitFrom 1 [y] s with | .error _ => true | .ok _ => false
     f up (cm 128 (pk 0x0705 9 [18, 1, 0]) []) && !f up (cm 128 (pk 0x0705 3 [18, 1, 0]) [])) = true ∧
    (tget up.seqs 128).staged = [] := by decide +kernel

theorem witness_ResultPosts :
    (let s := { up with slots := [(5, { gen := 2, held := true, port := 2 })] }
     let r := tget s.slots (tkSlot (5 + 2 * 2 ^ 12 + 2 * 2 ^ 30))
     r.held = true ∧ r.gen = tkGen (5 + 2 * 2 ^ 12 + 2 * 2 ^ 30) ∧ r.final = none ∧ r.orphan = false ∧ twf s.slots = true) ∧
    (tget up.slots (tkSlot 0)).held = false := by decide

theorem witness_MemoryReadBack : Memory.wf up.mem ∧ up.integ.inject = [] ∧ up.integ.latent = [] := by decide

theorem witness_DebugLockedKept : DebugLocked State.reset := by
  constructor
  · intro h; exact absurd h (by decide)
  · intro h; exact absurd h (by decide)

theorem witness_ManagementLegalKept : ManagementLegal State.reset := by unfold ManagementLegal; decide

end Sys2Proof.Tests
end

