-- ==== Sys2Proof/Tests/Slice0.lean ====
section
/-! SUPPORT. Tests: well-formedness with an ill-formed term for each check, and the spec's worked examples.  The expected values are the
spec's, from the place that each docstring names. -/

namespace Sys2Proof.Tests

set_option Elab.async false

open Sys2Proof.Machine

/-! ### Well-formedness -/

/-- Carriers and packets. -/
theorem test_wf_commands :
    wellFormed (.nop 128 (pk 0 0 [])) = true ∧ wellFormed (.lockAcquire 127 (pk 0x200 0 [1])) = true ∧
    wellFormed (.nop 256 (pk 0 0 [])) = false ∧ wellFormed (.nop 129 (pk 0 0 [])) = false ∧ wellFormed (.nop 128 { dws := [] }) = false := by
  decide

/-- The host's operands. -/
theorem test_wf_host :
    wellFormed (.qp0Enable 1 true) = true ∧ wellFormed (.qp0Enable 2 true) = false ∧ wellFormed (.sqDoorbell 0 64 0) = false ∧
    wellFormed (.sqDoorbell 0 0 (2 ^ 32)) = false ∧ wellFormed (.bar2SegmentWrite 0 16 0 0) = false ∧
    wellFormed (.bar2SegmentWrite 0 0 4 0) = false ∧ wellFormed (.bar2Read 0 (2 ^ 32 - 1) 1) = true ∧
    wellFormed (.bar2Read 0 (2 ^ 32 - 1) 2) = false ∧ wellFormed (.registerWrite 0 0x10000 4 0 false) = false ∧
    wellFormed (.mailboxGo 1) = false ∧ wellFormed (.configRequest 0 4096 none) = false ∧ wellFormed (.portResetComplete 4) = false := by decide

/-- Those of management, bring-up and the tiles. -/
theorem test_wf_units :
    wellFormed (.p2Read { addr := 128, early := false, parityError := false, pec := none }) = false ∧ wellFormed (.setnewda 128) = false ∧
    wellFormed (.resetRelease 4 0 false) = false ∧ wellFormed (.resetRelease 0 8 false) = false ∧ wellFormed (.stageDeadline 256 0 0) = false ∧
    wellFormed (.bundleIssue 63 .clean) = true ∧ wellFormed (.bundleIssue 64 .clean) = false ∧ wellFormed (.tokenArrival 0 16 1) = false ∧
    wellFormed (.programComplete 64) = false ∧ wellFormed (.contextFill 65536) = false ∧ wellFormed (.codecSliceStart 8) = false ∧
    wellFormed (.windowMapComplete 64 0) = false ∧ wellFormed (.windowMapComplete 0 16) = false ∧ wellFormed (.hbmRefresh 8) = false ∧
    wellFormed (.hbmCalibration 0 32) = false := by decide

/-- Those of the network, the links, Kestrel and the board. -/
theorem test_wf_fabric :
    wellFormed (.requestTimeout 100 0 0) = false ∧ wellFormed (.fenceRetry 0 4 0) = false ∧ wellFormed (.domainWake 0x1F) = true ∧
    wellFormed (.domainWake 0x0F) = false ∧ wellFormed (.domainWake 0x20) = false ∧ wellFormed (.hello 16) = false ∧
    wellFormed (.laneFault 0 { lane := 8 }) = false ∧ wellFormed (.lmcTimeout 64) = false ∧ wellFormed (.pelocTimeout 0 512) = false ∧
    wellFormed (.periodMark 64) = false ∧ wellFormed (.droopTrip 5) = false ∧ wellFormed (.lateWriteDrop 5) = false ∧
    wellFormed (.tachEdge 2 0) = false ∧ wellFormed (.kernelStart 0 32) = false ∧ wellFormed (.partResetComplete 64) = false := by decide

/-- No row of the table gives bits, so no word spells a command. -/
theorem test_no_words : decodeTableWord 16 0x0002 = none := by decide

/-! ### Checksums (Table 02.3, Table 02.11) -/

/-- CRC-32C (Table 02.3) and CRC-32 (R270) of "123456789". -/
theorem test_crc32c : crc32c ([0x31, 0x32, 0x33, 0x34, 0x35, 0x36, 0x37, 0x38, 0x39]) = 0xE3069283 ∧
    crc32 [0x31, 0x32, 0x33, 0x34, 0x35, 0x36, 0x37, 0x38, 0x39] = 0xCBF43926 := by decide +kernel

/-- HCRC of blocks A and B (Table 02.11). -/
theorem test_hcrc : crc8 [3, 0x20, 1, 0, 1, 4, 0, 0, 0, 0, 0] = 0xC3 ∧ crc8 [3, 1, 1, 0, 1, 0, 0, 0, 1, 0, 0] = 0x47 := by decide +kernel

/-! ### Blocks (chapter 02's worked example) -/

/-- Block A. -/
def blockA : List Byte :=
  [0x03, 0x20, 0x01, 0x00, 0x01, 0x04, 0x00, 0x00, 0x00, 0x00, 0x00, 0xC3, 0x4E, 0x79, 0xDD, 0x46,
   0x08, 0x00, 0x40, 0x12, 0x8B, 0x8D, 0xA4, 0x00, 0x00, 0x00, 0x00, 0x00, 0x00, 0x00, 0x00, 0x00]

/-- Block B. -/
def blockB : List Byte :=
  [0x03, 0x01, 0x01, 0x00, 0x01, 0x00, 0x00, 0x00, 0x01, 0x00, 0x00, 0x47, 0xAA, 0x36, 0x91, 0x8A,
   0x02, 0x1E, 0x20, 0x00, 0x00, 0x00, 0x00, 0x00, 0x00, 0x00, 0x00, 0x00, 0x00, 0x00, 0x00, 0x00]

/-- The bytes of a block, none poisoned, decoded in ordered mode where `e` is expected. -/
def decoded (e : Nat) (bs : List Byte) : Option (List Byte) :=
  match decodeBlock { ordered := true, expect := e } (bs.map (fun b => (b, false))) with
  | .ok d => some d.orig
  | .error _ => none

/-- Block A decodes to 00 01 … 1F. -/
theorem test_blockA : decoded 0 blockA = some ((List.range 32).map (BitVec.ofNat 8)) := by decide +kernel

/-- Block B decodes to 32 zeros. -/
theorem test_blockB : decoded 1 blockB = some (List.replicate 32 0) := by decide +kernel

/-- A changed byte of block A's payload fails, and so does a changed header. -/
theorem test_blockA_changed : decoded 0 (blockA.set 22 0xA5) = none ∧ decoded 0 (blockA.set 2 2) = none := by decide +kernel

/-! ### Conversions (Tables 03.7 and 03.8) -/

/-- An FP32 accumulator of a bit pattern. -/
def fp32 (x : Nat) : ConvSrc := accSrc .fp32 x false

/-- Table 03.7: 37.5, 0.1, −0.004 and 0.0001 in one group. -/
theorem test_group :
    (let r := convGroup 0x3 0 0 ([fp32 0x42160000, fp32 0x3DCCCCCD, fp32 0xBB83126F, fp32 0x38D1B717] ++ List.replicate 28 (fp32 0))
     (r.1, (r.2.take 4).map (·.x))) = (0x7C, [0x79, 0x35, 0x90, 0x00]) := by decide +kernel

/-- Table 03.8: 0.3, −5, −1, 20 and 0.01 to LOG8; 20 saturates. -/
theorem test_log8 :
    [fp32 0x3E99999A, fp32 0xC0A00000, fp32 0xBF800000, fp32 0x41A00000, fp32 0x3C23D70A].map (convElem 0xD 0 0) =
      [{ x := 0x64 }, { x := 0xA5 }, { x := 0xFF }, { x := 0x3F, sat := true }, { x := 0x80 }] := by decide +kernel

/-! ### Records and replies -/

/-- The ticket of chapter 09's worked example. -/
theorem test_ticket : mkTicket 0x02A 0x03E 12 1 = 0x4C03E02A := by decide

/-- GET_BRINGUP where stack 5 fails training (chapter 15's worked example). -/
theorem test_getBringup :
    (let s := { State.reset with bring := { stage := 3, failStage := 3, failCause := 0x20, trained := 0xDF, failed := 0x20 } }
     let r := getBringupResult s {}
     (r.getD 0 0, r.getD 5 0)) = (0x0000203F, 0x000020DF) := by decide

/-- The signature of slot 37 (Table 12.13). -/
theorem test_signature :
    signatureOf 0x000000B000012F1A 0x0103 0 37
      { kind := 1, verdict := 2, unit := 0x020D, powerup := 412, time := 7 * 2 ^ 40, status := 0x0500, count := 1, part := some 5
        d0 := 0x00001000, d1 := 0x00110029 } 3 1 true =
      [0xB3, 0x00, 0x01, 0x01, 0x19, 0x1F, 0x6C, 0x02, 0x19, 0x05, 0x20, 0x03, 0x18, 0xB0, 0x04, 0x1B, 0x00, 0x00, 0x00, 0xB0,
       0x00, 0x01, 0x2F, 0x1A, 0x05, 0x19, 0x01, 0x03, 0x06, 0x00, 0x07, 0x18, 0x25, 0x08, 0x01, 0x09, 0x02, 0x0A, 0x19, 0x02,
       0x0D, 0x0B, 0x19, 0x05, 0x00, 0x0C, 0x19, 0x01, 0x9C, 0x0D, 0x1B, 0x00, 0x00, 0x07, 0x00, 0x00, 0x00, 0x00, 0x00, 0x0E,
       0x01, 0x0F, 0x05, 0x10, 0x82, 0x19, 0x10, 0x00, 0x1A, 0x00, 0x11, 0x00, 0x29, 0x11, 0x82, 0x03, 0x01, 0x12, 0xF5] := by
  decide +kernel

/-- Records of probe 0 (Table 14.8): MC_DATA arriving at T07, and its answer MC_GRANT leaving. -/
theorem test_packetRecords :
    (packetRecord 0 { typ := 0x11, vn := 2, src := 11, part := 5, len := 193, data := List.replicate 3088 0 }
      { router := 18, rport := 4, toEndpoint := true } 0x21E000005).take 4 = [0x00006901, 0x1E000005, 0x002C0051, 0x0C100005] ∧
    (packetRecord 0 { typ := 0x0B, vn := 1, dest := 11, src := 18, part := 5 } { router := 18, rport := 4 } 0x21E000001).take 4 =
      [0x00000801, 0x1E000001, 0x00480B2B, 0x00000005] := by decide +kernel

/-- T07's router (Table 14.8). -/
theorem test_router : tileRouter 7 = 18 ∧ quadOf 7 = 1 := by decide

/-! ### Fans (chapter 16's worked example) -/

/-- A tachometer after edges at times in ms. -/
def edgesAt (ts : List Nat) : Tach := ts.foldl (fun a t => a.edge (100000 * t)) {}

/-- The estimates at 40, 70, 95 and 115 ms, and the speeds at 155 and 615 ms. -/
theorem test_fan :
    [(edgesAt [0, 40]).est, (edgesAt [0, 40, 70]).est, (edgesAt [0, 40, 70, 95]).est, (edgesAt [0, 40, 70, 95, 115]).est] = [25, 29, 32, 35] ∧
    (edgesAt [0, 40, 70, 95, 115]).speed (100000 * 615) = 2 := by decide

/-! ### Kestrel (chapter 13's worked example) -/

/-- The delay blend of a write that completes at cycle 612, and of one at 356. -/
theorem test_blend :
    (effInput 1 {} { uOld := [12000, 0], u := [12016, 0], dcyc := some 612 }).map (·.v) = [12004, 0] ∧
    (effInput 1 {} { uOld := [12000, 0], u := [12016, 0], dcyc := some 356 }).map (·.v) = [12009, 0] := by decide +kernel

/-! ### Single steps -/

/-- An idle step is one TCLK cycle, which is 8 ACLK cycles at the x = 0.5 of reset (R464). -/
theorem test_step_idle : step State.reset = .next { State.reset with timebase := 1, aclk := { cycles := 8 } } := by rfl

/-- The first status reply over P2 (chapter 16's worked example): TAG 7, ATTN_BRINGUP, PHASE 1, ESEQ 4, and STAGE 4, ADMIN and PORT 2. -/
theorem test_getStatus :
    (let x := cm 128 { dws := ([0x00000002, 0x00000007, 1, 0] ++ List.replicate 12 0).map dw } []
     let s := { give up x with
       ports := [(2, { admin := true, eseq := 4, view := { bits := [(13, { isSet := true, last := 4 })] } })] }
     match exec (.getStatus 128 x.pkt) s with
     | .next t => (tget t.mbx 2).rply.take 4
     | _ => []) = [0x00000007, 0x00012000, 0x00000004, 0x000000A4] := by decide +kernel

end Sys2Proof.Tests
end

