-- ==== Sys2Proof/Tests/Units.lean ====
section
/-! SUPPORT. Witnesses: for each statement about a tile's sequencer and units, states that meet its hypotheses, clause by clause in its
order. -/

namespace Sys2Proof.Tests

set_option Elab.async false

open Sys2Proof.Machine Sys2Proof.Safety

/-- A bundle of eight dwords. -/
def bundle (ws : List Nat) : List Dword := (ws ++ List.replicate (8 - ws.length) 0).map dw

/-- Tile 4 runs program 7 with one bundle, with a change of it. -/
def running (b : List Dword) (f : Tile → Tile) : State :=
  { up with tiles := [(4, f { owner := some 3, prog := some 7, running := true, bundles := [b] })] }

/-- With a bundle of zeros. -/
def tile4 (f : Tile → Tile) : State := running (bundle []) f

/-- Tile 4's bundle is a CODEC whose descriptor lies, through a window on tile 63's store, behind the fence of quadrant 3. -/
def codecBehind : State :=
  { running (bundle [5]) id with
    windows := [(48, { hbmWindow with ext := [(storeAddr 63 0 / pageSize, 1)] })]
    doms := tset up.doms 3 { on := true, fenced := true, hint := 7 } }

theorem witness_SequencerEvents :
    (let s := tile4 id
     canIssue s 4 && !isShadow s 4 && !fatalEcc .corrected && (codecFence 4 (countEcc (unitId 0x01 4) .corrected s)).isNone) = true ∧
    (canIssue codecBehind 4 && !isShadow codecBehind 4 && (codecFence 4 (countEcc (unitId 0x01 4) .clean codecBehind)).isSome) = true ∧
    fatalEcc (.uncorrectable true) = true ∧ (63 < 64 ∧ 15 < 16 ∧ 1 ≤ 8 ∧ 8 ≤ 8) ∧
    (let s := running (bundle [0, 1]) id
     (tget s.tiles 4).running && !finished s 4 && !canIssue s 4 && !isShadow s 4) = true ∧
    (let s := tile4 (fun x => { x with halted := true })
     (tget s.progs 7).running && allFinished s (tget s.progs 7)) = true ∧
    (let s := { up with progs := [(7, { running := true, ending := some { status := stAborted } })] }
     (tget s.progs 7).running && (tget s.progs 7).ending.isSome) = true ∧
    (let o : LoadOp := { ticket := 5, part := 3, addr := 0, len := 64 }
     let s := { up with loads := [o] }
     decide (s.loads.find? (fun x => x.ticket == o.ticket) = some o) && !loadWaits s (loadTiles s o)) = true := by decide +kernel

/-- An operation of a bundle, with its addresses. -/
def op (ws : List Nat) (a1 a2 : Nat) : UOp := { w := bundle ws, a1 := a1, a2 := a2 }

/-- Tile 4 has a MOVE of 16 bytes next: MOP, source and destination. -/
def moves (mop a1 a2 : Nat) : State := tile4 (fun x => { x with mq := [op [0, 0, mop] a1 a2] })

/-- What the checks of that MOVE say of its source and destination. -/
def moveChecks (s : State) (p : Bool → Bool → Bool) : Bool :=
  match nextMove s 4 1 with
  | some o =>
    let s0 := { s with tiles := tmod s.tiles 4 (fun x => { x with mq := x.mq.tail }) }
    let ok := fun wr a => match xlate s0 (tilePart s 4) wr a o.b.moveLen with | .ok _ => true | .error _ => false
    p (ok false o.a1) (ok true o.a2)
  | none => false

/-- What starts an MCAST of tile 4: its source's check, and a free tag. -/
def mcastChecks (s : State) (p : Bool → Bool → Bool) : Bool :=
  match nextMove s 4 2 with
  | some o => p (match mcastSource s (tilePart s 4) o with | .ok _ => true | .error _ => false) (freeTag s (tileRouter 4) 0).isSome
  | none => false

/-- Every tag of tile 4 is in use. -/
def tagless (s : State) : State :=
  { s with reqs := (List.range 256).map (fun n => { pkt := { typ := 0x01, src := tileRouter 4, tag := n } }) }

theorem witness_MoveEvents :
    moveChecks (moves 1 (2 ^ 32) 0) (fun a _ => !a) = true ∧ moveChecks (moves 1 0 (2 ^ 32)) (fun a b => a && !b) = true ∧
    moveChecks (moves 1 0 4096) (fun a b => a && b) = true ∧ mcastChecks (moves 2 (2 ^ 32) 0) (fun a _ => !a) = true ∧
    mcastChecks (moves 2 0 0) (fun a b => a && b) = true ∧ mcastChecks (tagless (moves 2 0 0)) (fun a b => a && !b) = true ∧
    (let s := tile4 (fun x => { x with mv := some {} })
     match (tget s.tiles 4).mv with | some m => m.active == 0 | none => false) = true ∧
    (let s := tile4 (fun x => { x with send := some { mask := 0x20, grants := [(5, 2)] } })
     (tget s.tiles 4).mv.isNone && match (tget s.tiles 4).send with | some m => m.finished | none => false) = true := by decide +kernel

/-- Tile 4 has an EXPAND of an operand of weights in hand. -/
def expands (e : ExpOp) : State := tile4 (fun x => { x with exW := some e })

/-- One at an address of tile 4's store, with copies that failed. -/
def expOp (a : Nat) (re : List Nat) : ExpOp := { op := op [0, 0, 0, 0, 1] 0 0, addr := a, refetch := re }

/-- What a block's decoding in every copy comes to. -/
def copiesOk (s : State) : Option Bool := (blockAt s 4 false).map (fun e => match blockCopies 4 e s with | .ok _ => true | .error _ => false)

/-- What its re-fetch comes to. -/
def fetchOk (s : State) : Option Bool :=
  ((tget s.tiles 4).expander false).bind (fun e => if e.refetch = [] then none
    else some (match fetched 4 e s with | .ok _ => true | .error _ => false))

/-- Where tile 4's failed copy came from lies behind a fence. -/
def fetchBehind : State :=
  { tile4 (fun x => { x with exW := some (expOp (storeAddr 4 0) [4]), moveSrc := [(0, storeAddr 63 0 + 1)] }) with
    doms := tset up.doms 3 { on := true, fenced := true, hint := 7 } }

theorem witness_ExpandEvents :
    (expandReady (tile4 (fun x => { x with eq := [op [0, 0, 0, 0, 1] 0 0] })) 4).isSome = true ∧
    copiesOk (expands (expOp 0 [])) = some false ∧ copiesOk (expands (expOp (storeAddr 4 0) [])) = some true ∧
    isShadow (expands (expOp 0 [])) 4 = false ∧
    isShadow { up with tiles := [(4, { owner := some 3, prog := some 7 })], progs := [(7, { running := true, mode := .dual })] } 5 = true ∧
    fetchOk (expands (expOp (storeAddr 4 0) [4])) = some true ∧ fetchOk fetchBehind = some false := by decide +kernel

/-- Tile 4 has a MAC next, both of whose slots are READY, with bad words. -/
def macs (bad : List BadWord) : State :=
  tile4 (fun x => { x with maq := [op [0, 0, 0, 0, 0, 2 ^ 8] 0 0], w := [(0, { st := .ready })], s := [(0, { st := .ready })], bad := bad })

/-- A MAC of a number of rows has started on tile 4. -/
def macOn (rows : Nat) : State := tile4 (fun x => { x with mc := some { op := op [0, 0, 0, 0, 0, 2 ^ 8, (rows - 1) * 2 ^ 8] 0 0 } })

/-- The MAC of tile 4 and whether another row follows. -/
def macRows (s : State) : Option Bool :=
  if gangStalled s 4 then none else (tget s.tiles 4).mc.map (fun m => decide (m.row + 1 < m.op.b.mrows))

/-- Tile 4 leads a DUAL pair. -/
def asPair (s : State) : State := { s with progs := [(7, { gen := 1, loaded := true, part := 3, tilemask := 0x10, running := true, mode := .dual })] }

/-- A PACK. -/
def packOp : UOp := op [0, 0, 0, 0, 0, 0, 2 ^ 24] 0 0

/-- Tile 4 has that PACK next, with bad words. -/
def packs (bad : List BadWord) : State := tile4 (fun x => { x with pq := [packOp], streams := [(4, 0xFF)], bad := bad })

/-- Tile 4 has read that PACK's rows. -/
def packed (f : PackOp → PackOp) : State := tile4 (fun x => { x with pk := some (f { op := packOp }), streams := [(4, 0xFF)] })

theorem witness_MacPackEvents :
    (match macReady (macs []) 4 with | some o => !arrayFatal (macBad (macs []) 4 o.b) .corrected | none => false) = true ∧
    (match macReady (macs [{ slot := some 0 }]) 4 with
      | some o => arrayFatal (macBad (macs [{ slot := some 0 }]) 4 o.b) (.uncorrectable false) | none => false) = true ∧
    (macRows (macOn 2) = some true ∧ shadowOf (macOn 2) 4 = none) ∧ (macRows (macOn 1) = some false ∧ shadowOf (macOn 1) 4 = none) ∧
    (macRows (asPair (macOn 1)) = some false ∧ shadowOf (asPair (macOn 1)) 4 = some 5) ∧
    (packReady (packs [{ off := 3, kind := 1 }]) 4 = some packOp ∧
      arrayFatal (packBad (packs [{ off := 3, kind := 1 }]) 4 packOp.b) .clean = true) ∧
    (packReady (packs []) 4 = some packOp ∧ arrayFatal (packBad (packs []) 4 packOp.b) .clean = false) ∧
    (packBad (packs []) 4 packOp.b = [] ∧ packBound (tget (packs []).tiles 4) packOp.b = none ∧ shadowOf (packs []) 4 = none ∧
      (progOf (packs []) 4).mode = .off) ∧
    ((tget (packed id).tiles 4).pk = some { op := packOp } ∧ (tget (packed id).tiles 4).due = none ∧
      (decidePack 4 { op := packOp } false (packed id)).1 = none) ∧
    (let k : PackOp := { op := packOp, differs := some 0 }
     (tget (packed (fun _ => k)).tiles 4).pk = some k ∧ (decidePack 4 k false (packed (fun _ => k))).1.isSome = true) ∧
    (let s := { packed (fun k => { k with passed := true }) with cm := { base := some 0x40000000, resident := [4], holder := [(4, some (packUnit 4))] } }
     (tget s.tiles 4).pk = some { op := packOp, passed := true } ∧ (tget s.tiles 4).stalled = false ∧ streamsOpen s = true ∧
       ((tget s.tiles 4).streams.getD packOp.b.psidx (0, 0)).1 = 4 ∧ holdsCtx (askCtx (packUnit 4) 4 (fillCtx 4 s)) (packUnit 4) 4 = true) ∧
    (fatalEcc .clean = false ∧ fatalEcc (.uncorrectable false) = true) := by decide +kernel

end Sys2Proof.Tests
end

section
/-! PROOFS. Result slots (R332): a command whose handling ends in `pend` takes a slot of its port or is refused, said once for any
command, and then for each row. -/

namespace Sys2Proof.Proofs

open Sys2Proof.Machine Sys2Proof.Safety Sys2Proof.Laws

section PendingWork

variable {s t : State} {i : Instr} {op c : Nat} {p : Packet} {x : Cmd} {chk : State → Cmd → Verdict}

/-! ### What a turn of the command processor leaves alone -/

@[simp] theorem slotFree_turned (c q : Nat) (s : State) : slotFree (turned c s) q = slotFree s q := rfl

@[simp] theorem olderWaits_turned (c : Nat) (s : State) (x : Cmd) : olderWaits (turned c s) x = olderWaits s x := rfl

@[simp] theorem loadWaits_turned (c : Nat) (s : State) (ts : List Nat) : loadWaits (turned c s) ts = loadWaits s ts := rfl

/-! ### Commands that end in pending work -/

/-- A served command whose action, in its state, comes to pending work on a state `t`, is refused where `t` has no free slot of its
port: beside the reply, `t` stays as it is. -/
theorem exec_full_of_act {act : Cmd → State → State} {work : Nat → State → State} (hexec : exec i s = .next (serve op c p chk act s))
    (hserved : served s op c p x chk = true) (hact : act x (turned c s) = pend x work t) (hfull : slotFree t x.port = false) :
    exec i s = .next (finish x { status := stResultFull } t) := by
  rw [hexec, serve_acts hserved, hact, pend_full hfull]

/-- A row whose action is nothing but pending work takes a slot, or is refused where its port has none free. -/
theorem takesSlot_of_exec {mk : Nat → Packet → Instr} {start : Cmd → Nat → State → State}
    (hexec : ∀ c p s, exec (mk c p) s = .next (serve op c p chk (fun x t => pend x (start x) t) s)) : TakesSlot op mk chk start := by
  constructor
  case left =>
    intro s c p x hserved hfree
    rw [hexec, serve_acts hserved, pend_work (by simpa using hfree)]
  case right =>
    intro s c p x hserved hfull
    exact exec_full_of_act (hexec c p s) hserved rfl (by simpa using hfull)

/-! ### Actions that may come to something else -/

/-- PROGRAM_RUN starts pending work once none of its program's tiles makes it wait (R443). -/
theorem programRunAct_pends (h : loadWaits t (maskTiles (tget t.progs x.progSlot).tilemask) = false) :
    programRunAct x t = pend x (fun tk u => startRun x.progSlot tk u) t := by
  simp [programRunAct, h]

/-- DOMAIN_ON of a domain that is off starts pending work (R373). -/
theorem domainOnAct_pends (h : (tget t.doms x.domain).on = false) :
    domainOnAct x t = pend x (fun tk u => onDom x.domain (fun m => { m with onTks := m.onTks ++ [tk] }) u) t := by
  simp [domainOnAct, h]

/-- STREAM_FLUSH of a context that the stream may use, but that another holds or waits for, starts pending work on the state in which
the context has been looked at (R134). -/
theorem streamFlushAct_pends (ht : t = readCtx x.stream stOk none (fillCtx x.stream s))
    (huse : (tget t.ctxs x.stream).useStatus x.part true = 0)
    (hheld : (tget t.ctxs x.stream).held = true ∨ hasWaiters t x.stream = true) :
    streamFlushAct x s =
      pend x (fun tk u => if partEnding u x.part then post tk stPartitionReset [] u else queueFlush x.stream tk u) t := by
  subst ht
  simp [streamFlushAct, huse, hheld]

/-- PROGRAM_RUN without a free slot. -/
theorem programRun_full (hserved : served s 0x0601 c p x programRunCheck = true) (hfull : slotFree s x.port = false)
    (hwait : loadWaits s (maskTiles (tget s.progs x.progSlot).tilemask) = false) :
    exec (.programRun c p) s = .next (finish x { status := stResultFull } (turned c s)) :=
  exec_full_of_act rfl hserved (programRunAct_pends (by simpa using hwait)) (by simpa using hfull)

/-- DOMAIN_ON without a free slot. -/
theorem domainOn_full (hserved : served s 0x0B01 c p x domainOnCheck = true) (hoff : (tget s.doms (x.fld 4 4 0)).on = false)
    (hfull : slotFree s x.port = false) :
    exec (.domainOn c p) s = .next (finish x { status := stResultFull } (turned c s)) :=
  exec_full_of_act rfl hserved (domainOnAct_pends (by simpa [Cmd.domain] using hoff)) (by simpa using hfull)

/-- A command whose action waits for the older ones is refused without a free slot, once none of them waits (R552, R553). -/
theorem exec_full_of_olderWaits {work : Cmd → Nat → State → State}
    (hexec : exec i s = .next (serve op c p chk (fun x t => if olderWaits t x then stall x t else pend x (work x) t) s))
    (hserved : served s op c p x chk = true) (holder : olderWaits s x = false) (hfull : slotFree s x.port = false) :
    exec i s = .next (finish x { status := stResultFull } (turned c s)) :=
  exec_full_of_act hexec hserved (work := work x) (by simp [holder]) (by simpa using hfull)

/-- STREAM_FLUSH that would queue its flush, without a free slot: the refusal leaves the looked-at context. -/
theorem streamFlush_full (hserved : served s 0x0506 c p x streamFlushCheck = true)
    (ht : t = readCtx x.stream stOk none (fillCtx x.stream (turned c s))) (huse : (tget t.ctxs x.stream).useStatus x.part true = 0)
    (hheld : (tget t.ctxs x.stream).held = true ∨ hasWaiters t x.stream = true) (hfull : slotFree t x.port = false) :
    exec (.streamFlush c p) s = .next (finish x { status := stResultFull } t) :=
  exec_full_of_act rfl hserved (streamFlushAct_pends ht huse hheld) hfull

end PendingWork

/-- Settles O49: fifteen rows do nothing but start pending work; the other five come to pending work under their conditions, where no
slot is free. -/
theorem resultSlots : Obligations.ResultSlots := by
  unfold Obligations.ResultSlots
  refine ⟨?partDestroy, ?partReset, ?windowMap, ?contextBase, ?codecSubmit, ?programLoad, ?linkTrain, ?linkRecal, ?linkPush, ?linkMcast,
    ?loopTrace, ?loopInject, ?kakRun, ?drainStart, ?domainOff, ?programRun, ?domainOn, ?patchLoad, ?patchRemove, ?streamFlush⟩
  case programRun => exact fun s c p x hserved hfull hwait => programRun_full hserved hfull hwait
  case domainOn => exact fun s c p x hserved hoff hfull => domainOn_full hserved hoff hfull
  case patchLoad => exact fun s c p x hserved holder hfull => exec_full_of_olderWaits (work := patchLoadStart) rfl hserved holder hfull
  case patchRemove =>
    exact fun s c p x hserved holder hfull =>
      exec_full_of_olderWaits (work := fun _ tk u => onFw (fun f => { f with removeTk := some tk }) u) rfl hserved holder hfull
  case streamFlush => exact fun s c p x t hserved ht huse hheld hfull => streamFlush_full hserved ht huse hheld hfull
  -- the fifteen rows of the first kind
  all_goals exact takesSlot_of_exec (fun _ _ _ => rfl)

end Sys2Proof.Proofs
end

section
/-! PROOFS. Sequences that are given up (R401) and buffers that are freed (R405): how a reached command that no sequence stages ends by the
verdict of its own check, and what the checks of SEQ_ABORT, LOCK_RELEASE and BUF_FREE say. -/

namespace Sys2Proof.Proofs

open Sys2Proof.Machine Sys2Proof.Safety Sys2Proof.Laws

section ReachedCommands

variable {s : State} {i : Instr} {op c : Nat} {p : Packet} {x : Cmd} {chk : State → Cmd → Verdict} {app : Cmd → State → State}

/-! ### A reached command by the verdict of its check -/

/-- The next command of a carrier, taken for an opcode, has that opcode. -/
theorem opcode_of_ready (h : ready s op c p = some x) : x.pkt.opcode = op := by
  unfold ready at h
  split at h
  · obtain ⟨⟨hpkt, _, hop, _⟩, ⟨⟩⟩ := Option.ite_none_right_eq_some.mp h
    rw [hpkt, hop]
  · contradiction

/-- A reached command of a row that is never staged is served once its own check passes (R357). -/
theorem served_of_unstaged (hstaged : (attr op).staged = false) (hreached : reached s op c p x = true)
    (hpass : (chk (turned c s) x).status = 0) : served s op c p x chk = true := by
  obtain ⟨hready, -⟩ := reached_iff.mp hreached
  exact served_iff.mpr ⟨hreached, hpass, by simp [staging, opcode_of_ready hready, hstaged]⟩

/-- Such a command then has its effect and replies ST_OK. -/
theorem exec_done_of_pass (hexec : exec i s = .next (serve op c p chk (actDo app) s)) (hstaged : (attr op).staged = false)
    (hreached : reached s op c p x = true) (hpass : chk (turned c s) x = {}) :
    exec i s = .next (finish x {} (app x (turned c s))) := by
  rw [hexec, serve_acts (served_of_unstaged hstaged hreached (by rw [hpass])), actDo]

/-- A reached command whose own check fails is refused by that check's verdict. -/
theorem exec_refuse_of_fail {act : Cmd → State → State} {v : Verdict} (hexec : exec i s = .next (serve op c p chk act s))
    (hreached : reached s op c p x = true) (hfail : chk (turned c s) x = v) (hv : v.status ≠ 0) :
    exec i s = .next (refuse x v (turned c s)) := by
  rw [hexec, serve_refused hreached (by rwa [hfail]), hfail]

/-- A command whose verdict depends on a condition ends in one of two states, by the same condition. -/
theorem exec_ite_of_verdict {cond : Prop} [Decidable cond] {v yes no : Verdict} {a b : State} (hverdict : v = if cond then yes else no)
    (hyes : v = yes → exec i s = .next a) (hno : v = no → exec i s = .next b) : exec i s = .next (if cond then a else b) := by
  by_cases h : cond
  · rw [if_pos h] at hverdict ⊢
    exact hyes hverdict
  · rw [if_neg h] at hverdict ⊢
    exact hno hverdict

/-- A refusal that counts nothing is its reply. -/
theorem refuse_no (x : Cmd) (st : Nat) (s : State) : refuse x (no st) s = finish x { status := st } s := rfl

/-- A verdict that counts nothing refuses with its status alone. -/
theorem exec_finish_of_no {act : Cmd → State → State} {st : Nat} (hexec : exec i s = .next (serve op c p chk act s))
    (hreached : reached s op c p x = true) (hfail : chk (turned c s) x = no st) (hst : st ≠ 0) :
    exec i s = .next (finish x { status := st } (turned c s)) :=
  (exec_refuse_of_fail hexec hreached hfail hst).trans (congrArg _ (refuse_no ..))

/-- A refused free counts once, for the partition of its pool, and is its reply (Table 11.6). -/
theorem refuse_badFree {k : Pool} {o : Nat} (howner : k.owner = some o) (x : Cmd) (st cid : Nat) (s : State) :
    refuse x (badFree k st cid) s = finish x { status := st } (bump cid o s) := by
  simp [refuse, badFree, howner]

end ReachedCommands

/-! ### Sequences (R401) -/

section Sequences

variable {s : State} {c : Nat} {p : Packet} {x : Cmd}

/-- SEQ_ABORT's check passes on the lock of the caller's sequence. -/
theorem seqAbortCheck_of_open (hopen : (tget s.seqs x.carrier).lock = some x.lockNo) : seqAbortCheck s x = {} := by
  simp [seqAbortCheck, seqOpenOn, firstOf, hopen]

/-- LOCK_RELEASE's check finds the caller's sequence open on a lock that the caller holds. -/
theorem lockReleaseCheck_of_open (hheld : tget s.locks x.lockNo = .held x.carrier)
    (hopen : (tget s.seqs x.carrier).lock = some x.lockNo) : lockReleaseCheck s x = no stStateBusy := by
  simp [lockReleaseCheck, holds, seqOpenOn, firstOf, no, hheld, hopen]

/-- A reached SEQ_ABORT whose check passes closes the caller's sequence, and leaves the locks alone. -/
theorem exec_seqAbort_of_pass (hreached : reached s 0x0204 c p x = true) (hpass : seqAbortCheck (turned c s) x = {}) :
    exec (.seqAbort c p) s = .next (finish x {} { turned c s with seqs := tset s.seqs x.carrier {} }) :=
  exec_done_of_pass (app := fun x t => closeSeq x.carrier t) rfl (by decide) hreached hpass

end Sequences

/-- Settles O50: each check's verdict on an open sequence decides its command. -/
theorem sequenceAbort : Obligations.SequenceAbort := by
  unfold Obligations.SequenceAbort
  refine ⟨fun s c p x hreached hopen => ?abort, fun s c p x hreached hheld hopen => ?release⟩
  case abort => exact exec_seqAbort_of_pass hreached (seqAbortCheck_of_open hopen)
  case release => exact exec_finish_of_no rfl hreached (lockReleaseCheck_of_open hheld hopen) (by decide)

/-! ### Freeing a buffer (R405, Table 10.7) -/

section FreedBuffers

variable {s : State} {c : Nat} {p : Packet} {x : Cmd} {k : Pool} {b : Buf} {o : Nat}

/-- Who frees a buffer does not depend on the command processor's turn. -/
@[simp] theorem byOwner_turned (c : Nat) (s : State) (x : Cmd) (k : Pool) (b : Buf) : byOwner (turned c s) x k b = byOwner s x k b := rfl

/-- BUF_FREE's check of a number that names no pool. -/
theorem bufFreeCheck_of_noPool (hnone : (tget s.pools x.poolNo).owner = none) : bufFreeCheck s x = no stParamRange := by
  simp [bufFreeCheck, hnone]

/-- Its check of an index outside the pool. -/
theorem bufFreeCheck_of_outside (hpool : tget s.pools x.poolNo = k) (howner : k.owner = some o) (hindex : k.count ≤ x.fld 5 19 0) :
    bufFreeCheck s x = badFree k stParamRange cntBufBadHandle := by
  simp [bufFreeCheck, hpool, howner, hindex]

/-- Its checks of a handle whose index names a buffer of the pool. -/
theorem bufFreeCheck_of_buffer (hpool : tget s.pools x.poolNo = k) (howner : k.owner = some o) (hindex : x.fld 5 19 0 < k.count)
    (hbuf : tget k.bufs (x.fld 5 19 0) = b) :
    bufFreeCheck s x =
      if b.gen ≠ x.fld 5 31 20 then badFree k stBufStale cntBufStale
      else if b.allocated = false then badFree k stBufAlreadyFree cntBufDoubleFree
      else if byOwner s x k b = false then badFree k stBufNotOwner cntBufNotOwner
      else {} := by
  simp [bufFreeCheck, hpool, howner, Nat.not_le_of_lt hindex, hbuf]

/-- A free that its check refuses leaves the pools alone: it is counted once for the pool's partition, and answered. -/
theorem exec_bufFree_of_badFree {st cid : Nat} (hreached : reached s 0x0303 c p x = true)
    (hfail : bufFreeCheck (turned c s) x = badFree k st cid) (howner : k.owner = some o) (hst : st ≠ 0) :
    exec (.bufFree c p) s = .next (finish x { status := st } (bump cid o (turned c s))) := by
  rw [exec_refuse_of_fail rfl hreached hfail hst, refuse_badFree howner]

/-- A free that passes every check leaves the buffer FREE with its generation, and the other buffers as they are. -/
theorem exec_bufFree_of_pass (hreached : reached s 0x0303 c p x = true) (hpass : bufFreeCheck (turned c s) x = {}) :
    exec (.bufFree c p) s = .next (finish x {} { turned c s with pools := tset s.pools x.poolNo { tget s.pools x.poolNo with
      bufs := tset (tget s.pools x.poolNo).bufs (x.fld 5 19 0) { gen := (tget (tget s.pools x.poolNo).bufs (x.fld 5 19 0)).gen } } }) :=
  exec_done_of_pass (app := bufFreeApply) rfl (by decide) hreached hpass

end FreedBuffers

/-- Settles O51: each verdict of the check, in its order, is the reply; without a refusal the free has its effect. -/
theorem bufferFree : Obligations.BufferFree := by
  unfold Obligations.BufferFree
  refine ⟨fun s c p x hreached hnone => ?noPool, fun s c p x o hreached howner hindex => ?outside,
    fun s c p x o b hreached howner hindex hbuf => ?buffer⟩
  case noPool => exact exec_finish_of_no rfl hreached (bufFreeCheck_of_noPool hnone) (by decide)
  case outside => exact exec_bufFree_of_badFree hreached (bufFreeCheck_of_outside rfl howner hindex) howner (by decide)
  case buffer =>
    subst hbuf
    have hcheck := bufFreeCheck_of_buffer (s := turned c s) rfl howner hindex rfl
    rw [turned_pools, byOwner_turned] at hcheck
    refine exec_ite_of_verdict hcheck (fun hstale => ?_) fun hcurrent => ?_
    · exact exec_bufFree_of_badFree hreached hstale howner (by decide)
    refine exec_ite_of_verdict hcurrent (fun hfree => ?_) fun hallocated => ?_
    · exact exec_bufFree_of_badFree hreached hfree howner (by decide)
    refine exec_ite_of_verdict hallocated (fun hother => ?_) fun hpass => ?_
    · exact exec_bufFree_of_badFree hreached hother howner (by decide)
    exact exec_bufFree_of_pass hreached hpass

end Sys2Proof.Proofs
end

section
/-! PROOFS. The invariants on debug and on the management port (R313, R566, R568, R580, R582, R583): which rows can change what they speak
of, and that each of these rows keeps them. -/

namespace Sys2Proof.Proofs

open Sys2Proof.Machine Sys2Proof.Safety Sys2Proof.Laws

/-! ### What the invariants speak of -/

/-- What the invariant on debug speaks of. -/
def debugPart (s : State) : Bool × Bool × Bool := (s.fw.unlocked, s.bring.dbgoff, isAdmin s 3)

/-- What the invariant on the management port speaks of. -/
def managementPart (s : State) : Nat × Nat × Nat × Nat × Nat × Nat := (s.p2.ptr, s.p2.len, s.p2.mwl, s.p2.mrl, s.tap.ir, s.timebase)

/-- Both of them. -/
def guarded (s : State) : (Bool × Bool × Bool) × (Nat × Nat × Nat × Nat × Nat × Nat) := (debugPart s, managementPart s)

section Parts

variable {s t : State}

theorem guarded_of_kept (h : kept t = kept s) : guarded t = guarded s := by
  simp only [kept, Prod.mk.injEq] at h
  obtain ⟨hfw, hdbgoff, hp2, htap, htime, hadmin⟩ := h
  simp only [guarded, debugPart, managementPart, hfw, hdbgoff, hp2, htap, htime, hadmin]

theorem debugLocked_of_debugPart (h : debugPart t = debugPart s) (hs : DebugLocked s) : DebugLocked t := by
  simp only [debugPart, Prod.mk.injEq] at h
  obtain ⟨hunlocked, hdbgoff, hadmin⟩ := h
  simpa only [DebugLocked, hunlocked, hdbgoff, hadmin] using hs

theorem managementLegal_of_managementPart (h : managementPart t = managementPart s) (hs : ManagementLegal s) : ManagementLegal t := by
  simp only [managementPart, Prod.mk.injEq] at h
  obtain ⟨hptr, hlen, hmwl, hmrl, hir, htime⟩ := h
  simpa only [ManagementLegal, hptr, hlen, hmwl, hmrl, hir, htime] using hs

theorem debugLocked_of_guarded (h : guarded t = guarded s) : DebugLocked s → DebugLocked t :=
  debugLocked_of_debugPart (congrArg Prod.fst h)

theorem managementLegal_of_guarded (h : guarded t = guarded s) : ManagementLegal s → ManagementLegal t :=
  managementLegal_of_managementPart (congrArg Prod.snd h)

theorem debugLocked_of_kept (h : kept t = kept s) : DebugLocked s → DebugLocked t := debugLocked_of_guarded (guarded_of_kept h)

theorem managementLegal_of_kept (h : kept t = kept s) : ManagementLegal s → ManagementLegal t := managementLegal_of_guarded (guarded_of_kept h)

/-- Debug that is locked, without ADMIN on P3, is as it must be. -/
theorem debugLocked_of_locked (hunlocked : s.fw.unlocked = false) (hadmin : isAdmin s 3 = false) : DebugLocked s := by
  simp [DebugLocked, hunlocked, hadmin]

end Parts

/-! ### Rows that can change them -/

/-- The rows that can change what `kept` names. -/
inductive AltersKept : Instr → Prop
  | privGrant {c p} : AltersKept (.privGrant c p)
  | patchLoad {c p} : AltersKept (.patchLoad c p)
  | patchRemove {c p} : AltersKept (.patchRemove c p)
  | patchLoadComplete {poisoned} : AltersKept (.patchLoadComplete poisoned)
  | patchRemoveComplete : AltersKept .patchRemoveComplete
  | debugChallenge {c p} : AltersKept (.debugChallenge c p)
  | debugUnlock {c p} : AltersKept (.debugUnlock c p)
  | debugLock {c p} : AltersKept (.debugLock c p)
  | nonceExpiry : AltersKept .nonceExpiry
  | p2Setptr {x off len} : AltersKept (.p2Setptr x off len)
  | p2Read {x} : AltersKept (.p2Read x)
  | entdaa {a} : AltersKept (.entdaa a)
  | setdasa {st a} : AltersKept (.setdasa st a)
  | rstdaa : AltersKept .rstdaa
  | setnewda {a} : AltersKept (.setnewda a)
  | getpid : AltersKept .getpid
  | getbcr : AltersKept .getbcr
  | getdcr : AltersKept .getdcr
  | i3cGetstatus : AltersKept .i3cGetstatus
  | getmwl : AltersKept .getmwl
  | getmrl : AltersKept .getmrl
  | setmwl {v} : AltersKept (.setmwl v)
  | setmrl {v} : AltersKept (.setmrl v)
  | rstact {a} : AltersKept (.rstact a)
  | targetResetPattern : AltersKept .targetResetPattern
  | extest : AltersKept .extest
  | idcode : AltersKept .idcode
  | samplePreload : AltersKept .samplePreload
  | clamp : AltersKept .clamp
  | highz : AltersKept .highz
  | mbox : AltersKept .mbox
  | bypass : AltersKept .bypass
  | mboxUpdateDr {v} : AltersKept (.mboxUpdateDr v)
  | mboxCaptureDr : AltersKept .mboxCaptureDr
  | mboxAccessComplete : AltersKept .mboxAccessComplete
  | trst : AltersKept .trst
  | pwrokDeassert : AltersKept .pwrokDeassert
  | supplyDip {ns} : AltersKept (.supplyDip ns)
  | sysRst {ns} : AltersKept (.sysRst ns)
  | perst {ns} : AltersKept (.perst ns)
  | resetRelease {b a d} : AltersKept (.resetRelease b a d)
  | pllLockLoss {k} : AltersKept (.pllLockLoss k)

/-- A write-kind transfer of P2 keeps what its action keeps. -/
@[simp] theorem p2Take_kept (x : P2Xfer) (good : Bool) (act : State → State) (s : State) (hact : kept (act s) = kept s) :
    kept (p2Take x good act s) = kept s := by
  simp [p2Take, hact]

theorem p2WriteEffect_kept (x : P2Xfer) (off : Nat) (data : List Byte) (s : State) : kept (p2WriteEffect x off data s) = kept s := by
  simp [p2WriteEffect]

theorem p2WritegoEffect_kept (x : P2Xfer) (off : Nat) (data : List Byte) (s : State) : kept (p2WritegoEffect x off data s) = kept s := by
  simp [p2WritegoEffect]

/-- Every other row keeps it: each by the lemma of its effect. -/
theorem exec_kept_or_alters {i : Instr} {s t : State} (h : exec i s = .next t) : kept t = kept s ∨ AltersKept i := by
  cases i
  case p2Write => cases h; exact .inl (p2WriteEffect_kept ..)
  case p2Writego => cases h; exact .inl (p2WritegoEffect_kept ..)
  case enec => cases h; exact .inl rfl
  case disec => cases h; exact .inl rfl
  case privGrant | patchLoad | patchRemove | patchLoadComplete | patchRemoveComplete | debugChallenge | debugUnlock | debugLock
      | nonceExpiry | p2Setptr | p2Read | entdaa | setdasa | rstdaa | setnewda | getpid | getbcr | getdcr | i3cGetstatus | getmwl | getmrl
      | setmwl | setmrl | rstact | targetResetPattern | extest | idcode | samplePreload | clamp | highz | mbox | bypass | mboxUpdateDr
      | mboxCaptureDr | mboxAccessComplete | trst | pwrokDeassert | supplyDip | sysRst | perst | resetRelease | pllLockLoss =>
    exact .inr (by constructor)
  all_goals
    cases h
    exact .inl (by simp)

/-! ### Rows whose changes the invariants do not speak of -/

section Guarded

variable {s t : State} {op c : Nat} {p : Packet} {chk : State → Cmd → Verdict} {act : Cmd → State → State}

/-- A command of the protocol keeps what `kept` names, or is served. -/
theorem serve_kept_or_acts (s : State) (op c : Nat) (p : Packet) (chk : State → Cmd → Verdict) (act : Cmd → State → State) :
    kept (serve op c p chk act s) = kept s ∨ ∃ x, served s op c p x chk = true ∧ serve op c p chk act s = act x (turned c s) := by
  rcases hready : ready s op c p with _ | x
  · exact .inl (by rw [serve_idle hready])
  by_cases hgate : gateStatus (turned c s) x ≠ 0
  · exact .inl (by simp [serve_gate hready hgate])
  have hgate : gateStatus (turned c s) x = 0 := Decidable.not_not.mp hgate
  cases hblock : needsBlock x with
  | true => exact .inl (by simp [serve_asks hready hgate hblock])
  | false =>
  cases hdoomed : pendDoomed (turned c s) x with
  | true => exact .inl (by simp [serve, hready, hgate, hblock, judgeCmd, hdoomed])
  | false =>
  cases hclear : paramsClear x with
  | false => exact .inl (by simp [serve, hready, hgate, hblock, judgeCmd, hdoomed, check10, hclear, no, stParamReserved])
  | true =>
  have hreached := reached_iff.mpr ⟨hready, hgate, hblock, hdoomed, hclear⟩
  by_cases hpass : (chk (turned c s) x).status = 0
  · cases hstaging : staging (turned c s) x with
    | false =>
      have hserved := served_iff.mpr ⟨hreached, hpass, hstaging⟩
      exact .inr ⟨x, hserved, serve_acts hserved act⟩
    | true => exact .inl (by simp [serve_staged hreached hpass hstaging])
  · exact .inl (by simp [serve_refused hreached hpass])

/-- What whatever keeps `kept` preserves, a command preserves if its action does where it is served. -/
theorem serve_preserves {P : State → Prop} (hkept : ∀ {u v : State}, kept v = kept u → P u → P v)
    (hact : ∀ x, served s op c p x chk = true → P (turned c s) → P (act x (turned c s))) (hs : P s) : P (serve op c p chk act s) := by
  rcases serve_kept_or_acts s op c p chk act with hsame | ⟨x, hserved, hacts⟩
  · exact hkept hsame hs
  · rw [hacts]
    exact hact x hserved (hkept (turned_kept c s) hs)

/-- A command keeps both parts if its action does. -/
theorem serve_guarded (hact : ∀ x t, guarded (act x t) = guarded t) : guarded (serve op c p chk act s) = guarded s :=
  serve_preserves (P := fun t => guarded t = guarded s) (fun hkept h => (guarded_of_kept hkept).trans h)
    (fun _ _ h => (hact _ _).trans h) rfl

/-- So does pending work. -/
theorem pend_guarded {x : Cmd} {work : Nat → State → State} (hwork : ∀ k t, guarded (work k t) = guarded t) :
    guarded (pend x work s) = guarded s := by
  rcases hfree : slotFree s x.port
  · rw [pend_full hfree, guarded_of_kept (finish_kept ..)]
  · rw [pend_work hfree, hwork, guarded_of_kept (finish_kept ..), guarded_of_kept (takeSlot_kept ..)]

theorem finish_guarded (x : Cmd) (r : Reply) (s : State) : guarded (finish x r s) = guarded s := guarded_of_kept (finish_kept x r s)

/-- A change of firmware's state that leaves debug as it is. -/
theorem onFw_guarded {f : Fw → Fw} (h : (f s.fw).unlocked = s.fw.unlocked) : guarded (onFw f s) = guarded s := by
  simp [guarded, debugPart, managementPart, onFw, isAdmin, h]

/-- The end of a patch's load or removal: the final status, and ATTN_PATCH. -/
theorem raisePatch_post_guarded (k st : Nat) (res : List Dword) (s : State) : guarded (raisePatch (post k st res s)) = guarded s :=
  guarded_of_kept ((raisePatch_kept _).trans (post_kept ..))

theorem patchLoadEffect_guarded (c : Nat) (p : Packet) (s : State) : guarded (patchLoadEffect c p s) = guarded s := by
  refine serve_guarded fun x t => ?_
  split
  · exact guarded_of_kept (stall_kept x t)
  · exact pend_guarded fun _ _ => rfl

theorem patchRemoveEffect_guarded (c : Nat) (p : Packet) (s : State) : guarded (patchRemoveEffect c p s) = guarded s := by
  refine serve_guarded fun x t => ?_
  split
  · exact guarded_of_kept (stall_kept x t)
  · exact pend_guarded fun _ _ => rfl

theorem patchLoadCompleteEffect_guarded (poisoned : Bool) (s : State) : guarded (patchLoadCompleteEffect poisoned s) = guarded s := by
  unfold patchLoadCompleteEffect
  split
  · rfl
  · dsimp only
    split
    · rw [guarded_of_kept (post_kept ..), onFw_guarded rfl, guarded_of_kept (sysRead_kept ..)]
    · split
      all_goals rw [raisePatch_post_guarded, onFw_guarded rfl, onFw_guarded rfl, guarded_of_kept (sysRead_kept ..)]

theorem patchRemoveCompleteEffect_guarded (s : State) : guarded (patchRemoveCompleteEffect s) = guarded s := by
  unfold patchRemoveCompleteEffect
  split
  · rfl
  · rw [raisePatch_post_guarded, onFw_guarded rfl]

theorem debugChallengeEffect_guarded (c : Nat) (p : Packet) (s : State) : guarded (debugChallengeEffect c p s) = guarded s :=
  serve_guarded fun x t => finish_guarded x (debugChallengeApply x t).1 _

theorem nonceExpiryEffect_guarded (s : State) : guarded (nonceExpiryEffect s) = guarded s := by
  unfold nonceExpiryEffect
  split <;> rfl

theorem p2ReadEffect_guarded (x : P2Xfer) (s : State) : guarded (p2ReadEffect x s) = guarded s := by
  unfold p2ReadEffect
  split
  · rfl
  · split
    · exact guarded_of_kept (p2Discard_kept s)
    · rfl

theorem p2Answer_guarded (out : List Byte) (s : State) : guarded (p2Answer out s) = guarded s := by
  unfold p2Answer
  split <;> rfl

theorem setnewdaEffect_guarded (a : Nat) (s : State) : guarded (setnewdaEffect a s) = guarded s := by
  unfold setnewdaEffect
  split <;> rfl

theorem rstactEffect_guarded (a : Nat) (s : State) : guarded (rstactEffect a s) = guarded s := by
  unfold rstactEffect
  split <;> rfl

theorem mboxUpdateDrEffect_guarded (v : BitVec 46) (s : State) : guarded (mboxUpdateDrEffect v s) = guarded s := by
  unfold mboxUpdateDrEffect
  dsimp only
  split
  · rfl
  · split
    · exact (guarded_of_kept (bump_kept ..)).trans rfl
    · rfl

theorem mboxCaptureDrEffect_guarded (s : State) : guarded (mboxCaptureDrEffect s) = guarded s := by
  unfold mboxCaptureDrEffect
  split <;> rfl

end Guarded

/-! ### A port reset -/

section PortReset

variable {s : State} {p : Nat}

/-- What a port reset leaves of `kept`: P2's read pointer starts afresh, and P3 loses ADMIN and debug (R339, R566, R583). -/
theorem portReset_kept_form (hexists : portExists s p = true) :
    kept (portReset p s) = (if p = 3 then { s.fw with unlocked := false, nonce := none } else s.fw, s.bring.dbgoff,
      if p = 2 then { s.p2 with ptr := 0x040, len := 32 } else s.p2, s.tap, s.timebase, if p = 3 then false else isAdmin s 3) := by
  unfold portReset
  simp only [hexists, Bool.not_true, Bool.false_eq_true, if_false, orphanBuffers_kept, breakLocks_kept]
  simp only [kept, isAdmin, disown, tget_tset]
  by_cases hthree : p = 3
  · subst hthree
    rfl
  · simp [hthree, Ne.symm hthree]

/-- A port that the part does not have is not reset. -/
theorem portReset_of_absent (habsent : portExists s p = false) : portReset p s = s := by
  simp [portReset, habsent]

/-- A port reset keeps debug locked. -/
theorem portReset_debugLocked (h : DebugLocked s) : DebugLocked (portReset p s) := by
  rcases hexists : portExists s p
  · rwa [portReset_of_absent hexists]
  have hform := portReset_kept_form hexists
  simp only [kept, Prod.mk.injEq] at hform
  obtain ⟨hfw, hdbgoff, -, -, -, hadmin⟩ := hform
  by_cases hthree : p = 3
  · rw [if_pos hthree] at hfw hadmin
    exact debugLocked_of_locked (by rw [hfw]) hadmin
  · rw [if_neg hthree] at hfw hadmin
    exact debugLocked_of_debugPart (by simp only [debugPart, hfw, hdbgoff, hadmin]) h

/-- A port reset keeps the management port's values legal: P2's pointer and length are 0x040 and 32 again. -/
theorem portReset_managementLegal (h : ManagementLegal s) : ManagementLegal (portReset p s) := by
  rcases hexists : portExists s p
  · rwa [portReset_of_absent hexists]
  have hform := portReset_kept_form hexists
  simp only [kept, Prod.mk.injEq] at hform
  obtain ⟨-, -, hp2, htap, htime, -⟩ := hform
  by_cases htwo : p = 2
  · rw [if_pos htwo] at hp2
    obtain ⟨-, -, -, -, -, hrest⟩ := h
    simp only [ManagementLegal, hp2, htap, htime]
    exact ⟨by decide, by decide, by decide, by decide, by decide, hrest⟩
  · rw [if_neg htwo] at hp2
    exact managementLegal_of_managementPart (by simp only [managementPart, hp2, htap, htime]) h

end PortReset

/-! ### A device reset -/

section DeviceReset

variable {s : State} {b : Bring}

/-- A device held in reset is locked. -/
theorem heldInReset_debugLocked (cold : Bool) (b : Bring) (s : State) : DebugLocked (heldInReset cold b s) :=
  debugLocked_of_locked rfl rfl

/-- The values that a released device starts from are legal, with any legal instruction. -/
theorem managementLegal_of_released {t : State} {ir : Nat} (hlegal : ir ∈ [0x00, 0x01, 0x02, 0x03, 0x04, 0x20, 0xFF]) (hir : t.tap.ir = ir)
    (hp2 : t.p2 = {}) (htime : t.timebase = 0) : ManagementLegal t := by
  simp only [ManagementLegal, hp2, htime, hir]
  exact ⟨by decide, by decide, by decide, by decide, by decide, by decide, by decide, by decide, by decide, hlegal, by decide⟩

theorem ir_of_managementLegal (h : ManagementLegal s) : s.tap.ir ∈ [0x00, 0x01, 0x02, 0x03, 0x04, 0x20, 0xFF] := by
  obtain ⟨-, -, -, -, -, -, -, -, -, hir, -⟩ := h
  exact hir

theorem heldInReset_managementLegal (cold : Bool) (b : Bring) (h : ManagementLegal s) : ManagementLegal (heldInReset cold b s) := by
  cases cold
  · exact managementLegal_of_released (ir_of_managementLegal h) rfl rfl rfl
  · exact managementLegal_of_released (ir := 0x01) (by decide) rfl rfl rfl

/-- A system reset that is already held changes pins alone. -/
theorem systemReset_debugLocked (hdbgoff : b.dbgoff = false) (h : DebugLocked s) : DebugLocked (systemReset b s) := by
  unfold systemReset
  split
  · obtain ⟨hunlocked, hadmin⟩ := h
    refine ⟨fun hu => ?_, hadmin⟩
    obtain ⟨hfuse, -, hkey⟩ := hunlocked hu
    exact ⟨hfuse, hdbgoff, hkey⟩
  · exact heldInReset_debugLocked false b s

theorem systemReset_managementLegal (h : ManagementLegal s) : ManagementLegal (systemReset b s) := by
  unfold systemReset
  split
  · exact h
  · exact heldInReset_managementLegal false b h

theorem resetPin_debugLocked {ns : Nat} (hdbgoff : b.dbgoff = false) (h : DebugLocked s) : DebugLocked (resetPin ns b s) := by
  unfold resetPin
  split
  · exact h
  · split
    · exact systemReset_debugLocked hdbgoff h
    · split
      · exact h
      · exact systemReset_debugLocked hdbgoff h

theorem resetPin_managementLegal {ns : Nat} (h : ManagementLegal s) : ManagementLegal (resetPin ns b s) := by
  unfold resetPin
  split
  · exact h
  · split
    · exact systemReset_managementLegal h
    · split
      · exact h
      · exact systemReset_managementLegal h

theorem supplyDipEffect_debugLocked {ns : Nat} (h : DebugLocked s) : DebugLocked (supplyDipEffect ns s) := by
  unfold supplyDipEffect
  split
  · exact heldInReset_debugLocked ..
  · exact h

theorem supplyDipEffect_managementLegal {ns : Nat} (h : ManagementLegal s) : ManagementLegal (supplyDipEffect ns s) := by
  unfold supplyDipEffect
  split
  · exact heldInReset_managementLegal _ _ h
  · exact h

theorem pllLockLossEffect_debugLocked {k : Option Nat} (h : DebugLocked s) : DebugLocked (pllLockLossEffect k s) := by
  unfold pllLockLossEffect
  cases k
  all_goals
    dsimp only
    split
    · exact systemReset_debugLocked (b := heldBring s) rfl h
    · exact h

theorem pllLockLossEffect_managementLegal {k : Option Nat} (h : ManagementLegal s) : ManagementLegal (pllLockLossEffect k s) := by
  unfold pllLockLossEffect
  cases k
  all_goals
    dsimp only
    split
    · exact systemReset_managementLegal h
    · exact h

/-- A stage's failure is an event in the ports' views. -/
theorem failStageNow_guarded (stage cause : Nat) (s : State) : guarded (failStageNow stage cause s) = guarded s :=
  guarded_of_kept ((raise_kept ..).trans rfl)

/-- A device just released is locked. -/
theorem resetReleaseEffect_debugLocked {strap a : Nat} {d : Bool} (h : DebugLocked s) : DebugLocked (resetReleaseEffect strap a d s) := by
  unfold resetReleaseEffect
  split
  · exact h
  · dsimp only
    split
    · exact debugLocked_of_guarded (failStageNow_guarded ..) (debugLocked_of_locked rfl rfl)
    · exact debugLocked_of_locked rfl rfl

/-- Its management port has the values of reset, and the test access port keeps its instruction. -/
theorem resetReleaseEffect_managementLegal {strap a : Nat} {d : Bool} (h : ManagementLegal s) :
    ManagementLegal (resetReleaseEffect strap a d s) := by
  unfold resetReleaseEffect
  split
  · exact h
  · dsimp only
    split
    · exact managementLegal_of_guarded (failStageNow_guarded ..) (managementLegal_of_released (ir_of_managementLegal h) rfl rfl rfl)
    · exact managementLegal_of_released (ir_of_managementLegal h) rfl rfl rfl

end DeviceReset

/-! ### Debug commands and privileges (R313, R583) -/

section DebugCommands

variable {s : State} {x : Cmd}

/-- A list of refusals passes where its first condition does not hold and the rest passes. -/
theorem firstOf_passes_cons {b : Bool} {st : Nat} {r : List (Bool × Nat)} (hst : st ≠ 0) :
    (firstOf ((b, st) :: r)).status = 0 ↔ b = false ∧ (firstOf r).status = 0 := by
  cases b <;> simp [firstOf, hst]

/-- PRIV_GRANT gives P3 ADMIN only while debug is unlocked. -/
theorem privGrantApply_debugLocked (hcheck : (privGrantCheck s x).status = 0) (h : DebugLocked s) : DebugLocked (privGrantApply x s) := by
  obtain ⟨hunlocked, hadmin⟩ := h
  refine ⟨hunlocked, fun hgranted => ?_⟩
  rw [isAdmin, privGrantApply, tget_tmod] at hgranted
  split at hgranted
  · rename_i hport
    rw [privGrantCheck, firstOf_passes_cons (by decide), firstOf_passes_cons (by decide)] at hcheck
    obtain ⟨-, hdebug, -⟩ := hcheck
    have hgranted : bit (x.par 4) 8 = true := hgranted
    have hopen : s.fw.unlocked = true := by simpa [← hport, hgranted] using hdebug
    exact hopen
  · exact hadmin hgranted

/-- DEBUG_UNLOCK unlocks only where the fuses and STRAP_DBGOFF allow it. -/
theorem debugUnlockApply_debugLocked (h : DebugLocked s) : DebugLocked (debugUnlockApply x s).2 := by
  unfold debugUnlockApply
  dsimp only
  split
  · rename_i hok
    refine ⟨fun _ => ?_, fun _ => rfl⟩
    unfold unlockOk at hok
    split at hok
    · simp only [unlockAvailable, Bool.and_eq_true, Bool.not_eq_true', decide_eq_true_eq] at hok
      obtain ⟨⟨⟨⟨⟨hfuse, hstrap⟩, hkey⟩, -⟩, -⟩, -⟩ := hok
      exact ⟨hfuse, hstrap, hkey⟩
    · contradiction
  · exact debugLocked_of_kept (bump_kept ..) h

/-- DEBUG_LOCK leaves P3 a TENANT. -/
theorem debugLockApply_debugLocked : DebugLocked (debugLockApply x s) := by
  refine debugLocked_of_locked rfl ?_
  simp [debugLockApply, onInteg, onFw, isAdmin]

/-- The three commands leave P2, the test access port and the timebase alone. -/
theorem debugUnlockApply_managementPart (x : Cmd) (s : State) : managementPart (debugUnlockApply x s).2 = managementPart s := by
  unfold debugUnlockApply
  dsimp only
  split
  · rfl
  · exact congrArg Prod.snd (guarded_of_kept (bump_kept ..))

end DebugCommands

/-! ### Debug in every step (R313, R582, R583) -/

section DebugSteps

variable {s : State}

theorem privGrantEffect_debugLocked {c : Nat} {p : Packet} (h : DebugLocked s) : DebugLocked (privGrantEffect c p s) :=
  serve_preserves debugLocked_of_kept (fun x hserved ht => by
    obtain ⟨-, hcheck, -⟩ := served_iff.mp hserved
    exact debugLocked_of_kept (finish_kept ..) (privGrantApply_debugLocked hcheck ht)) h

theorem debugUnlockEffect_debugLocked {c : Nat} {p : Packet} (h : DebugLocked s) : DebugLocked (debugUnlockEffect c p s) :=
  serve_preserves debugLocked_of_kept (fun _ _ ht => debugLocked_of_kept (finish_kept ..) (debugUnlockApply_debugLocked ht)) h

theorem debugLockEffect_debugLocked {c : Nat} {p : Packet} (h : DebugLocked s) : DebugLocked (debugLockEffect c p s) :=
  serve_preserves debugLocked_of_kept (fun _ _ _ => debugLocked_of_kept (finish_kept ..) debugLockApply_debugLocked) h

/-- SETPTR changes P2's read pointer alone. -/
theorem p2SetptrEffect_debugLocked {x : P2Xfer} {off len : Nat} (h : DebugLocked s) : DebugLocked (p2SetptrEffect x off len s) := by
  unfold p2SetptrEffect p2Take
  dsimp only
  split
  · exact h
  · split
    · exact debugLocked_of_kept (p2Discard_kept s) h
    · split
      · exact debugLocked_of_kept (bump_kept ..) h
      · exact h

theorem entdaaEffect_debugLocked {a : Option Nat} (h : DebugLocked s) : DebugLocked (entdaaEffect a s) := by
  unfold entdaaEffect
  split
  · split
    · exact portReset_debugLocked h
    · exact h
  · exact h

theorem setdasaEffect_debugLocked {st a : Nat} (h : DebugLocked s) : DebugLocked (setdasaEffect st a s) := by
  unfold setdasaEffect
  split
  · exact portReset_debugLocked h
  · exact h

theorem rstdaaEffect_debugLocked (h : DebugLocked s) : DebugLocked (rstdaaEffect s) := by
  unfold rstdaaEffect
  split
  · exact portReset_debugLocked h
  · exact h

theorem targetResetPatternEffect_debugLocked (h : DebugLocked s) : DebugLocked (targetResetPatternEffect s) := by
  unfold targetResetPatternEffect
  split
  · exact portReset_debugLocked h
  · exact h

theorem setmwlEffect_debugLocked {v : Nat} (h : DebugLocked s) : DebugLocked (setmwlEffect v s) := by
  unfold setmwlEffect
  split <;> exact h

theorem setmrlEffect_debugLocked {v : Nat} (h : DebugLocked s) : DebugLocked (setmrlEffect v s) := by
  unfold setmrlEffect
  split <;> exact h

/-- An access reads a dword, or writes it and may act as GO. -/
theorem mboxAccess_guarded (k : Nat) (w : Option Dword) (s : State) : guarded (mboxAccess k w s) = guarded s := by
  cases w
  · rfl
  · exact guarded_of_kept (mbxWrite_kept ..)

theorem mboxAccessCompleteEffect_debugLocked (h : DebugLocked s) : DebugLocked (mboxAccessCompleteEffect s) := by
  unfold mboxAccessCompleteEffect
  split
  · exact h
  · have haccess := fun k w => debugLocked_of_guarded (mboxAccess_guarded k w
      (onTap (fun t => { t with access := none, done := true, resetDue := false }) s)) h
    dsimp only
    split
    · exact portReset_debugLocked (haccess ..)
    · exact haccess ..

theorem trstEffect_debugLocked (h : DebugLocked s) : DebugLocked (trstEffect s) := by
  unfold trstEffect
  dsimp only
  split
  · exact h
  · exact portReset_debugLocked h

/-- The rows that can change what `kept` names keep debug locked. -/
theorem exec_debugLocked_of_alters {i : Instr} {t : State} (ha : AltersKept i) (h : exec i s = .next t) (hs : DebugLocked s) :
    DebugLocked t := by
  cases ha
  all_goals cases h
  case privGrant => exact privGrantEffect_debugLocked hs
  case patchLoad => exact debugLocked_of_guarded (patchLoadEffect_guarded ..) hs
  case patchRemove => exact debugLocked_of_guarded (patchRemoveEffect_guarded ..) hs
  case patchLoadComplete => exact debugLocked_of_guarded (patchLoadCompleteEffect_guarded ..) hs
  case patchRemoveComplete => exact debugLocked_of_guarded (patchRemoveCompleteEffect_guarded s) hs
  case debugChallenge => exact debugLocked_of_guarded (debugChallengeEffect_guarded ..) hs
  case debugUnlock => exact debugUnlockEffect_debugLocked hs
  case debugLock => exact debugLockEffect_debugLocked hs
  case nonceExpiry => exact debugLocked_of_guarded (nonceExpiryEffect_guarded s) hs
  case p2Setptr => exact p2SetptrEffect_debugLocked hs
  case p2Read => exact debugLocked_of_guarded (p2ReadEffect_guarded ..) hs
  case entdaa => exact entdaaEffect_debugLocked hs
  case setdasa => exact setdasaEffect_debugLocked hs
  case rstdaa => exact rstdaaEffect_debugLocked hs
  case setnewda => exact debugLocked_of_guarded (setnewdaEffect_guarded ..) hs
  case getpid | getbcr | getdcr | i3cGetstatus | getmwl | getmrl => exact debugLocked_of_guarded (p2Answer_guarded ..) hs
  case setmwl => exact setmwlEffect_debugLocked hs
  case setmrl => exact setmrlEffect_debugLocked hs
  case rstact => exact debugLocked_of_guarded (rstactEffect_guarded ..) hs
  case targetResetPattern => exact targetResetPatternEffect_debugLocked hs
  case extest | idcode | samplePreload | clamp | highz | mbox | bypass => exact hs
  case mboxUpdateDr => exact debugLocked_of_guarded (mboxUpdateDrEffect_guarded ..) hs
  case mboxCaptureDr => exact debugLocked_of_guarded (mboxCaptureDrEffect_guarded s) hs
  case mboxAccessComplete => exact mboxAccessCompleteEffect_debugLocked hs
  case trst => exact trstEffect_debugLocked hs
  case pwrokDeassert => exact heldInReset_debugLocked ..
  case supplyDip => exact supplyDipEffect_debugLocked hs
  case sysRst | perst => exact resetPin_debugLocked rfl hs
  case resetRelease => exact resetReleaseEffect_debugLocked hs
  case pllLockLoss => exact pllLockLossEffect_debugLocked hs

/-- Every row keeps debug locked. -/
theorem exec_debugLocked {i : Instr} {t : State} (h : exec i s = .next t) (hs : DebugLocked s) : DebugLocked t := by
  rcases exec_kept_or_alters h with hkept | ha
  · exact debugLocked_of_kept hkept hs
  · exact exec_debugLocked_of_alters ha h hs

end DebugSteps

/-- A step is the tick, or the front command carried out. -/
theorem step_cases {s t : State} (h : step s = .next t) :
    (s.pending = [] ∧ t = tick s) ∨ ∃ i rest, s.pending = i :: rest ∧ exec i { s with pending := rest } = .next t := by
  unfold step at h
  split at h
  · cases h
    exact .inl ⟨‹_›, rfl⟩
  · exact .inr ⟨_, _, ‹_›, h⟩

/-- Settles O59: a tick leaves debug alone, and each row keeps it locked. -/
theorem debugLockedKept : Obligations.DebugLockedKept := by
  unfold Obligations.DebugLockedKept
  intro s t hs hstep
  rcases step_cases hstep with ⟨-, rfl⟩ | ⟨i, rest, -, hexec⟩
  · exact hs
  · exact exec_debugLocked hexec (s := { s with pending := rest }) hs

/-! ### The management port in every step (R521, R566, R568, R580) -/

section ManagementSteps

variable {s : State}

theorem privGrantEffect_managementLegal {c : Nat} {p : Packet} (h : ManagementLegal s) : ManagementLegal (privGrantEffect c p s) :=
  serve_preserves managementLegal_of_kept (fun _ _ ht => managementLegal_of_kept (finish_kept ..) ht) h

theorem debugUnlockEffect_managementLegal {c : Nat} {p : Packet} (h : ManagementLegal s) : ManagementLegal (debugUnlockEffect c p s) :=
  serve_preserves managementLegal_of_kept (fun x _ ht => managementLegal_of_kept (finish_kept ..)
    (managementLegal_of_managementPart (debugUnlockApply_managementPart x _) ht)) h

theorem debugLockEffect_managementLegal {c : Nat} {p : Packet} (h : ManagementLegal s) : ManagementLegal (debugLockEffect c p s) :=
  serve_preserves managementLegal_of_kept (fun _ _ ht => managementLegal_of_kept (finish_kept ..) ht) h

/-- SETPTR takes an offset and a length of Table 16.5 alone. -/
theorem p2RangeOk_legal {off n : Nat} (h : p2RangeOk s off n = true) : off % 4 = 0 ∧ n % 4 = 0 ∧ off + n ≤ 0x1400 ∧ 4 ≤ n ∧ n ≤ 256 := by
  simp only [p2RangeOk, Bool.and_eq_true, beq_iff_eq, decide_eq_true_eq] at h
  obtain ⟨⟨⟨⟨⟨hoff, -⟩, hn⟩, hlow⟩, hhigh⟩, hend⟩ := h
  exact ⟨hoff, hn, hend, hlow, Nat.le_trans hhigh (by split <;> decide)⟩

theorem p2SetptrEffect_managementLegal {x : P2Xfer} {off len : Nat} (h : ManagementLegal s) :
    ManagementLegal (p2SetptrEffect x off len s) := by
  unfold p2SetptrEffect p2Take
  dsimp only
  split
  · exact h
  · split
    · exact managementLegal_of_kept (p2Discard_kept s) h
    · rename_i hgood
      split
      · exact managementLegal_of_kept (bump_kept ..) h
      · simp only [Bool.or_eq_true, Bool.not_eq_true', not_or, Bool.not_eq_false] at hgood
        obtain ⟨-, hrange⟩ := hgood
        obtain ⟨hoff, hn, hend, hlow, hhigh⟩ := p2RangeOk_legal hrange
        obtain ⟨-, -, -, -, -, hrest⟩ := h
        exact ⟨hoff, hn, hend, hlow, hhigh, hrest⟩

theorem entdaaEffect_managementLegal {a : Option Nat} (h : ManagementLegal s) : ManagementLegal (entdaaEffect a s) := by
  unfold entdaaEffect
  split
  · split
    · exact portReset_managementLegal h
    · exact h
  · exact h

theorem setdasaEffect_managementLegal {st a : Nat} (h : ManagementLegal s) : ManagementLegal (setdasaEffect st a s) := by
  unfold setdasaEffect
  split
  · exact portReset_managementLegal h
  · exact h

theorem rstdaaEffect_managementLegal (h : ManagementLegal s) : ManagementLegal (rstdaaEffect s) := by
  unfold rstdaaEffect
  split
  · exact portReset_managementLegal h
  · exact h

theorem targetResetPatternEffect_managementLegal (h : ManagementLegal s) : ManagementLegal (targetResetPatternEffect s) := by
  unfold targetResetPatternEffect
  split
  · exact portReset_managementLegal h
  · exact h

/-- SETMWL takes 8 to 259. -/
theorem setmwlEffect_managementLegal {v : Nat} (h : ManagementLegal s) : ManagementLegal (setmwlEffect v s) := by
  unfold setmwlEffect
  split
  · rename_i hrange
    simp only [Bool.and_eq_true, decide_eq_true_eq] at hrange
    obtain ⟨⟨-, hlow⟩, hhigh⟩ := hrange
    obtain ⟨hptr, hlen, hend, hfour, hbig, -, -, hrest⟩ := h
    exact ⟨hptr, hlen, hend, hfour, hbig, hlow, hhigh, hrest⟩
  · exact h

/-- SETMRL takes 8 to 256. -/
theorem setmrlEffect_managementLegal {v : Nat} (h : ManagementLegal s) : ManagementLegal (setmrlEffect v s) := by
  unfold setmrlEffect
  split
  · rename_i hrange
    simp only [Bool.and_eq_true, decide_eq_true_eq] at hrange
    obtain ⟨⟨-, hlow⟩, hhigh⟩ := hrange
    obtain ⟨hptr, hlen, hend, hfour, hbig, hmwl, hmwl', -, -, hrest⟩ := h
    exact ⟨hptr, hlen, hend, hfour, hbig, hmwl, hmwl', hlow, hhigh, hrest⟩
  · exact h

/-- A change of the test access port keeps the rest, and its instruction must be one of the seven. -/
theorem onTap_managementLegal {f : TapSt → TapSt} (hir : (f s.tap).ir ∈ [0x00, 0x01, 0x02, 0x03, 0x04, 0x20, 0xFF])
    (h : ManagementLegal s) : ManagementLegal (onTap f s) := by
  obtain ⟨hptr, hlen, hend, hfour, hbig, hmwl, hmwl', hmrl, hmrl', -, htime⟩ := h
  exact ⟨hptr, hlen, hend, hfour, hbig, hmwl, hmwl', hmrl, hmrl', hir, htime⟩

theorem mboxAccessCompleteEffect_managementLegal (h : ManagementLegal s) : ManagementLegal (mboxAccessCompleteEffect s) := by
  unfold mboxAccessCompleteEffect
  split
  · exact h
  · have haccess := fun k w => managementLegal_of_guarded (mboxAccess_guarded k w
      (onTap (fun t => { t with access := none, done := true, resetDue := false }) s)) h
    dsimp only
    split
    · exact portReset_managementLegal (haccess ..)
    · exact haccess ..

/-- TRST selects IDCODE. -/
theorem trstEffect_managementLegal (h : ManagementLegal s) : ManagementLegal (trstEffect s) := by
  have hselect : ManagementLegal (selectIr 0x01 s) := onTap_managementLegal (by simp) h
  unfold trstEffect
  dsimp only
  split
  · exact onTap_managementLegal (by simp [selectIr, onTap]) hselect
  · exact portReset_managementLegal hselect

/-- The rows that can change what `kept` names keep the management port's values legal. -/
theorem exec_managementLegal_of_alters {i : Instr} {t : State} (ha : AltersKept i) (h : exec i s = .next t) (hs : ManagementLegal s) :
    ManagementLegal t := by
  cases ha
  all_goals cases h
  case privGrant => exact privGrantEffect_managementLegal hs
  case patchLoad => exact managementLegal_of_guarded (patchLoadEffect_guarded ..) hs
  case patchRemove => exact managementLegal_of_guarded (patchRemoveEffect_guarded ..) hs
  case patchLoadComplete => exact managementLegal_of_guarded (patchLoadCompleteEffect_guarded ..) hs
  case patchRemoveComplete => exact managementLegal_of_guarded (patchRemoveCompleteEffect_guarded s) hs
  case debugChallenge => exact managementLegal_of_guarded (debugChallengeEffect_guarded ..) hs
  case debugUnlock => exact debugUnlockEffect_managementLegal hs
  case debugLock => exact debugLockEffect_managementLegal hs
  case nonceExpiry => exact managementLegal_of_guarded (nonceExpiryEffect_guarded s) hs
  case p2Setptr => exact p2SetptrEffect_managementLegal hs
  case p2Read => exact managementLegal_of_guarded (p2ReadEffect_guarded ..) hs
  case entdaa => exact entdaaEffect_managementLegal hs
  case setdasa => exact setdasaEffect_managementLegal hs
  case rstdaa => exact rstdaaEffect_managementLegal hs
  case setnewda => exact managementLegal_of_guarded (setnewdaEffect_guarded ..) hs
  case getpid | getbcr | getdcr | i3cGetstatus | getmwl | getmrl => exact managementLegal_of_guarded (p2Answer_guarded ..) hs
  case setmwl => exact setmwlEffect_managementLegal hs
  case setmrl => exact setmrlEffect_managementLegal hs
  case rstact => exact managementLegal_of_guarded (rstactEffect_guarded ..) hs
  case targetResetPattern => exact targetResetPatternEffect_managementLegal hs
  case extest | idcode | samplePreload | clamp | highz | mbox | bypass => exact onTap_managementLegal (by simp) hs
  case mboxUpdateDr => exact managementLegal_of_guarded (mboxUpdateDrEffect_guarded ..) hs
  case mboxCaptureDr => exact managementLegal_of_guarded (mboxCaptureDrEffect_guarded s) hs
  case mboxAccessComplete => exact mboxAccessCompleteEffect_managementLegal hs
  case trst => exact trstEffect_managementLegal hs
  case pwrokDeassert => exact heldInReset_managementLegal _ _ hs
  case supplyDip => exact supplyDipEffect_managementLegal hs
  case sysRst | perst => exact resetPin_managementLegal hs
  case resetRelease => exact resetReleaseEffect_managementLegal hs
  case pllLockLoss => exact pllLockLossEffect_managementLegal hs

/-- Every row keeps the management port's values legal. -/
theorem exec_managementLegal {i : Instr} {t : State} (h : exec i s = .next t) (hs : ManagementLegal s) : ManagementLegal t := by
  rcases exec_kept_or_alters h with hkept | ha
  · exact managementLegal_of_kept hkept hs
  · exact exec_managementLegal_of_alters ha h hs

/-- A tick keeps the timebase a 64-bit count. -/
theorem tick_managementLegal (h : ManagementLegal s) : ManagementLegal (tick s) := by
  obtain ⟨hptr, hlen, hend, hfour, hbig, hmwl, hmwl', hmrl, hmrl', hir, -⟩ := h
  exact ⟨hptr, hlen, hend, hfour, hbig, hmwl, hmwl', hmrl, hmrl', hir, Nat.mod_lt _ (by decide)⟩

end ManagementSteps

/-- Settles O60: a tick and each row keep the values legal. -/
theorem managementLegalKept : Obligations.ManagementLegalKept := by
  unfold Obligations.ManagementLegalKept
  intro s t hs hstep
  rcases step_cases hstep with ⟨-, rfl⟩ | ⟨i, rest, -, hexec⟩
  · exact tick_managementLegal hs
  · exact exec_managementLegal hexec (s := { s with pending := rest }) hs

end Sys2Proof.Proofs
end

section
/-! PROOFS. Checks before effects (R312, R317, R330, R332, R357, R399, R408): every firmware-answered row is `serve` with its own check, so
what `serve` does with a command that fails a check holds of each. -/

namespace Sys2Proof.Proofs

open Sys2Proof.Machine Sys2Proof.Safety Sys2Proof.Laws

section Checks

variable {i : Instr} {op c : Nat} {p : Packet} {s : State} {x : Cmd} {chk : State → Cmd → Verdict} {act : Cmd → State → State}

/-- Every firmware-answered row serves its command with its own check. -/
theorem exec_serves (h : asCommand i = some (op, c, p)) : ∃ act, exec i s = .next (serve op c p (ownCheck op) act s) := by
  cases i
  all_goals cases h
  all_goals exact ⟨_, rfl⟩

/-- A PEND command of a partition that is being reset or destroyed is pending work that ends at once. -/
theorem serve_doomed (hready : ready s op c p = some x) (hgate : gateStatus (turned c s) x = 0) (hblock : needsBlock x = false)
    (hdoomed : pendDoomed (turned c s) x = true) :
    serve op c p chk act s = pend x (fun tk t => post tk stPartitionReset [] t) (turned c s) := by
  simp [serve, hready, hgate, hblock, judgeCmd, hdoomed]

/-- A reserved parameter bit is refused before the entry's own checks. -/
theorem serve_reserved (hready : ready s op c p = some x) (hgate : gateStatus (turned c s) x = 0) (hblock : needsBlock x = false)
    (hdoomed : pendDoomed (turned c s) x = false) (hclear : paramsClear x = false) :
    serve op c p chk act s = finish x { status := stParamReserved } (turned c s) := by
  simp [serve, hready, hgate, hblock, judgeCmd, hdoomed, check10, hclear, no, refuse, stParamReserved]

/-- Pending work, with and without a free slot. -/
theorem pend_eq_ite (x : Cmd) (work : Nat → State → State) (s : State) :
    pend x work s =
      if slotFree s x.port then work (takeSlot x (!partScope x) s).1
        (finish x { status := stPending, result := [dw (takeSlot x (!partScope x) s).1] } (takeSlot x (!partScope x) s).2)
      else finish x { status := stResultFull } s := by
  rcases hfree : slotFree s x.port
  · simpa using pend_full hfree work
  · simpa using pend_work hfree work

/-- A stageable command is staged while its owner's sequence is open. -/
theorem staging_of_open (hready : ready s op c p = some x) (hstaged : (attr op).staged = true)
    (hopen : (tget s.seqs x.carrier).lock.isSome = true) : staging (turned c s) x = true := by
  simp [staging, opcode_of_ready hready, hstaged, hopen]

end Checks

/-- Settles O48: each clause is what `serve` does with a command that stops at that check. -/
theorem checksBeforeEffect : Obligations.ChecksBeforeEffect := by
  unfold Obligations.ChecksBeforeEffect
  intro i op c p s hcommand
  obtain ⟨act, hexec⟩ := exec_serves (s := s) hcommand
  rw [hexec]
  refine ⟨fun hready => ?idle, fun x hready hgate => ?gate, fun x hready hgate hblock => ?block,
    fun x hready hgate hblock hdoomed => ?doomed, fun x hready hgate hblock hdoomed hclear => ?reserved,
    fun x v hreached hv hfail => ?refused, fun x q hreached hpass hstaged hq hopen => ?staged⟩
  case idle => rw [serve_idle hready]
  case gate => rw [serve_gate hready hgate]
  case block => rw [serve_asks hready hgate hblock, askBlock]; rfl
  case doomed => rw [serve_doomed hready hgate hblock hdoomed, pend_eq_ite]; rfl
  case reserved => rw [serve_reserved hready hgate hblock hdoomed hclear]
  case refused =>
    subst hv
    rw [serve_refused hreached hfail, refuse]
  case staged =>
    subst hq
    obtain ⟨hready, -⟩ := reached_iff.mp hreached
    rw [serve_staged hreached hpass (staging_of_open hready hstaged hopen), stageCmd]
    rfl

end Sys2Proof.Proofs
end

section
/-! PROOFS. Replies (R318, R327, R329, R334): where a reply is written, and what writing it leaves alone. -/

namespace Sys2Proof.Proofs

open Sys2Proof.Machine Sys2Proof.Safety Sys2Proof.Laws

section Replies

variable {s : State} {x : Cmd} {c : Nat}

/-- While no trace runs, no COMMAND record is made. -/
theorem owlRecord_of_stopped (h : s.owl.running = false) (r : List Dword) : owlRecord r s = s := by
  simp [owlRecord, h]

/-- A dword is four bytes. -/
theorem length_dwBytes (ds : List Dword) : (dwBytes ds).length = 4 * ds.length := by
  induction ds with
  | nil => rfl
  | cons d r ih =>
    rw [dwBytes, List.flatMap_cons, List.length_append, ← dwBytes, ih, List.length_cons]
    simp only [leBytes, List.length_cons, List.length_nil]
    omega

/-- A reply is 32 bytes (Table 09.3). -/
theorem length_replyBytes (tag st attn : Nat) (phase reread dup : Bool) (h : Nat) (res : List Dword) :
    (dwBytes (replyDws tag st attn phase reread dup h res)).length = 32 := by
  simp [length_dwBytes, replyDws]

/-- The payload limit of a function is a multiple of 32. -/
theorem dvd_mps (f : PcieFn) : 32 ∣ f.mps := ⟨4 * 2 ^ min 2 (bits f.devCtl 7 5), by rw [PcieFn.mps]; omega⟩

theorem mps_pos (f : PcieFn) : 0 < f.mps := by
  have hpow : 0 < 2 ^ min 2 (bits f.devCtl 7 5) := Nat.pow_pos (by decide)
  rw [PcieFn.mps]
  omega

/-- A transfer that ends within its aligned unit is one request. -/
theorem hostRuns_one {limit a n : Nat} (hpos : 0 < n) (hfits : n ≤ limit - a % limit) : hostRuns limit a n = [(a, n)] := by
  rw [hostRuns, runsOf]
  simp [Nat.ne_of_gt hpos, Nat.min_eq_right hfits, runsOf]

/-- 32 bytes at a multiple of 32 do not cross a multiple of the limit. -/
theorem entry_fits {limit a : Nat} (hlimit : 32 ∣ limit) (hpos : 0 < limit) (ha : 32 ∣ a) : 32 ≤ limit - a % limit := by
  have hlt := Nat.mod_lt a hpos
  have hdvd : 32 ∣ limit - a % limit := Nat.dvd_sub hlimit ((Nat.dvd_mod_iff hlimit).mpr ha)
  exact Nat.le_of_dvd (by omega) hdvd

/-- A completion entry is written in one request (R329). -/
theorem hostWrite_entry {fn a : Nat} {data : List Byte} (hlength : data.length = 32) (ha : 32 ∣ a) (s : State) :
    hostWrite false fn a data s = { s with hostOut := s.hostOut ++ [{ fn := fn, addr := a, data := data }] } := by
  have hfits := entry_fits (dvd_mps (tget s.fns fn)) (mps_pos _) ha
  rw [hostWrite, hlength, hostRuns_one (by decide) hfits]
  simp [← hlength]

/-- A carrier other than a QP0 that may fall from RDY is settled. -/
theorem settleQp0_of_settled (h : isQp c = false ∨ c % 64 ≠ 0 ∨ (tget s.qps c).rdy = false) : settleQp0 c s = s := by
  rcases h with h | h | h <;> simp [settleQp0, h]

/-- So is one that is enabled and awaits nothing. -/
theorem settleQp0_of_enabled (hen : (tget s.qps c).en = true) (hwaits : (tget s.qps c).enWaits = false) : settleQp0 c s = s := by
  simp [settleQp0, hen, hwaits]

/-- A reply that is owed to a mailbox (R334). -/
theorem finishQuiet_mailbox {r : Reply} (hfound : s.cmds.find? (fun y => y.id == x.id) = some x) (howed : x.owed = true)
    (hmbx : isQp x.carrier = false) :
    finishQuiet x r s = replyMbx x.port (dwBytes x.pkt.dws) x.pkt.tag r { s with cmds := s.cmds.filter (fun y => y.id != x.id) } := by
  rw [finishQuiet, settleQp0_of_settled (.inl hmbx)]
  simp [hfound, howed, hmbx]

/-- A reply that is owed to a queue pair that stays enabled (R327). -/
theorem finishQuiet_queuePair {r : Reply} (hfound : s.cmds.find? (fun y => y.id == x.id) = some x) (howed : x.owed = true)
    (hqp : isQp x.carrier = true) :
    finishQuiet x r s =
      settleQp0 x.carrier (replyQp x.carrier x.pkt.tag r { s with cmds := s.cmds.filter (fun y => y.id != x.id) }) := by
  simp [finishQuiet, hfound, howed, hqp]

/-- A reply that is no longer owed is discarded (R327). -/
theorem finishQuiet_discarded {r : Reply} (hfound : s.cmds.find? (fun y => y.id == x.id) = some x) (howed : x.owed = false) :
    finishQuiet x r s = settleQp0 x.carrier { s with cmds := s.cmds.filter (fun y => y.id != x.id) } := by
  simp [finishQuiet, hfound, howed]

/-- A reply written to the completion ring of a function that can issue requests (R329). -/
theorem replyQp_entry {tag : Nat} {r : Reply} {q : Qp} (hmaster : canMaster s (portOf c) = true) (hq : tget s.qps c = q)
    (hbase : q.cqbase % 4096 = 0) :
    replyQp c tag r s = { s with
      qps := tset s.qps c { q with
        cqw := if q.cqw + 1 < 2 ^ q.cqlog then q.cqw + 1 else 0, phase := if q.cqw + 1 < 2 ^ q.cqlog then q.phase else !q.phase
        reserved := q.reserved - 1, unread := q.unread + 1 }
      hostOut := s.hostOut ++ [{ fn := portOf c, addr := q.cqbase + 32 * q.cqw
                                 data := dwBytes (replyDws tag r.status (viewOf s c).summary q.phase r.reread false q.fetch r.result) }] } := by
  have haligned : 32 ∣ q.cqbase + 32 * q.cqw := by omega
  subst hq
  rw [replyQp, hmaster]
  simp only [Bool.not_true, Bool.false_eq_true, if_false]
  rw [hostWrite_entry (length_replyBytes ..) haligned]
  by_cases hwraps : (tget s.qps c).cqw + 1 < 2 ^ (tget s.qps c).cqlog
  · simp [hwraps, Nat.not_le_of_lt hwraps]
  · simp [hwraps, Nat.le_of_not_lt hwraps]

end Replies

/-- Settles O52: by where the reply is owed. -/
theorem replyWritten : Obligations.ReplyWritten := by
  unfold Obligations.ReplyWritten
  refine ⟨fun s x r hstopped => ?quiet, fun s x r hfound howed hmbx => ?mailbox,
    fun s x r q hfound howed hqp hmaster hq hen hwaits hbase => ?queuePair, fun s x r hfound howed hsettled => ?discarded,
    length_replyBytes⟩
  case quiet =>
    rw [finish, owlRecord_of_stopped hstopped, ite_self]
  case mailbox => rw [finishQuiet_mailbox hfound howed hmbx]; rfl
  case queuePair =>
    rw [finishQuiet_queuePair hfound howed hqp,
      replyQp_entry (s := { s with cmds := s.cmds.filter (fun y => y.id != x.id) }) hmaster hq hbase]
    exact settleQp0_of_enabled (by simpa using hen) (by simpa using hwaits)
  case discarded =>
    rw [finishQuiet_discarded hfound howed]
    exact settleQp0_of_settled hsettled

end Sys2Proof.Proofs
end

section
/-! PROOFS. Counters (R15, R360), and locks that break (R397, R398): what counting and attention leave alone, field by field, and that
an event enters every view of its scope. -/

namespace Sys2Proof.Proofs

open Sys2Proof.Machine Sys2Proof.Safety Sys2Proof.Laws

section Views

variable {s : State} {cid inst n b p q : Nat} {sc : Scope}

/-! ### Privileges under counting and attention -/

/-- Repeating what leaves something of the state alone. -/
theorem foldl_keeps {α β : Type} {f : State → β} {g : State → α → State} (h : ∀ t a, f (g t a) = f t) (l : List α) (s : State) :
    f (l.foldl g s) = f s := by
  induction l generalizing s with
  | nil => rfl
  | cons a r ih => rw [List.foldl_cons, ih, h]

theorem raiseOwn_isAdmin (s : State) (p : Nat) (qp : Option Nat) (q : Nat) : isAdmin (raiseOwn s p qp) q = isAdmin s q := by
  cases qp <;> exact admin_tset _ _ _ _ rfl

/-- Counting leaves privileges alone. -/
@[simp] theorem bumpBy_isAdmin (cid inst n : Nat) (s : State) (q : Nat) : isAdmin (bumpBy cid inst n s) q = isAdmin s q := by
  unfold bumpBy fireThresholds
  dsimp only
  refine (foldl_keeps (f := (isAdmin · q)) (fun t e => ?_) _ _).trans (foldl_keeps (f := (isAdmin · q)) (fun t p => ?_) _ _)
  · split
    · exact raiseOwn_isAdmin ..
    · rfl
  · split
    · exact raiseOwn_isAdmin ..
    · rfl

@[simp] theorem bump_isAdmin (cid inst : Nat) (s : State) (q : Nat) : isAdmin (bump cid inst s) q = isAdmin s q := bumpBy_isAdmin cid inst 1 s q

theorem raisePort_isAdmin (s : State) (b : Nat) (sc : Scope) (p q : Nat) : isAdmin (raisePort s b sc p) q = isAdmin s q := by
  unfold raisePort
  dsimp only
  split
  · exact admin_tset _ _ _ _ rfl
  · rfl

/-! ### What counting changes -/

/-- The counters after counting. -/
theorem bumpBy_cnt (cid inst n : Nat) (s : State) :
    (bumpBy cid inst n s).cnt = tset s.cnt (cntKey cid inst) (min (tget s.cnt (cntKey cid inst) + n) 0xFFFFFFFF) := by
  obtain ⟨ports, qps, h⟩ := bumpBy_form cid inst n s
  rw [h]

/-- Beside counters, only ports and queue pairs change. -/
theorem bumpBy_frame (cid inst n : Nat) (s : State) :
    bumpBy cid inst n s = { s with
      cnt := (bumpBy cid inst n s).cnt, ports := (bumpBy cid inst n s).ports, qps := (bumpBy cid inst n s).qps } := by
  obtain ⟨ports, qps, h⟩ := bumpBy_form cid inst n s
  rw [h]

theorem bump_frame (cid inst : Nat) (s : State) :
    bump cid inst s = { s with
      cnt := (bump cid inst s).cnt, ports := (bump cid inst s).ports, qps := (bump cid inst s).qps } := bumpBy_frame cid inst 1 s

@[simp] theorem bumpBy_locks (cid inst n : Nat) (s : State) : (bumpBy cid inst n s).locks = s.locks := by rw [bumpBy_frame]
@[simp] theorem bumpBy_seqs (cid inst n : Nat) (s : State) : (bumpBy cid inst n s).seqs = s.seqs := by rw [bumpBy_frame]
@[simp] theorem bumpBy_bring (cid inst n : Nat) (s : State) : (bumpBy cid inst n s).bring = s.bring := by rw [bumpBy_frame]

@[simp] theorem raise_cnt (b : Nat) (sc : Scope) (s : State) : (raise b sc s).cnt = s.cnt := by
  obtain ⟨ports, qps, h⟩ := raise_form b sc s
  rw [h]

@[simp] theorem raise_locks (b : Nat) (sc : Scope) (s : State) : (raise b sc s).locks = s.locks := by
  obtain ⟨ports, qps, h⟩ := raise_form b sc s
  rw [h]

@[simp] theorem raise_seqs (b : Nat) (sc : Scope) (s : State) : (raise b sc s).seqs = s.seqs := by
  obtain ⟨ports, qps, h⟩ := raise_form b sc s
  rw [h]

/-! ### An event enters the views of its scope (R336, R337) -/

@[simp] theorem raisePort_bring (s : State) (b : Nat) (sc : Scope) (p : Nat) : (raisePort s b sc p).bring = s.bring := by
  obtain ⟨ports, qps, h⟩ := raisePort_form s b sc p
  rw [h]

/-- The bit stands in an existing port's view once an event that enters it has been raised there. -/
theorem raisePort_isSet (hexists : portExists s p = true) (henters : entersPort s sc p = true) :
    (tget (tget (raisePort s b sc p).ports p).view.bits b).isSet = true := by
  simp [raisePort, hexists, henters, View.raise]

/-- A bit that stands in a port's view stays there. -/
theorem raisePort_isSet_kept (h : (tget (tget s.ports q).view.bits b).isSet = true) :
    (tget (tget (raisePort s b sc p).ports q).view.bits b).isSet = true := by
  unfold raisePort
  dsimp only
  split
  · rw [tget_tset]
    split
    · rename_i hq
      subst hq
      dsimp only
      split
      · simp [View.raise]
      · exact h
    · exact h
  · exact h

/-- An event for ADMIN ports is seen by every existing one of them (R320). -/
theorem raise_admin_isSet (hexists : portExists s p = true) (hadmin : isAdmin s p = true) :
    (tget (tget (raise b .admin s).ports p).view.bits b).isSet = true := by
  have hset : ∀ t, t.bring = s.bring → isAdmin t p = isAdmin s p →
      (tget (tget (raisePort t b .admin p).ports p).view.bits b).isSet = true := by
    intro t hbring hsame
    refine raisePort_isSet ?_ (hsame.trans hadmin)
    rwa [portExists, hbring]
  have hport : p < 4 := by
    simp only [portExists, Bool.and_eq_true, decide_eq_true_eq] at hexists
    exact hexists.1
  unfold raise
  rcases (by omega : p = 0 ∨ p = 1 ∨ p = 2 ∨ p = 3) with rfl | rfl | rfl | rfl
  · exact raisePort_isSet_kept (raisePort_isSet_kept (raisePort_isSet_kept (hset s rfl rfl)))
  · exact raisePort_isSet_kept (raisePort_isSet_kept (hset _ (by simp) (by simp [raisePort_isAdmin])))
  · exact raisePort_isSet_kept (hset _ (by simp) (by simp [raisePort_isAdmin]))
  · exact hset _ (by simp) (by simp [raisePort_isAdmin])

end Views

/-- Settles O53: the counter's own value is written, and views change beside it. -/
theorem counterSaturates : Obligations.CounterSaturates := by
  unfold Obligations.CounterSaturates
  intro s cid inst n hwf
  refine ⟨?own, fun k hk => ?other, ?form, fun p => bumpBy_isAdmin cid inst n s p, bumpBy_frame cid inst n s⟩
  case own => rw [bumpBy_cnt, tget_tset_self]
  case other => rw [bumpBy_cnt, tget_tset_of_ne _ _ hk]
  case form => rw [bumpBy_cnt]; exact twf_tset _ _ _ hwf

/-! ### Locks that break (R397, R398) -/

section Locks

variable {s : State} {n m o : Nat} {own : Nat → Bool}

/-- How many staged changes a break discards: those of the holder's sequence on the lock. -/
def discardedBy (s : State) (o n : Nat) : Nat := if (tget s.seqs o).lock = some n then (tget s.seqs o).staged.length else 0

/-- The sequences after a break: the holder's on the lock is closed. -/
def seqsBroken (s : State) (o n : Nat) : Tab Seq := if (tget s.seqs o).lock = some n then tset s.seqs o {} else s.seqs

/-- A held lock that breaks. -/
theorem breakLock_of_held (h : tget s.locks n = .held o) :
    breakLock s n = raise attnLockBroken .admin (bumpBy cntSeqDiscarded 0 (discardedBy s o n) (bump cntLockBroken 0
      { s with seqs := seqsBroken s o n, locks := tset s.locks n .broken })) := by
  simp only [breakLock, h, discardedBy, seqsBroken]

/-- A lock that nobody holds does not break. -/
theorem breakLock_of_not_held (h : ∀ o, tget s.locks n ≠ .held o) : breakLock s n = s := by
  unfold breakLock
  split
  · rename_i o hheld
    exact absurd hheld (h o)
  · rfl

/-- A break leaves the other locks, and its own is held by nobody. -/
theorem breakLock_holder (h : tget (breakLock s n).locks m = .held o) : m ≠ n ∧ tget s.locks m = .held o := by
  by_cases hheld : ∃ o', tget s.locks n = .held o'
  · obtain ⟨o', ho'⟩ := hheld
    rw [breakLock_of_held ho', raise_locks, bumpBy_locks, bump, bumpBy_locks, tget_tset] at h
    split at h
    · contradiction
    · exact ⟨‹_›, h⟩
  · have hfree : ∀ o', tget s.locks n ≠ .held o' := fun o' ho' => hheld ⟨o', ho'⟩
    rw [breakLock_of_not_held hfree] at h
    exact ⟨fun hmn => hfree o (hmn ▸ h), h⟩

/-- A lock that is held after some locks have broken is none of them, and was held before. -/
theorem foldl_breakLock_holder {l : List Nat} (h : tget (l.foldl breakLock s).locks m = .held o) : m ∉ l ∧ tget s.locks m = .held o := by
  induction l generalizing s with
  | nil => exact ⟨List.not_mem_nil, h⟩
  | cons n r ih =>
    obtain ⟨hrest, hafter⟩ := ih h
    obtain ⟨hne, hbefore⟩ := breakLock_holder hafter
    exact ⟨by simp [hne, hrest], hbefore⟩

/-- An entry that is not the default is listed. -/
theorem mem_of_tget_ne {α : Type} [Inhabited α] {t : Tab α} {k : Nat} {v : α} (h : tget t k = v) (hv : v ≠ default) : (k, v) ∈ t := by
  induction t with
  | nil => exact absurd h.symm hv
  | cons e r ih =>
    obtain ⟨k', v'⟩ := e
    rw [tget] at h
    split at h
    · rename_i hk
      subst hk h
      exact List.mem_cons_self
    · exact List.mem_cons_of_mem _ (ih h)

/-- A lock held by such an owner is among the locks to break. -/
theorem mem_locksOf (hheld : tget s.locks n = .held o) (hown : own o = true) : n ∈ locksOf s own := by
  have hlisted : (n, Lock.held o) ∈ s.locks := mem_of_tget_ne hheld nofun
  exact List.mem_map.mpr ⟨_, List.mem_filter.mpr ⟨hlisted, hown⟩, rfl⟩

/-- No owner that loses its carrier holds a lock afterwards. -/
theorem breakLocks_holder (h : tget (breakLocks own s).locks n = .held o) : own o = false := by
  obtain ⟨hnot, hheld⟩ := foldl_breakLock_holder h
  cases hown : own o with
  | false => rfl
  | true => exact absurd (mem_locksOf hheld hown) hnot

/-- The two counters of a break are different ones. -/
theorem breakLock_cnt (h : tget s.locks n = .held o) :
    tget (breakLock s n).cnt (cntKey cntLockBroken 0) = min (tget s.cnt (cntKey cntLockBroken 0) + 1) 0xFFFFFFFF ∧
    tget (breakLock s n).cnt (cntKey cntSeqDiscarded 0) = min (tget s.cnt (cntKey cntSeqDiscarded 0) + discardedBy s o n) 0xFFFFFFFF := by
  have hne : cntKey cntLockBroken 0 ≠ cntKey cntSeqDiscarded 0 := by decide
  rw [breakLock_of_held h, raise_cnt, bumpBy_cnt, bump, bumpBy_cnt]
  exact ⟨by rw [tget_tset_of_ne _ _ hne, tget_tset_self], by rw [tget_tset_self, tget_tset_of_ne _ _ hne.symm]⟩

/-- Every existing ADMIN port sees a break. -/
theorem breakLock_isSet {p : Nat} (h : tget s.locks n = .held o) (hexists : portExists s p = true) (hadmin : isAdmin s p = true) :
    (tget (tget (breakLock s n).ports p).view.bits attnLockBroken).isSet = true := by
  rw [breakLock_of_held h]
  refine raise_admin_isSet ?_ ?_
  · simpa [portExists, bump] using hexists
  · rw [bumpBy_isAdmin, bump_isAdmin]
    exact hadmin

end Locks

/-- Settles O54: the broken lock's fields one by one, and the locks of lost owners by the list of those that break. -/
theorem lockBreaks : Obligations.LockBreaks := by
  unfold Obligations.LockBreaks
  refine ⟨fun s n o _ _ _ hheld => ?one, fun s own n o _ hheld => breakLocks_holder hheld⟩
  have hform := breakLock_of_held hheld
  have hlocks : (breakLock s n).locks = tset s.locks n .broken := by rw [hform]; simp [bump]
  have hseqs : (breakLock s n).seqs = seqsBroken s o n := by rw [hform]; simp [bump]
  obtain ⟨hbroken, hdiscarded⟩ := breakLock_cnt hheld
  refine ⟨by rw [hlocks, tget_tset_self], fun m hm => by rw [hlocks, tget_tset_of_ne _ _ hm], fun hopen => ?closed, fun m hm => ?others,
    hbroken, hdiscarded, fun p hexists hadmin => breakLock_isSet hheld hexists hadmin⟩
  case closed => rw [hseqs, seqsBroken, if_pos hopen, tget_tset_self]
  case others =>
    rw [hseqs, seqsBroken]
    split
    · exact tget_tset_of_ne _ _ hm
    · rfl

end Sys2Proof.Proofs
end

section
/-! PROOFS. SEQ_COMMIT (R400): a list of staged changes is applied in order, or one of them fails with its position. -/

namespace Sys2Proof.Proofs

open Sys2Proof.Machine Sys2Proof.Safety Sys2Proof.Laws

section Commits

variable {s t : State} {x : Cmd} {xs : List Cmd} {n k : Nat} {v : Verdict}

/-- The effects of staged changes in order of position. -/
def applyStaged (xs : List Cmd) (s : State) : State := xs.foldl (fun u y => stagedApply y.pkt.opcode y u) s

/-- A list of changes that fails, fails at one of its positions with a status. -/
theorem commitFrom_error (h : commitFrom k xs s = .error (n, v)) : v.status ≠ 0 ∧ k ≤ n ∧ n < k + xs.length := by
  induction xs generalizing k s with
  | nil => cases h
  | cons x r ih =>
    rw [commitFrom] at h
    split at h
    · cases h
      exact ⟨‹_›, Nat.le_refl _, by simp⟩
    · obtain ⟨hstatus, hlow, hhigh⟩ := ih h
      exact ⟨hstatus, by omega, by rw [List.length_cons]; omega⟩

/-- One that does not, has been applied whole. -/
theorem commitFrom_ok (h : commitFrom k xs s = .ok t) : t = applyStaged xs s := by
  induction xs generalizing k s with
  | nil => cases h; rfl
  | cons x r ih =>
    rw [commitFrom] at h
    split at h
    · cases h
    · exact ih h

/-- Counting a list of counters changes counters and views alone. -/
theorem foldl_bump_frame (l : List (Nat × Nat)) (s : State) :
    ∃ cnt ports qps, l.foldl (fun t k => bump k.1 k.2 t) s = { s with cnt := cnt, ports := ports, qps := qps } := by
  induction l generalizing s with
  | nil => exact ⟨s.cnt, s.ports, s.qps, rfl⟩
  | cons k r ih =>
    obtain ⟨cnt, ports, qps, h⟩ := ih (bump k.1 k.2 s)
    rw [List.foldl_cons, h, bump_frame]
    exact ⟨cnt, ports, qps, rfl⟩

/-- A sequence of which a change fails is closed, and the failure counted. -/
theorem seqCommitApply_of_error (h : commitFrom 1 (tget s.seqs x.carrier).staged s = .error (n, v)) :
    seqCommitApply x s = ({ status := v.status, result := [dw n] },
      v.counts.foldl (fun t k => bump k.1 k.2 t) (bump cntSeqCommitFail 0 (closeSeq x.carrier s))) := by
  rw [seqCommitApply, h]

/-- One of which none fails is closed after them all. -/
theorem seqCommitApply_of_ok (h : commitFrom 1 (tget s.seqs x.carrier).staged s = .ok t) :
    seqCommitApply x s = ({ result := [0] }, closeSeq x.carrier t) := by
  rw [seqCommitApply, h]

/-- The state after a commit that fails: the sequence is closed, and counters and views have changed. -/
theorem seqCommitApply_error_frame (h : commitFrom 1 (tget s.seqs x.carrier).staged s = .error (n, v)) :
    (seqCommitApply x s).2 = { s with
      seqs := tset s.seqs x.carrier {}, cnt := (seqCommitApply x s).2.cnt, ports := (seqCommitApply x s).2.ports
      qps := (seqCommitApply x s).2.qps } := by
  rw [seqCommitApply_of_error h]
  obtain ⟨cnt, ports, qps, hframe⟩ := foldl_bump_frame v.counts (bump cntSeqCommitFail 0 (closeSeq x.carrier s))
  rw [hframe, bump_frame]
  rfl

end Commits

/-- Settles O55: by whether the re-check of the staged changes fails. -/
theorem commitAllOrNothing : Obligations.CommitAllOrNothing := by
  unfold Obligations.CommitAllOrNothing
  refine ⟨fun x s n v hfails => ?fails, fun x s t hpasses => ?passes, fun x s hempty => ?empty⟩
  case fails =>
    obtain ⟨hstatus, hlow, hhigh⟩ := commitFrom_error hfails
    refine ⟨hstatus, hlow, by omega, ?_, ?_, seqCommitApply_error_frame hfails⟩
    all_goals rw [seqCommitApply_of_error hfails]
  case passes =>
    rw [seqCommitApply_of_ok hpasses]
    exact ⟨commitFrom_ok hpasses, rfl, rfl⟩
  case empty => exact seqCommitApply_of_ok (by rw [hempty, commitFrom])

end Sys2Proof.Proofs
end

section
/-! PROOFS. Final statuses (R335): the trace and the attention of a post leave the result slots alone. -/

namespace Sys2Proof.Proofs

open Sys2Proof.Machine Sys2Proof.Safety Sys2Proof.Laws

section Posts

variable {s : State} {tk st : Nat} {res : List Dword} {r : RSlot}

/-! ### Result slots under counting, attention and the trace -/

@[simp] theorem bumpBy_slots (cid inst n : Nat) (s : State) : (bumpBy cid inst n s).slots = s.slots := by rw [bumpBy_frame]

@[simp] theorem raise_slots (b : Nat) (sc : Scope) (s : State) : (raise b sc s).slots = s.slots := by
  obtain ⟨ports, qps, h⟩ := raise_form b sc s
  rw [h]

/-- What strikes a packet changes the free values and the injections that wait. -/
theorem injectNoc_frame (k : NocPkt) (s : State) :
    (injectNoc k s).2 = { s with freeCtr := (injectNoc k s).2.freeCtr, integ := (injectNoc k s).2.integ } := by
  unfold injectNoc
  dsimp only
  repeat' split
  all_goals rfl

/-- A packet that leaves is under way beside that. -/
theorem sendPkt_frame (k : NocPkt) (s : State) :
    sendPkt k s = { s with
      freeCtr := (sendPkt k s).freeCtr, integ := (sendPkt k s).integ, flights := (sendPkt k s).flights } := by
  rw [sendPkt]
  dsimp only
  rw [injectNoc_frame]

@[simp] theorem sendPkt_slots (k : NocPkt) (s : State) : (sendPkt k s).slots = s.slots := by rw [sendPkt_frame]

@[simp] theorem sendReq_slots (k : NocPkt) (why : Purpose) (s : State) : (sendReq k why s).slots = s.slots := by
  unfold sendReq
  split
  · rfl
  · exact sendPkt_slots ..

@[simp] theorem owlPump_slots (n : Nat) (s : State) : (owlPump n s).slots = s.slots := by
  induction n generalizing s with
  | zero => rfl
  | succ n ih =>
    have hsend : ∀ k, (owlSend k s).slots = s.slots := fun k => sendReq_slots ..
    rw [owlPump, apply_ite State.slots, ih, hsend, ite_self]

@[simp] theorem owlRecord_slots (d : List Dword) (s : State) : (owlRecord d s).slots = s.slots := by
  unfold owlRecord
  split
  · rw [owlPut]
    rw [owlPump_slots]
    split <;> simp [bump]
  · rfl

/-! ### One post -/

/-- A post to a slot that waits for it puts the final status there, and leaves the other slots. -/
theorem post_slots (hr : tget s.slots (tkSlot tk) = r) (hheld : r.held = true) (hgen : r.gen = tkGen tk) (hwaits : r.final = none)
    (howned : r.orphan = false) :
    (post tk st res s).slots = tset s.slots (tkSlot tk) { r with final := some st, result := (res ++ List.replicate 6 0).take 6 } := by
  subst hr
  simp [post, hheld, hgen, hwaits, howned]

/-- A slot that has its final status takes no other. -/
theorem post_of_final (h : (tget s.slots (tkSlot tk)).final = some st) (st' : Nat) (res' : List Dword) : post tk st' res' s = s :=
  post_stale (by simp [h]) st' res'

end Posts

/-- Settles O56: a post writes its slot alone, which then waits for no other. -/
theorem resultPosts : Obligations.ResultPosts := by
  unfold Obligations.ResultPosts
  refine ⟨fun s tk st res r hr hheld hgen hwaits howned => ?held, fun s tk st res hstale => post_stale ?stale st res⟩
  case held =>
    have hslots := post_slots (st := st) (res := res) hr hheld hgen hwaits howned
    refine ⟨by rw [hslots, tget_tset_self], fun k _ hk => by rw [hslots, tget_tset_of_ne _ _ hk], (fun st' res' => post_of_final (st := st) ?_ st' res')⟩
    rw [hslots, tget_tset_self]
  case stale => rcases hstale with h | h <;> simp [h]

end Sys2Proof.Proofs
end

section
/-! PROOFS. Device memory (R200, R204, R437): what an access to memory leaves alone, from the packet's way to the store and back. -/

namespace Sys2Proof.Proofs

open Sys2Proof.Machine Sys2Proof.Safety Sys2Proof.Laws

/-- No injected memory error is armed or latent (R423, R451). -/
def Calm (s : State) : Prop := s.integ.inject = [] ∧ s.integ.latent = []

/-- From `s` to `t` memory keeps its canonical form, and of a calm state the bytes at the addresses of `P`, with the calm. -/
def Leaves (P : Nat → Prop) (s t : State) : Prop :=
  (Memory.wf s.mem → Memory.wf t.mem) ∧ (Calm s → Calm t ∧ ∀ b, P b → memByte t b = memByte s b)

section Accesses

variable {P : Nat → Prop} {s t u : State} {k : NocPkt}

theorem Leaves.refl : Leaves P s s := ⟨id, fun h => ⟨h, fun _ _ => rfl⟩⟩

theorem Leaves.trans (h : Leaves P s t) (h' : Leaves P t u) : Leaves P s u := by
  refine ⟨h'.1 ∘ h.1, fun hcalm => ?_⟩
  obtain ⟨hcalm, hbytes⟩ := h.2 hcalm
  obtain ⟨hcalm, hbytes'⟩ := h'.2 hcalm
  exact ⟨hcalm, fun b hb => (hbytes' b hb).trans (hbytes b hb)⟩

theorem Leaves.foldl {α : Type} {g : State → α → State} (h : ∀ t a, Leaves P t (g t a)) (l : List α) (s : State) :
    Leaves P s (l.foldl g s) := by
  induction l generalizing s with
  | nil => exact .refl
  | cons a r ih => exact (h s a).trans (ih (g s a))

/-- What touches neither memory nor the injected errors leaves everything. -/
theorem Leaves.of_same (hmem : t.mem = s.mem) (hinject : t.integ.inject = s.integ.inject) (hlatent : t.integ.latent = s.integ.latent) :
    Leaves P s t := by
  refine ⟨by rw [hmem]; exact id, fun hcalm => ⟨⟨hinject.trans hcalm.1, hlatent.trans hcalm.2⟩, fun b _ => ?_⟩⟩
  rw [memByte, memByte, hmem]

/-- What leaves everything does so too after such a change. -/
theorem Leaves.after (h : Leaves P t u) (hmem : t.mem = s.mem) (hinteg : t.integ = s.integ) : Leaves P s u :=
  .trans (.of_same hmem (by rw [hinteg]) (by rw [hinteg])) h

/-- Bytes put from `a` on leave the addresses outside. -/
theorem Leaves.of_put {a : Nat} {data : List Byte} (hmem : t.mem = putBytes s.mem a data) (hinteg : t.integ = s.integ)
    (hout : ∀ b, P b → b < a ∨ a + data.length ≤ b) : Leaves P s t := by
  refine ⟨by rw [hmem]; exact putBytes_wf _ _ _, fun hcalm => ⟨by rwa [Calm, hinteg], fun b hb => ?_⟩⟩
  rw [memByte, memByte, hmem]
  exact tget_putBytes_outside _ _ _ _ (hout b hb)

/-- What only an armed or latent error brings about keeps the form, and does not happen in a calm state. -/
theorem Leaves.of_calm (hwf : Memory.wf s.mem → Memory.wf t.mem) (hcalm : Calm s → t = s) : Leaves P s t :=
  ⟨hwf, fun h => by rw [hcalm h]; exact ⟨h, fun _ _ => rfl⟩⟩

/-! ### Counting, records and probes -/

theorem bumpBy_leaves (cid inst n : Nat) (s : State) : Leaves P s (bumpBy cid inst n s) := by
  rw [bumpBy_frame]
  exact .of_same rfl rfl rfl

theorem bump_leaves (cid inst : Nat) (s : State) : Leaves P s (bump cid inst s) := bumpBy_leaves cid inst 1 s

theorem judge_leaves (r : LRec) (injected : Bool) (s : State) : Leaves P s (judge r injected s) := by
  unfold judge
  dsimp only
  refine .trans ?_ (t := ite _ _ _) (.of_same rfl rfl rfl)
  repeat' split
  · exact bump_leaves ..
  · exact bump_leaves ..
  · exact .refl

theorem injectNoc_leaves (k : NocPkt) (s : State) : Leaves P s (injectNoc k s).2 := by
  have hform := injectNoc_frame k s
  refine .of_calm (by rw [hform]; exact id) fun hcalm => ?_
  have harmed : ∀ unit kind, armed s unit kind = false := fun unit kind => by rw [armed, hcalm.1]; rfl
  simp [injectNoc, harmed]

theorem sendPkt_leaves (k : NocPkt) (s : State) : Leaves P s (sendPkt k s) :=
  (injectNoc_leaves (plainPkt k) s).trans (.of_same rfl rfl rfl)

theorem sendReq_leaves (k : NocPkt) (why : Purpose) (s : State) : Leaves P s (sendReq k why s) := by
  unfold sendReq
  split
  · exact .of_same rfl rfl rfl
  · exact (sendPkt_leaves ..).after rfl rfl

theorem owlPump_leaves (n : Nat) (s : State) : Leaves P s (owlPump n s) := by
  induction n generalizing s with
  | zero => exact .refl
  | succ n ih =>
    unfold owlPump
    dsimp only
    generalize (if s.owl.stopping then _ else _ : Nat) = m
    split
    · exact (Leaves.after (sendReq_leaves ..) (t := { s with owl := _ }) rfl rfl : Leaves P s (owlSend m s)).trans (ih (owlSend m s))
    · exact .refl

theorem owlPut_leaves (r : List Dword) (s : State) : Leaves P s (owlPut r s) := by
  have hpush : Leaves P s { s with owl := (s.owl.push s.timebase r).1 } := .of_same rfl rfl rfl
  unfold owlPut
  refine .trans ?_ (owlPump_leaves 17 _)
  split
  · exact hpush
  · exact hpush.trans (bump_leaves ..)

theorem owlRecord_leaves (r : List Dword) (s : State) : Leaves P s (owlRecord r s) := by
  unfold owlRecord
  split
  · exact owlPut_leaves r s
  · exact .refl

theorem fireThresholds_leaves (s : State) (cid inst old new : Nat) : Leaves P s (fireThresholds s cid inst old new) := by
  have hown : ∀ (u : State) (p : Nat) (qp : Option Nat), Leaves P u (raiseOwn u p qp) := fun u p qp => by
    cases qp <;> exact .of_same rfl rfl rfl
  unfold fireThresholds
  dsimp only
  refine .trans (.foldl (fun t p => ?_) _ _) (.foldl (fun t e => ?_) _ _)
  · split
    · exact hown ..
    · exact .refl
  · split
    · exact hown ..
    · exact .refl

theorem probeSees_leaves (k : NocPkt) (c : Crossing) (n : Nat) (s : State) : Leaves P s (probeSees k c n s) := by
  have hcount : ∀ m, Leaves P s (countProbe n m s) := fun m => (fireThresholds_leaves ..).after rfl rfl
  unfold probeSees
  dsimp only
  split
  · exact .refl
  · split
    · generalize (if (tget s.owl.probes n).mode = 1 then _ else _ : Nat) = m
      split
      · exact (hcount m).trans (owlRecord_leaves ..)
      · exact hcount m
    · exact .refl

theorem observePkt_leaves (k : NocPkt) (s : State) : Leaves P s (observePkt k s) := by
  unfold observePkt observeOn
  repeat' split
  · exact .refl
  · exact .refl
  · refine .foldl (fun t c => ?_) _ _
    unfold observeAt
    split
    · exact .refl
    · exact .foldl (fun u n => probeSees_leaves k c n u) _ _

/-! ### Packets that are carried at once -/

theorem parityRec_leaves (k : NocPkt) (r word : Nat) (injected : Bool) (s : State) : Leaves P s (parityRec k r word injected s) :=
  (judge_leaves ..).after rfl rfl

theorem carry_leaves (k : NocPkt) (s : State) : Leaves P s (carry k s).2 := by
  have hway := (injectNoc_leaves (P := P) (plainPkt k) s).trans (observePkt_leaves (plainPkt k) _)
  unfold carry
  dsimp only
  split
  · exact hway.trans ((parityRec_leaves ..).trans (bump_leaves ..))
  · exact hway.trans (.foldl (fun u i => (bump_leaves ..).trans (parityRec_leaves ..)) _ _)

theorem carry_leaves_of {o : Option NocPkt} (h : carry k s = (o, t)) : Leaves P s t := by
  have := carry_leaves (P := P) k s
  rwa [h] at this

theorem requestLost_leaves (via : Via) (k : NocPkt) (s : State) : Leaves P s (requestLost via k s) := by
  unfold requestLost
  split
  · exact bump_leaves ..
  · exact .refl

theorem turnedAway_leaves (via : Via) (part : Option Nat) (f : Fenced) (s : State) : Leaves P s (turnedAway via part f s) := by
  unfold turnedAway fenceRefuses
  dsimp only
  split
  · exact (carry_leaves_of ‹_›).trans (requestLost_leaves ..)
  · exact (carry_leaves_of ‹_›).trans ((bump_leaves ..).trans (carry_leaves ..))

/-! ### Words and their errors -/

theorem bump_mem (cid inst : Nat) (s : State) : (bump cid inst s).mem = s.mem := by rw [bump_frame]

theorem judge_mem (r : LRec) (injected : Bool) (s : State) : (judge r injected s).mem = s.mem := by
  unfold judge
  dsimp only
  rw [queueRec_mem]
  repeat' split
  · exact bump_mem ..
  · exact bump_mem ..
  · rfl

theorem hbmUncorr_mem (a : Nat) (injected : Bool) (s : State) : (hbmUncorr a injected s).mem = s.mem := by
  unfold hbmUncorr
  dsimp only
  rw [judge_mem, bump_mem, markSector_mem]

/-- An uncorrectable word of SRAM reads as zeros from then on (R421). -/
theorem sramUncorr_mem (a : Nat) (passed injected : Bool) (s : State) :
    (sramUncorr a passed injected s).mem = putBytes s.mem (a / 16 * 16) (List.replicate 16 0) := by
  unfold sramUncorr
  dsimp only
  rw [judge_mem, markSector_mem, bump_mem]

theorem corrected_mem (cid unit limit : Nat) (injected : Bool) (s : State) : (corrected cid unit limit injected s).mem = s.mem := by
  unfold corrected
  dsimp only
  repeat' split
  all_goals simp [judge_mem, bump_mem]

/-- A word's error keeps the form. -/
theorem eccAt_wf (a : Nat) (f : EccFinding) (injected : Bool) (s : State) (h : Memory.wf s.mem) :
    Memory.wf (eccAt a f injected s).mem := by
  unfold eccAt
  split
  · exact h
  · rwa [corrected_mem]
  · rwa [corrected_mem]
  · rwa [hbmUncorr_mem]
  · rw [sramUncorr_mem]
    exact putBytes_wf s.mem _ _ h

/-- A write covers or shows what is latent in its words. -/
theorem coverLatent_leaves (a n : Nat) (s : State) : Leaves P s (coverLatent a n s) := by
  refine .of_calm (fun h => ?_) fun hcalm => ?_
  · unfold coverLatent surface
    dsimp only
    generalize List.filter _ (latentIn s a n) = ls
    exact List.foldlRecOn (motive := fun u : State => Memory.wf u.mem) ls _ h fun t ht l _ => eccAt_wf _ _ _ _ ht
  · have hlatent := hcalm.2
    rw [coverLatent, latentIn, hlatent]
    exact congrArg (fun l => { s with integ := { s.integ with latent := l } }) hlatent.symm

theorem plantFaults_leaves (a n : Nat) (s : State) : Leaves P s (plantFaults a n s) := by
  refine .of_calm (fun h => ?_) fun hcalm => by rw [plantFaults, hcalm.1]; rfl
  unfold plantFaults
  split
  · exact h
  · refine List.foldlRecOn (motive := fun u : State => Memory.wf u.mem) _ _ h fun t ht r _ => ?_
    refine List.foldlRecOn (motive := fun u : State => Memory.wf u.mem) _ _ ht fun u hu kind _ => ?_
    split
    · exact hu
    · exact hu

/-! ### Writes -/

/-- A write of data to `[a, a + n)` and its copy one page on touch no address that is outside both. -/
def Outside (a n b : Nat) : Prop := (b < a ∨ a + n ≤ b) ∧ (b < a + pageSize ∨ a + pageSize + n ≤ b)

theorem mirrorStore_leaves {a n : Nat} (hout : ∀ b, P b → Outside a n b) (s : State) : Leaves P s (mirrorStore a n s) := by
  unfold mirrorStore
  repeat' split
  · exact .of_put rfl rfl fun b hb => by rw [memBytes_length]; exact (hout b hb).2
  · exact .refl
  · exact .refl

theorem markPage_leaves (a : Nat) (s : State) : Leaves P s (markPage a s) := by
  unfold markPage
  split <;> exact .of_same rfl rfl rfl

/-- A write of SYS traffic to a piece leaves what is outside the piece and its copy. -/
theorem writePiece_leaves {p : Piece} {data : List Byte} (bad : List Nat) (hlen : data.length ≤ p.len)
    (hout : ∀ b, P b → Outside p.dev p.len b) (s : State) : Leaves P s (writePiece none p data bad s) := by
  have hput : ∀ b, P b → b < p.dev ∨ p.dev + data.length ≤ b := fun b hb => by
    have := (hout b hb).1
    omega
  unfold writePiece
  split
  · have hcover := coverLatent_leaves (P := P) p.dev p.len s
    refine .trans (.trans ?_ (plantFaults_leaves ..)) (mirrorStore_leaves hout _)
    split
    · exact hcover.trans (.of_put rfl rfl hput)
    · exact hcover.trans (.of_put rfl rfl hput)
  · dsimp only
    split
    · exact (markPage_leaves ..).after rfl rfl
    · split
      · exact .of_same rfl rfl rfl
      · exact .of_same rfl rfl rfl

theorem writeRun_leaves {p : Piece} {data : List Byte} (via : Via) (bad : List Nat) (hlen : data.length ≤ p.len)
    (hout : ∀ b, P b → Outside p.dev p.len b) (s : State) : Leaves P s (writeRun via none p data bad s).2 := by
  unfold writeRun
  dsimp only
  split
  · refine (carry_leaves_of ‹_›).trans (.trans ?_ (requestLost_leaves ..))
    split
    · exact .refl
    · exact markPage_leaves ..
  · generalize (toGranules _).filter _ = struck
    have hsent := (carry_leaves_of (P := P) ‹_›).trans (writePiece_leaves (bad ++ struck) hlen hout _)
    split
    · exact hsent.trans ((carry_leaves_of ‹_›).trans (requestLost_leaves ..))
    · exact hsent.trans (carry_leaves_of ‹_›)

theorem writeRuns_leaves (via : Via) (ps : List Piece) (data : List Byte) (bad : List Nat)
    (hout : ∀ p ∈ ps, ∀ b, P b → Outside p.dev p.len b) (s : State) : Leaves P s (writeRuns via none ps data bad s).2 := by
  induction ps generalizing data bad s with
  | nil => exact .refl
  | cons p r ih =>
    obtain ⟨hp, hr⟩ := List.forall_mem_cons.1 hout
    exact (writeRun_leaves via _ (List.length_take_le ..) hp s).trans (ih _ _ hr _)

/-! ### The pieces of a range -/

/-- The runs of a range lie in it. -/
theorem runsOf_within {boundary fuel a n : Nat} {r : Nat × Nat} (h : r ∈ runsOf boundary fuel a n) : a ≤ r.1 ∧ r.1 + r.2 ≤ a + n := by
  induction fuel generalizing a n with
  | zero => cases h
  | succ fuel ih =>
    rw [runsOf] at h
    split at h
    · cases h
    · obtain rfl | h := List.mem_cons.1 h
      · dsimp only
        omega
      · have := ih h
        omega

theorem cutPieces_within {a n : Nat} {p : Piece} (h : p ∈ cutPieces (devPieces a n)) : a ≤ p.dev ∧ p.dev + p.len ≤ a + n := by
  simp only [cutPieces, devPieces, cutRuns, List.mem_flatMap, List.mem_map] at h
  obtain ⟨q, ⟨r, hr, rfl⟩, c, ⟨q, hq, hc⟩, rfl⟩ := h
  obtain rfl := List.mem_singleton.1 hq
  have houter := runsOf_within hr
  have hinner := runsOf_within hc
  dsimp only at hinner ⊢
  omega

theorem sysWrite_leaves (via : Via) (a : Nat) (data : List Byte) (s : State) :
    Leaves (Outside a data.length) s (sysWrite via a data s).s := by
  unfold sysWrite writePieces
  split
  · exact .refl
  · split
    · exact turnedAway_leaves ..
    · refine writeRuns_leaves via _ data [] (fun p hp b hb => ?_) s
      obtain ⟨hlow, hhigh⟩ := cutPieces_within hp
      obtain ⟨hrange, hcopy⟩ := hb
      exact ⟨by omega, by omega⟩

end Accesses

/-- Settles O57: a put by its bytes, a clearing by the filter of its addresses, and a SYS write by what each part of it leaves alone. -/
theorem memoryReadBack : Obligations.MemoryReadBack := by
  unfold Obligations.MemoryReadBack
  refine ⟨fun s a data hwf => ⟨memPut_wf a data s hwf, ?back, fun b hb => tget_putBytes_outside _ _ _ _ hb⟩,
    fun s a n hwf => ⟨memZero_wf a n s hwf, fun b => ?clear⟩,
    fun s via a data hwf => ⟨(sysWrite_leaves via a data s).1 hwf, fun b hinject hlatent hrange hcopy =>
      ((sysWrite_leaves via a data s).2 ⟨hinject, hlatent⟩).2 b ⟨hrange, hcopy⟩⟩⟩
  case back =>
    refine List.ext_getElem (memBytes_length ..) fun i hi hi' => ?_
    rw [memBytes_getElem]
    exact tget_putBytes_inside _ _ _ _ hi'
  case clear =>
    have hread := tget_tfilter (α := Byte) (fun k => decide (k < a) || decide (a + n ≤ k)) s.mem ((twf_iff _).1 hwf).1 b
    refine hread.trans ?_
    simp only [Bool.or_eq_true, decide_eq_true_eq]
    by_cases hin : a ≤ b ∧ b < a + n
    · rw [if_neg (by omega), if_pos hin]
      rfl
    · rw [if_pos (by omega), if_neg hin]
      rfl

end Sys2Proof.Proofs
end

section
/-! PROOFS. Rows of the command protocol (chapter 10), said once for each kind of row: what a served command comes to is the action of its
row. -/

namespace Sys2Proof.Proofs

open Sys2Proof.Machine Sys2Proof.Safety Sys2Proof.Laws

section Rows

variable {op k : Nat} {mk : Nat → Packet → Instr} {chk : State → Cmd → Verdict} {act : Cmd → State → State}

/-- A row that ends with ST_OK. -/
theorem actsAtOnce_of_exec {eff : Cmd → State → State}
    (hexec : ∀ c p s, exec (mk c p) s = .next (serve op c p chk (actDo eff) s)) : ActsAtOnce op mk chk eff := by
  intro s c p x hserved
  rw [hexec, serve_acts hserved, actDo]

/-- A row that ends with a reply of its own. -/
theorem repliesWith_of_exec {app : Cmd → State → Reply × State}
    (hexec : ∀ c p s, exec (mk c p) s = .next (serve op c p chk (actFw app) s)) : RepliesWith op mk chk app := by
  intro s c p x hserved
  rw [hexec, serve_acts hserved, actFw]

/-- One whose reply and effect are said in other words for the commands that pass its check. -/
theorem repliesWith_of_pass {app app' : Cmd → State → Reply × State}
    (hexec : ∀ c p s, exec (mk c p) s = .next (serve op c p chk (actFw app) s))
    (happ : ∀ x t, (chk t x).status = 0 → app x t = app' x t) : RepliesWith op mk chk app' := by
  intro s c p x hserved
  rw [repliesWith_of_exec hexec s c p x hserved, happ x _ (served_iff.mp hserved).2.1]

/-- A row that only reports. -/
theorem reports_of_exec {rep : State → Cmd → List Dword}
    (hexec : ∀ c p s, exec (mk c p) s = .next (serve op c p chk (actRead rep) s)) : Reports op mk chk rep := by
  intro s c p x hserved
  rw [hexec, serve_acts hserved, actRead]

/-- A row that does nothing but start pending work. -/
theorem startsWork_of_exec {start : Cmd → Nat → State → State}
    (hexec : ∀ c p s, exec (mk c p) s = .next (serve op c p chk (fun x t => pend x (start x) t) s)) : StartsWork op mk chk start :=
  (takesSlot_of_exec hexec).1

/-- A row with an action of its own, of which the statement names a case. -/
theorem acts_of_exec {pre : State → Cmd → Bool} {case : Cmd → State → State}
    (hexec : ∀ c p s, exec (mk c p) s = .next (serve op c p chk act s)) (hact : ∀ x t, pre t x = true → act x t = case x t) :
    Acts op mk chk pre case := by
  intro s c p x hserved hpre
  rw [hexec, serve_acts hserved, hact x _ hpre]

/-- A row that the hardware answers. -/
theorem hardwareAnswers_of_exec {rep : State → Cmd → List Dword} (hexec : ∀ c p s, exec (mk c p) s = .next (answer op c p rep s)) :
    HardwareAnswers op mk rep := by
  intro s c p x hready
  rw [hexec, answer, hready]

/-! ### One served command -/

section Served

variable {i : Instr} {c : Nat} {p : Packet} {x : Cmd} {s t u : State} {work : Nat → State → State}

/-- A served command ends in the state that its action makes. -/
theorem exec_of_act (hexec : exec i s = .next (serve op c p chk act s)) (hserved : served s op c p x chk = true)
    (hact : act x (turned c s) = t) : exec i s = .next t := by
  rw [hexec, serve_acts hserved, hact]

/-- One whose action comes to pending work takes a slot, replies with its ticket, and the work begins. -/
theorem exec_pends_of_act (hexec : exec i s = .next (serve op c p chk act s)) (hserved : served s op c p x chk = true)
    (hact : act x (turned c s) = pend x work t) (hfree : slotFree t x.port = true) :
    let q := takeSlot x (!partScope x) t
    exec i s = .next (work q.1 (finish x { status := stPending, result := [dw q.1] } q.2)) := by
  rw [exec_of_act hexec hserved hact, pend_work hfree]

end Served

/-! ### Output fields (R352) -/

variable {out : State → Cmd → List Byte} {rep : State → Cmd → List Dword} {x : Cmd} {s : State}

theorem actOut_written (hfits : xferStatus x k (out s x).length = 0) (hready : outReady s x = true) :
    actOut k out rep x s = finish x { result := rep s x } (outWrite x k (out s x) s) := by
  simp [actOut, hfits, hready]

theorem actOut_unfit (hunfit : xferStatus x k (out s x).length ≠ 0) :
    actOut k out rep x s = finish x { status := xferStatus x k (out s x).length } s := by
  simp [actOut, hunfit]

theorem actOut_unready (hfits : xferStatus x k (out s x).length = 0) (hready : outReady s x = false) :
    actOut k out rep x s = finish x { status := stHostFault } s := by
  simp [actOut, hfits, hready]

/-- A row that writes its output. -/
theorem outputs_of_exec (hexec : ∀ c p s, exec (mk c p) s = .next (serve op c p chk (actOut k out rep) s)) :
    Outputs k op mk chk out rep := by
  intro s c p x hserved
  rw [hexec, serve_acts hserved]
  exact ⟨fun hfits hready => by rw [actOut_written hfits hready], fun hunfit => by rw [actOut_unfit hunfit],
    fun hfits hready => by rw [actOut_unready hfits hready]⟩

end Rows

/-! ### Steps, system and counter commands -/

/-- Settles O1: the step is `exec` of the front, or the tick. -/
theorem stepRunsFront : Obligations.StepRunsFront := by
  unfold Obligations.StepRunsFront
  refine ⟨fun c rest s => rfl, fun s hempty => ?idle⟩
  case idle =>
    simp only [step, hempty, tick, Aclk.advance]

theorem length_instances (inst n : Nat) : (instances inst n).length = n := by simp [instances]

/-- READ_COUNTERS of six values at the most answers them in line. -/
theorem readCountersAct_inline {x : Cmd} {s : State} (h : x.fld 4 23 16 + 1 ≤ 6) :
    readCountersAct x s = actRead readCountersValues x s := if_pos h

/-- SET_THRESHOLD's attention depends on one condition. -/
theorem setThresholdApply_eq (x : Cmd) (s : State) :
    setThresholdApply x s = (
      let t : Threshold :=
        if bit (x.par 4) 8 then { en := true, cid := x.fld 5 15 0, inst := x.fld 5 31 16, value := (x.par 6).toNat } else {}
      let v := viewOf s x.carrier
      let s1 := setView x.carrier { v with thr := tset v.thr (x.fld 4 4 0) t } s
      if bit (x.par 4) 8 = true ∧ t.value ≤ counter s t.cid t.inst then raiseView x.carrier s1 else s1) := by
  simp [setThresholdApply]

/-- Settles O2: row by row. -/
theorem bringupCommands : Obligations.BringupCommands := by
  unfold Obligations.BringupCommands
  refine ⟨?nop, ?identify, ?getStatus, ?getBringup, ?clearAttn, ?setThreshold, ?inline, ?byAddress, ?clearCounters⟩
  case nop | clearCounters => exact actsAtOnce_of_exec fun _ _ _ => rfl
  case identify | getStatus | getBringup => exact hardwareAnswers_of_exec fun _ _ _ => rfl
  case clearAttn => exact repliesWith_of_exec fun _ _ _ => rfl
  case setThreshold =>
    simp only [← setThresholdApply_eq]
    exact actsAtOnce_of_exec fun _ _ _ => rfl
  case inline => exact acts_of_exec (fun _ _ _ => rfl) fun x t h => readCountersAct_inline (of_decide_eq_true h)
  case byAddress =>
    refine acts_of_exec (fun _ _ _ => rfl) fun x t h => ?_
    simp only [Bool.and_eq_true, decide_eq_true_eq, beq_iff_eq] at h
    obtain ⟨⟨hmany, hfits⟩, hready⟩ := h
    refine (if_neg (Nat.not_le_of_lt hmany)).trans (actOut_written ?_ hready)
    rwa [length_dwBytes, readCountersValues, List.length_map, length_instances]

/-- Settles O3: row by row. -/
theorem partitionCommands : Obligations.PartitionCommands := by
  unfold Obligations.PartitionCommands
  refine ⟨?partCreate, ?partDestroy, ?partReset, ?partBindPort, ?partTiles, ?partRead, ?qpCreate, ?qpDelete, ?privGrant⟩
  case partDestroy | partReset => exact startsWork_of_exec fun _ _ _ => rfl
  case partRead => exact outputs_of_exec fun _ _ _ => rfl
  all_goals exact actsAtOnce_of_exec fun _ _ _ => rfl

/-- LOCK_ACQUIRE's check by who holds the lock. -/
theorem lockAcquireCheck_eq : lockAcquireCheck = fun s x => firstOf [(heldByOther s x, stLockHeld)] := by
  funext s x
  rw [lockAcquireCheck, heldByOther]
  cases tget s.locks x.lockNo with
  | free | held | broken => rfl

theorem lockReleaseCheck_eq : lockReleaseCheck = fun s x => firstOf [
    (decide (tget s.locks x.lockNo ≠ .held x.carrier), stLockNotHeld), (decide ((tget s.seqs x.carrier).lock = some x.lockNo), stStateBusy)] := by
  funext s x
  simp [lockReleaseCheck, holds, seqOpenOn]

theorem seqBeginCheck_eq : seqBeginCheck = fun s x => firstOf [
    (decide (tget s.locks x.lockNo ≠ .held x.carrier), stLockNotHeld), ((tget s.seqs x.carrier).lock.isSome, stStateBusy)] := by
  funext s x
  simp [seqBeginCheck, holds]

theorem seqAbortCheck_eq :
    seqAbortCheck = fun s x => firstOf [(decide ((tget s.seqs x.carrier).lock ≠ some x.lockNo), stSequenceNotOpen)] := by
  funext s x
  simp [seqAbortCheck, seqOpenOn]

theorem seqCommitCheck_eq :
    seqCommitCheck = fun s x => firstOf [(decide ((tget s.seqs x.carrier).lock ≠ some x.lockNo), stSequenceNotOpen)] := by
  funext s x
  simp [seqCommitCheck, seqOpenOn]

/-- A LOCK_ACQUIRE whose check passes finds no other holder. -/
theorem heldByOther_of_pass {s : State} {x : Cmd} (h : (lockAcquireCheck s x).status = 0) : heldByOther s x = false := by
  rw [lockAcquireCheck_eq] at h
  exact ((firstOf_passes_cons (by decide)).mp h).1

/-- What a LOCK_ACQUIRE that passes leaves and replies: the lock is its caller's. -/
theorem lockAcquireApply_eq {s : State} {x : Cmd} (h : heldByOther s x = false) :
    lockAcquireApply x s = ({ status := if tget s.locks x.lockNo = .broken then stOkWasBroken else stOk },
      if tget s.locks x.lockNo = .held x.carrier then s else { s with locks := tset s.locks x.lockNo (.held x.carrier) }) := by
  unfold heldByOther at h
  unfold lockAcquireApply
  split at h
  · rename_i o hheld
    simp only [bne_eq_false_iff_eq] at h
    simp [hheld, h, stOk]
  · split
    · simp_all
    · simp_all [stOk]
    · simp_all

/-- Settles O4: row by row. -/
theorem lockCommands : Obligations.LockCommands := by
  unfold Obligations.LockCommands
  rw [← lockAcquireCheck_eq, ← lockReleaseCheck_eq, ← seqBeginCheck_eq, ← seqAbortCheck_eq]
  refine ⟨?lockAcquire, ?lockRelease, ?seqBegin, ?seqCommit, ?seqAbort, ?lockRead⟩
  case lockAcquire =>
    exact repliesWith_of_pass (fun _ _ _ => rfl) fun x t hpass => lockAcquireApply_eq (heldByOther_of_pass hpass)
  case seqCommit =>
    rw [seqAbortCheck_eq, ← seqCommitCheck_eq]
    exact repliesWith_of_exec fun _ _ _ => rfl
  case lockRead => exact reports_of_exec fun _ _ _ => rfl
  case lockRelease | seqBegin | seqAbort => exact actsAtOnce_of_exec fun _ _ _ => rfl

/-! ### Buffer pools -/

section Pools

variable {s : State} {x : Cmd} {k : Pool} {b : Buf} {bufs : Tab Buf} {lo n i o : Nat} {own : BufOwner}

/-- The lowest FREE buffer is the first that is not allocated. -/
theorem firstFree_of_lowest (hlo : lo ≤ i) (hi : i < lo + n) (hbelow : ∀ j, lo ≤ j → j < i → (tget bufs j).allocated = true)
    (hfree : (tget bufs i).allocated = false) : firstFree bufs lo n = some i := by
  induction n generalizing lo with
  | zero => omega
  | succ n ih =>
    rw [firstFree]
    rcases Nat.eq_or_lt_of_le hlo with rfl | hlt
    · simp [hfree]
    · rw [if_pos (hbelow lo (Nat.le_refl _) hlt)]
      exact ih hlt (by omega) fun j hj => hbelow j (by omega)

/-- There is none where all are allocated. -/
theorem firstFree_of_full (hall : ∀ j, lo ≤ j → j < lo + n → (tget bufs j).allocated = true) : firstFree bufs lo n = none := by
  induction n generalizing lo with
  | zero => rfl
  | succ n ih =>
    rw [firstFree, if_pos (hall lo (Nat.le_refl _) (by omega))]
    exact ih fun j hj hlt => hall j (by omega) (by omega)

theorem allocBuf_primary {m : Nat} (hpool : tget s.pools m = k) (hfirst : firstFree k.bufs 0 k.pcount = some i) :
    allocBuf m own s = some (i, { s with pools := tset s.pools m (k.take i own) }) := by
  simp [allocBuf, hpool, hfirst]

theorem allocBuf_spill {m : Nat} (hpool : tget s.pools m = k) (howner : k.owner = some o) (hfull : firstFree k.bufs 0 k.pcount = none)
    (hfirst : firstFree k.bufs k.pcount k.scount = some i) :
    allocBuf m own s = some (i, raise attnSpill (.parts [o]) (bump cntPoolSpill o { s with pools := tset s.pools m (k.take i own) })) := by
  simp [allocBuf, hpool, hfull, hfirst, howner, raiseSpill]

theorem allocBuf_none {m : Nat} (hpool : tget s.pools m = k) (hfull : firstFree k.bufs 0 k.pcount = none)
    (hnone : firstFree k.bufs k.pcount k.scount = none) : allocBuf m own s = none := by
  simp [allocBuf, hpool, hfull, hnone]

@[simp] theorem bumpBy_pools (cid inst n : Nat) (s : State) : (bumpBy cid inst n s).pools = s.pools := by rw [bumpBy_frame]

@[simp] theorem raise_pools (b : Nat) (sc : Scope) (s : State) : (raise b sc s).pools = s.pools := by
  obtain ⟨ports, qps, h⟩ := raise_form b sc s
  rw [h]

/-- The reply to BUF_ALLOC names the buffer that was allocated, with its new generation. -/
theorem bufAllocApply_of_some {t : State} (halloc : allocBuf x.poolNo (.ident x.carrier) s = some (i, t))
    (hpool : tget t.pools x.poolNo = k.take i (.ident x.carrier)) (hbuf : tget k.bufs i = b) :
    bufAllocApply x s = ({ result :=
      [dw (i + 2 ^ 20 * ((b.gen + 1) % 4096)), dw (k.addr i), dw (k.addr i / 2 ^ 32)] }, t) := by
  simp [bufAllocApply, halloc, hpool, Pool.take, mkHandle, hbuf, Pool.addr]

/-- A pool with a buffer allocated has that buffer's entry changed. -/
theorem take_eq (hbuf : tget k.bufs i = b) :
    k.take i own = { k with bufs := tset k.bufs i { allocated := true, gen := (b.gen + 1) % 4096, owner := own } } := by
  simp [Pool.take, tmod, hbuf]

/-- A BUF_ALLOC whose check passes is of the pool's own partition. -/
theorem owner_of_bufAllocCheck (h : (bufAllocCheck s x).status = 0) : (tget s.pools x.poolNo).owner = some x.part := by
  obtain ⟨-, h⟩ := (firstOf_passes_cons (by decide)).mp h
  simpa using ((firstOf_passes_cons (by decide)).mp h).1

end Pools

/-- Settles O5. -/
theorem poolCommands : Obligations.PoolCommands := by
  unfold Obligations.PoolCommands
  refine ⟨?create, ?destroy, fun s c p x k i b hserved hpool hi hbelow hbuf hfree => ?primary,
    fun s c p x k i b hserved hpool hi hbelow hbuf hfree => ?spill, fun s c p x k hreached hpool howner hall => ?empty, ?free,
    fun s c p x k o hserved hpool howner => ?read, fun s c p x hserved hnone => ?readNone⟩
  case create | destroy | free => exact actsAtOnce_of_exec fun _ _ _ => rfl
  case primary =>
    have hfirst : firstFree k.bufs 0 k.pcount = some i :=
      firstFree_of_lowest (Nat.zero_le i) (by omega) (fun j _ => hbelow j) (by rw [hbuf, hfree])
    have halloc := allocBuf_primary (s := turned c s) (own := .ident x.carrier) hpool hfirst
    have happly := bufAllocApply_of_some halloc (by simp) hbuf
    rw [Pool.addr, if_pos hi, take_eq hbuf] at happly
    rw [repliesWith_of_exec (app := bufAllocApply) (fun _ _ _ => rfl) s c p x hserved, happly]
    rfl
  case spill =>
    have hfull : firstFree k.bufs 0 k.pcount = none := firstFree_of_full fun j _ hj => hbelow j (by omega)
    have hfirst : firstFree k.bufs k.pcount k.scount = some (k.pcount + i) :=
      firstFree_of_lowest (by omega) (by omega) (fun j _ => hbelow j) (by rw [hbuf, hfree])
    have howner : k.owner = some x.part :=
      hpool ▸ owner_of_bufAllocCheck (s := turned c s) (served_iff.mp hserved).2.1
    have halloc := allocBuf_spill (s := turned c s) (own := .ident x.carrier) hpool howner hfull hfirst
    have happly := bufAllocApply_of_some halloc (by simp [bump]) hbuf
    rw [Pool.addr, if_neg (by omega), Nat.add_sub_cancel_left, take_eq hbuf] at happly
    rw [repliesWith_of_exec (app := bufAllocApply) (fun _ _ _ => rfl) s c p x hserved, happly]
    rfl
  case empty =>
    have hnone : allocBuf x.poolNo (.ident x.carrier) (turned c s) = none :=
      allocBuf_none hpool (firstFree_of_full fun j _ hj => hall j (by omega)) (firstFree_of_full fun j _ hj => hall j (by omega))
    refine exec_finish_of_no rfl hreached ?_ (by decide)
    simp [bufAllocCheck, firstOf, hpool, howner, hnone, no]
  case read =>
    rw [reports_of_exec (rep := poolReadResult) (fun _ _ _ => rfl) s c p x hserved]
    simp [poolReadResult, hpool, howner, Pool.count]
  case readNone =>
    rw [reports_of_exec (rep := poolReadResult) (fun _ _ _ => rfl) s c p x hserved]
    simp [poolReadResult, hnone]

end Sys2Proof.Proofs
end

section
/-! PROOFS. What a reply, a post and counting leave alone: everything but the protocol's own tables, counters, attention and the trace. -/

namespace Sys2Proof.Proofs

open Sys2Proof.Machine Sys2Proof.Safety Sys2Proof.Laws

/-- A state without what counting, attention, the trace, and the end of a command may change. -/
def apart (s : State) : State :=
  { s with
    freeCtr := 0, cnt := [], ports := [], qps := [], mbx := [], cmds := [], hostOut := [], slots := [], locks := [], seqs := []
    pools := [], flights := [], reqs := [], netq := [], integ := {}, owl := {} }

section Apart

variable {s : State}

@[simp] theorem bumpBy_apart (cid inst n : Nat) (s : State) : apart (bumpBy cid inst n s) = apart s := by rw [bumpBy_frame]; rfl

@[simp] theorem bump_apart (cid inst : Nat) (s : State) : apart (bump cid inst s) = apart s := bumpBy_apart cid inst 1 s

@[simp] theorem raise_apart (b : Nat) (sc : Scope) (s : State) : apart (raise b sc s) = apart s := by
  obtain ⟨ports, qps, h⟩ := raise_form b sc s
  rw [h]
  rfl

@[simp] theorem sendPkt_apart (k : NocPkt) (s : State) : apart (sendPkt k s) = apart s := by rw [sendPkt_frame]; rfl

@[simp] theorem sendReq_apart (k : NocPkt) (why : Purpose) (s : State) : apart (sendReq k why s) = apart s := by
  unfold sendReq
  split
  · rfl
  · exact sendPkt_apart ..

@[simp] theorem owlSend_apart (n : Nat) (s : State) : apart (owlSend n s) = apart s := sendReq_apart ..

@[simp] theorem owlPump_apart (n : Nat) (s : State) : apart (owlPump n s) = apart s := by
  induction n generalizing s with
  | zero => rfl
  | succ n ih =>
    unfold owlPump
    generalize (if s.owl.stopping then _ else _ : Nat) = m
    dsimp only
    split
    · rw [ih, owlSend_apart]
    · rfl

@[simp] theorem owlPut_apart (r : List Dword) (s : State) : apart (owlPut r s) = apart s := by
  unfold owlPut
  rw [owlPump_apart]
  split
  · rfl
  · exact bump_apart ..

@[simp] theorem owlRecord_apart (r : List Dword) (s : State) : apart (owlRecord r s) = apart s := by
  unfold owlRecord
  split
  · exact owlPut_apart ..
  · rfl

@[simp] theorem breakLock_apart (s : State) (n : Nat) : apart (breakLock s n) = apart s := by
  unfold breakLock
  dsimp only
  split
  · rw [raise_apart, bumpBy_apart, bump_apart]
    rfl
  · rfl

@[simp] theorem breakLocks_apart (own : Nat → Bool) (s : State) : apart (breakLocks own s) = apart s :=
  foldl_keeps breakLock_apart _ s

@[simp] theorem stopQp_apart (c cause : Nat) (s : State) : apart (stopQp c cause s) = apart s := by
  have horphan : ∀ t, apart (orphanBuffers (· == c) t) = apart t := fun _ => rfl
  unfold stopQp
  rw [horphan, breakLocks_apart, bump_apart]
  rfl

@[simp] theorem replyQp_apart (c tag : Nat) (r : Reply) (s : State) : apart (replyQp c tag r s) = apart s := by
  unfold replyQp
  dsimp only
  split
  · exact stopQp_apart ..
  · rfl

@[simp] theorem replyMbx_apart (p : Nat) (sent : List Byte) (tag : Nat) (r : Reply) (s : State) :
    apart (replyMbx p sent tag r s) = apart s := rfl

theorem apart_cmds (s : State) (cmds : List Cmd) : apart { s with cmds := cmds } = apart s := rfl

@[simp] theorem settleQp0_apart (c : Nat) (s : State) : apart (settleQp0 c s) = apart s := by
  unfold settleQp0 enableQp0
  dsimp only
  repeat' split
  · exact bump_apart ..
  all_goals rfl

@[simp] theorem finishQuiet_apart (x : Cmd) (r : Reply) (s : State) : apart (finishQuiet x r s) = apart s := by
  unfold finishQuiet
  simp only [settleQp0_apart, apply_ite apart, replyQp_apart, replyMbx_apart, apart_cmds, ite_self]

@[simp] theorem finish_apart (x : Cmd) (r : Reply) (s : State) : apart (finish x r s) = apart s := by
  unfold finish
  rw [finishQuiet_apart]
  split
  · rfl
  · exact owlRecord_apart ..

@[simp] theorem takeSlot_apart (x : Cmd) (device : Bool) (s : State) : apart (takeSlot x device s).2 = apart s := rfl

/-- Neither a reply nor the taking of a slot changes a partition. -/
@[simp] theorem finish_parts (x : Cmd) (r : Reply) (s : State) : (finish x r s).parts = s.parts := by
  have h := congrArg State.parts (finish_apart x r s)
  exact h

end Apart

end Sys2Proof.Proofs
end

section
/-! PROOFS. What the rows of chapter 10 do from group 0x04 on: memory, codecs and streams, programs, links, Kestrel, integrity, probes,
domains, and firmware. -/

namespace Sys2Proof.Proofs

open Sys2Proof.Machine Sys2Proof.Safety Sys2Proof.Laws

@[simp] theorem canMaster_turned (c fn : Nat) (s : State) : canMaster (turned c s) fn = canMaster s fn := rfl

section Cases

variable {x : Cmd} {s t : State} {g : Got}

/-! ### MEM_READ and MEM_WRITE -/

theorem memReadAct_read (hout : xferStatus x 7 (x.fld 6 12 0) = 0) (hg : g = sysRead viaProc (x.par64 4) (x.fld 6 12 0) s)
    (hok : g.reply.status = 0) :
    memReadAct x s = actOut 7 (fun _ _ => g.bytes) (fun _ _ => sectorDws (g.bad.map (· / 2)).eraseDups) x g.s := by
  subst hg
  simp [memReadAct, hout, hok]

theorem memReadAct_failed (hout : xferStatus x 7 (x.fld 6 12 0) = 0) (hg : g = sysRead viaProc (x.par64 4) (x.fld 6 12 0) s)
    (hfails : g.reply.status ≠ 0) : memReadAct x s = finish x g.reply g.s := by
  subst hg
  simp [memReadAct, hout, hfails]

end Cases

/-- Settles O6: row by row; MEM_READ by how its request ends, MEM_WRITE by where IN comes from. -/
theorem memoryCommands : Obligations.MemoryCommands := by
  unfold Obligations.MemoryCommands
  refine ⟨?map, ?unmap, ?read, ?hostSpill, ?peerSpill, ?contextBase, fun s c p x g hserved hout hg hok hfits hready => ?memRead,
    fun s c p x g hserved hout hg hfails => ?memReadFails, fun s c p x hserved hmbx => ?mbx, fun s c p x hserved hqp hmaster => ?host,
    fun s c p x hserved hqp hmaster => ?noMaster⟩
  case map | contextBase => exact startsWork_of_exec fun _ _ _ => rfl
  case read => exact outputs_of_exec fun _ _ _ => rfl
  case unmap | hostSpill => exact actsAtOnce_of_exec fun _ _ _ => rfl
  case peerSpill => exact actsAtOnce_of_exec fun _ _ _ => rfl
  case memRead => exact exec_of_act rfl hserved ((memReadAct_read hout hg hok).trans (actOut_written hfits hready))
  case memReadFails => exact exec_of_act rfl hserved (memReadAct_failed hout hg hfails)
  case mbx => exact exec_of_act rfl hserved (by rw [memWriteAct, hmbx]; rfl)
  case host => exact exec_of_act (act := memWriteAct) rfl hserved (by simp [memWriteAct, hqp, hmaster])
  case noMaster => exact exec_of_act (act := memWriteAct) rfl hserved (by simp [memWriteAct, hqp, hmaster])

section Flushes

variable {x : Cmd} {s t : State}

/-- STREAM_FLUSH of a context that is free forms the pending block at once. -/
theorem streamFlushAct_flushes (ht : t = readCtx x.stream stOk none (fillCtx x.stream s))
    (huse : (tget t.ctxs x.stream).useStatus x.part true = 0) (hfree : (tget t.ctxs x.stream).held = false)
    (hnone : hasWaiters t x.stream = false) :
    streamFlushAct x s = finish x { status := (flushCtx x.stream t).1.status, result := (flushCtx x.stream t).1.result }
      (flushCtx x.stream t).2 := by
  subst ht
  simp [streamFlushAct, huse, hfree, hnone]

/-- One that the stream may not use is refused with R108's status. -/
theorem streamFlushAct_refused (ht : t = readCtx x.stream stOk none (fillCtx x.stream s))
    (huse : (tget t.ctxs x.stream).useStatus x.part true ≠ 0) :
    streamFlushAct x s = finish x { status := (tget t.ctxs x.stream).useStatus x.part true }
      (if (tget t.ctxs x.stream).useStatus x.part true = stPoisonConsumed then ctxPoisoned x x.stream t else t) := by
  subst ht
  simp [streamFlushAct, huse]

/-- Whether a partition is ending does not depend on a reply or a slot. -/
theorem partEnding_finish_takeSlot (r : Reply) (device : Bool) (part : Nat) (t : State) :
    partEnding (finish x r (takeSlot x device t).2) part = partEnding t part := by
  rw [partEnding, partEnding, finish_parts]
  rfl

theorem streamReadAct_clean (ht : t = readCtx x.stream stOk none (fillCtx x.stream s)) (hclean : (tget t.ctxs x.stream).pfill = false) :
    streamReadAct x s = actOut 5 (fun u y => dwBytes (tget u.ctxs y.stream).dws) (fun _ _ => []) x t := by
  subst ht
  simp [streamReadAct, hclean]

theorem streamReadAct_poisoned (ht : t = readCtx x.stream stOk none (fillCtx x.stream s)) (hpoison : (tget t.ctxs x.stream).pfill = true)
    (hfits : xferStatus x 5 64 = 0) : streamReadAct x s = finish x { status := stPoisonConsumed } (ctxPoisoned x x.stream t) := by
  subst ht
  simp [streamReadAct, hpoison, hfits]

end Flushes

/-- Settles O7: row by row; the last six clauses by what the look at the context finds. -/
theorem codecCommands : Obligations.CodecCommands := by
  unfold Obligations.CodecCommands
  refine ⟨?submit, ?load, ?release, ?config, ?reset, fun s c p x t k hserved hfits ht hk hclean hready => ?read,
    fun s c p x t hserved hfits ht hpoison => ?readPoisoned, fun s c p x t hserved ht huse hfree hnone => ?flush,
    fun s c p x t hserved ht huse hheld hslot hgoing => ?queued, fun s c p x t hserved ht huse hheld hslot hending => ?ending,
    fun s c p x t hserved ht huse => ?refused⟩
  case submit => exact startsWork_of_exec fun _ _ _ => rfl
  case load => exact repliesWith_of_exec fun _ _ _ => rfl
  case release | config | reset => exact actsAtOnce_of_exec fun _ _ _ => rfl
  case read =>
    subst hk
    have hlength : (dwBytes (tget t.ctxs x.stream).dws).length = 64 := by
      simp [length_dwBytes, Ctx.dws, addrDws]
    exact exec_of_act rfl hserved ((streamReadAct_clean ht hclean).trans (actOut_written (by rwa [hlength]) hready))
  case readPoisoned => exact exec_of_act rfl hserved (streamReadAct_poisoned ht hpoison hfits)
  case flush => exact exec_of_act rfl hserved (streamFlushAct_flushes ht huse hfree hnone)
  case queued =>
    have hlater : partEnding (finish x { status := stPending, result := [dw (takeSlot x (!partScope x) t).1] }
        (takeSlot x (!partScope x) t).2) x.part = false := by rwa [partEnding_finish_takeSlot]
    refine (exec_pends_of_act (act := streamFlushAct) rfl hserved (streamFlushAct_pends ht huse hheld) hslot).trans ?_
    rw [hlater]
    rfl
  case ending =>
    have hlater : partEnding (finish x { status := stPending, result := [dw (takeSlot x (!partScope x) t).1] }
        (takeSlot x (!partScope x) t).2) x.part = true := by rwa [partEnding_finish_takeSlot]
    refine (exec_pends_of_act (act := streamFlushAct) rfl hserved (streamFlushAct_pends ht huse hheld) hslot).trans ?_
    rw [hlater]
    rfl
  case refused => exact exec_of_act rfl hserved (streamFlushAct_refused ht huse)

/-! ### Programs -/

section Results

variable {x : Cmd} {s : State} {r : RSlot} {st : Nat}

theorem getResultApply_of_final (hslot : slotNamed s x = some r) (hfinal : r.final = some st) :
    getResultApply x s = ({ status := st, result := r.result, reread := r.reread },
      { s with slots := tset s.slots (tkSlot x.ticket) { r with reread := true } }) := by
  simp [getResultApply, hslot, hfinal]

theorem getResultApply_of_waiting (hslot : slotNamed s x = some r) (hwaits : r.final = none) :
    getResultApply x s = ({ status := stPending }, s) := by
  simp [getResultApply, hslot, hwaits]

theorem ackResultApply_of_final (hslot : slotNamed s x = some r) (hfinal : r.final.isSome = true) :
    ackResultApply x s = ({}, { s with slots := tset s.slots (tkSlot x.ticket) { gen := (r.gen + 1) % 4096 } }) := by
  obtain ⟨st, hst⟩ := Option.isSome_iff_exists.mp hfinal
  simp [ackResultApply, hslot, hst, RSlot.release]

theorem ackResultApply_of_waiting (hslot : slotNamed s x = some r) (hwaits : r.final = none) :
    ackResultApply x s = ({ status := stPending }, s) := by
  simp [ackResultApply, hslot, hwaits]

end Results

/-- Settles O8: row by row. -/
theorem programCommands : Obligations.ProgramCommands := by
  unfold Obligations.ProgramCommands
  refine ⟨?load, fun s c p x hserved hslot hgoes => ?run, fun s c p x hserved hwaits => ?waits, ?abort, ?unload,
    fun s c p x r st hserved hslot hfinal => ?result, fun s c p x r hserved hslot hwaits => ?resultPending,
    fun s c p x r hserved hslot hfinal => ?ack, fun s c p x r hserved hslot hwaits => ?ackPending, ?report⟩
  case load => exact startsWork_of_exec fun _ _ _ => rfl
  case run => exact exec_pends_of_act rfl hserved (programRunAct_pends (by simpa using hgoes)) (by simpa using hslot)
  case waits => exact exec_of_act rfl hserved (if_pos (by simpa using hwaits))
  case abort | unload => exact actsAtOnce_of_exec fun _ _ _ => rfl
  case result =>
    exact (repliesWith_of_exec (fun _ _ _ => rfl) s c p x hserved).trans (by rw [getResultApply_of_final (s := turned c s) hslot hfinal]; rfl)
  case resultPending =>
    exact (repliesWith_of_exec (fun _ _ _ => rfl) s c p x hserved).trans (by rw [getResultApply_of_waiting (s := turned c s) hslot hwaits])
  case ack =>
    exact (repliesWith_of_exec (fun _ _ _ => rfl) s c p x hserved).trans (by rw [ackResultApply_of_final (s := turned c s) hslot hfinal]; rfl)
  case ackPending =>
    exact (repliesWith_of_exec (fun _ _ _ => rfl) s c p x hserved).trans (by rw [ackResultApply_of_waiting (s := turned c s) hslot hwaits])
  case report => exact outputs_of_exec fun _ _ _ => rfl

/-- Settles O9: row by row. -/
theorem linkCommands : Obligations.LinkCommands := by
  unfold Obligations.LinkCommands
  refine ⟨?config, ?train, ?down, ?status, ?recal, ?bind, ?channelRead, ?group, ?push, ?mcast, ?report⟩
  case train | recal | push | mcast => exact startsWork_of_exec fun _ _ _ => rfl
  case status | report => exact outputs_of_exec fun _ _ _ => rfl
  case channelRead => exact reports_of_exec fun _ _ _ => rfl
  case config | down => exact actsAtOnce_of_exec fun _ _ _ => rfl
  case bind => exact actsAtOnce_of_exec fun _ _ _ => rfl
  case group => exact actsAtOnce_of_exec fun _ _ _ => rfl

end Sys2Proof.Proofs
end

section
/-! PROOFS. What the rows of groups 0x08 to 0x0C do: Kestrel, integrity, probes and the trace, domains, firmware and debug. -/

namespace Sys2Proof.Proofs

open Sys2Proof.Machine Sys2Proof.Safety Sys2Proof.Laws

/-! ### Kestrel -/

theorem loopSetModeAct_same {x : Cmd} {s : State} (h : (tget s.loops (x.fld 4 2 0)).mode = modeOf (x.fld 4 6 4)) :
    loopSetModeAct x s = finish x {} s := if_pos h

theorem loopSetModeAct_other {x : Cmd} {s : State} (h : (tget s.loops (x.fld 4 2 0)).mode ≠ modeOf (x.fld 4 6 4)) :
    loopSetModeAct x s = { park x s with loops := tmod s.loops (x.fld 4 2 0) (fun l =>
      { l with pendMode := l.pendMode ++ [(modeOf (x.fld 4 6 4), x)] }) } := if_neg h

/-- Settles O10: row by row. -/
theorem kestrelCommands : Obligations.KestrelCommands := by
  unfold Obligations.KestrelCommands
  refine ⟨?read, fun s c p x hserved hsame => ?sameMode, fun s c p x hserved hother => ?otherMode, ?coef, ?setPoint, ?trace, ?inject,
    ?avs, ?board⟩
  case read | board => exact reports_of_exec fun _ _ _ => rfl
  case sameMode => exact exec_of_act rfl hserved (loopSetModeAct_same hsame)
  case otherMode => exact exec_of_act rfl hserved (loopSetModeAct_other hother)
  case coef | setPoint => exact actsAtOnce_of_exec fun _ _ _ => rfl
  case trace | inject => exact startsWork_of_exec fun _ _ _ => rfl
  case avs => exact acts_of_exec (act := avsAccessAct) (fun _ _ _ => rfl) fun _ _ _ => rfl

/-! ### Integrity -/

section Drains

variable {x : Cmd} {s : State} {k : Nat}

/-- DRAIN_DEADLINE's effect depends on one condition. -/
theorem drainDeadlineApply_eq (x : Cmd) (s : State) : drainDeadlineApply x s =
    (let t := { s with integ := { s.integ with deadline := (x.par 4).toNat } }
     if s.integ.dstate = .draining ∧ s.integ.drainOver = false ∧ (x.par 4).toNat = 0 then drainOver t else t) := rfl

theorem drainCancelApply_answers (h : s.integ.drainTk = some k) : drainCancelApply x s =
    post k stAborted [] { s with integ := { s.integ with dstate := .running, drainTk := none, drainOver := false } } := by
  simp [drainCancelApply, h, onInteg]

theorem drainCancelApply_alone (h : s.integ.drainTk = none) : drainCancelApply x s =
    { s with integ := { s.integ with dstate := .running, drainTk := none, drainOver := false } } := by
  simp [drainCancelApply, h, onInteg]

/-- A field that holds `n` bytes holds fewer. -/
theorem xferStatus_mono {j m n : Nat} (hle : m ≤ n) (hfits : xferStatus x j n = 0) : xferStatus x j m = 0 := by
  simp only [xferStatus] at hfits ⊢
  split at hfits
  · simp [*]
  · split at hfits
    · cases hfits
    · split at hfits
      · rename_i hroom
        rw [if_neg ‹_›, if_neg ‹_›, if_pos ⟨hroom.1, by omega⟩]
      · cases hfits

theorem signatureOut_length (s : State) (x : Cmd) : (signatureOut s x).length ≤ 4096 := signatureOf_length ..

/-- SIGNATURE_READ's record fits where 4,096 bytes do. -/
theorem signatureReadAct_written (hfits : xferStatus x 5 4096 = 0) (hready : outReady s x = true) :
    signatureReadAct x s = finish x { result := [dw (signatureOut s x).length] } (outWrite x 5 (signatureOut s x) s) := by
  have hless := xferStatus_mono (signatureOut_length s x) hfits
  unfold signatureReadAct
  rw [if_neg (not_not_intro hfits), actOut_written hless hready]

end Drains

/-- Settles O11: row by row. -/
theorem integrityCommands : Obligations.IntegrityCommands := by
  unfold Obligations.IntegrityCommands
  refine ⟨?mode, ?ledger, ?signature, ?kernel, ?deadline, ?drain, fun s c p x k hserved hwaits => ?cancelAnswers,
    fun s c p x hserved hnone => ?cancel, ?inject, ?selftest⟩
  case mode | inject | selftest => exact actsAtOnce_of_exec fun _ _ _ => rfl
  case ledger => exact outputs_of_exec fun _ _ _ => rfl
  case signature =>
    refine acts_of_exec (act := signatureReadAct) (fun _ _ _ => rfl) fun x t h => ?_
    obtain ⟨hfits, hready⟩ := Bool.and_eq_true_iff.mp h
    exact signatureReadAct_written (beq_iff_eq.mp hfits) hready
  case kernel | drain => exact startsWork_of_exec fun _ _ _ => rfl
  case deadline =>
    simp only [← drainDeadlineApply_eq]
    exact actsAtOnce_of_exec fun _ _ _ => rfl
  case cancelAnswers =>
    refine exec_of_act rfl hserved ?_
    rw [actDo, drainCancelApply_answers (s := turned c s) hwaits]
    rfl
  case cancel =>
    refine exec_of_act rfl hserved ?_
    rw [actDo, drainCancelApply_alone (s := turned c s) hnone]
    rfl

/-! ### Probes and the trace -/

/-- TRACE_CONTROL by its operation. -/
theorem traceControlApply_eq (x : Cmd) (s : State) : traceControlApply x s =
    if x.fld 4 1 0 = 0 then traceStop s else if x.fld 4 1 0 = 1 then traceStart s else owlRecord (markRecord x) s := by
  unfold traceControlApply
  split <;> simp_all

/-- Settles O12: row by row. -/
theorem owlCommands : Obligations.OwlCommands := by
  unfold Obligations.OwlCommands
  refine ⟨?probeSet, ?probeRead, ?config, ?control, ?status⟩
  case probeSet | config => exact actsAtOnce_of_exec fun _ _ _ => rfl
  case probeRead | status => exact reports_of_exec fun _ _ _ => rfl
  case control =>
    refine Eq.mp (congrArg _ (funext fun x => funext fun s => ?_)) (actsAtOnce_of_exec (eff := traceControlApply) fun _ _ _ => rfl)
    exact traceControlApply_eq x s

/-! ### Domains -/

/-- Settles O13: row by row. -/
theorem domainCommands : Obligations.DomainCommands := by
  unfold Obligations.DomainCommands
  refine ⟨?off, fun s c p x hserved hon => ?already, fun s c p x hserved hoff hslot => ?on, ?status⟩
  case off => exact startsWork_of_exec fun _ _ _ => rfl
  case already => exact exec_of_act rfl hserved (if_pos hon)
  case on => exact exec_pends_of_act rfl hserved (domainOnAct_pends hoff) (by simpa using hslot)
  case status => exact reports_of_exec fun _ _ _ => rfl

/-! ### Firmware and debug -/

section Patches

variable {i : Instr} {op c : Nat} {p : Packet} {x : Cmd} {s : State} {chk : State → Cmd → Verdict} {work : Cmd → Nat → State → State}

/-- A command that waits for the older ones stalls while one of them has not replied. -/
theorem exec_stalls_of_olderWaits
    (hexec : exec i s = .next (serve op c p chk (fun x t => if olderWaits t x then stall x t else pend x (work x) t) s))
    (hserved : served s op c p x chk = true) (holder : olderWaits s x = true) : exec i s = .next (stall x (turned c s)) :=
  exec_of_act hexec hserved (by simp [holder])

/-- Once all have, its work begins. -/
theorem exec_pends_of_olderWaits
    (hexec : exec i s = .next (serve op c p chk (fun x t => if olderWaits t x then stall x t else pend x (work x) t) s))
    (hserved : served s op c p x chk = true) (holder : olderWaits s x = false) (hslot : slotFree s x.port = true) :
    let q := takeSlot x (!partScope x) (turned c s)
    exec i s = .next (work x q.1 (finish x { status := stPending, result := [dw q.1] } q.2)) :=
  exec_pends_of_act hexec hserved (by simp [holder]) (by simpa using hslot)

end Patches

theorem debugUnlockApply_verified {x : Cmd} {s : State} (h : unlockOk s x = true) : debugUnlockApply x s =
    ({}, { s with fw := { s.fw with nonce := none, unlocked := true }, ports := tmod s.ports 3 (fun o => { o with admin := true }) }) :=
  if_pos h

theorem debugUnlockApply_refused {x : Cmd} {s : State} (h : unlockOk s x = false) : debugUnlockApply x s =
    ({ status := stDebugLocked }, bump cntDebugFail 0 { s with fw := { s.fw with nonce := none, fails := s.fw.fails + 1 } }) :=
  if_neg (by simp [h])

/-- Settles O14: row by row. -/
theorem firmwareCommands : Obligations.FirmwareCommands := by
  unfold Obligations.FirmwareCommands
  refine ⟨fun s c p x hserved holder hslot => ?load, fun s c p x hserved holder => ?loadWaits,
    fun s c p x hserved holder hslot => ?remove, fun s c p x hserved holder => ?removeWaits, ?info, ?challenge,
    fun s c p x hserved hverified => ?unlock, fun s c p x hserved hrefused => ?unlockFails, ?lock⟩
  case load => exact exec_pends_of_olderWaits (work := patchLoadStart) rfl hserved holder hslot
  case loadWaits => exact exec_stalls_of_olderWaits (work := patchLoadStart) rfl hserved holder
  case remove =>
    exact exec_pends_of_olderWaits (work := fun _ tk u => onFw (fun f => { f with removeTk := some tk }) u) rfl hserved holder hslot
  case removeWaits =>
    exact exec_stalls_of_olderWaits (work := fun _ tk u => onFw (fun f => { f with removeTk := some tk }) u) rfl hserved holder
  case info => exact reports_of_exec fun _ _ _ => rfl
  case challenge => exact repliesWith_of_exec fun _ _ _ => rfl
  case unlock =>
    rw [repliesWith_of_exec (app := debugUnlockApply) (fun _ _ _ => rfl) s c p x hserved, debugUnlockApply_verified (s := turned c s) hverified]
    rfl
  case unlockFails =>
    rw [repliesWith_of_exec (app := debugUnlockApply) (fun _ _ _ => rfl) s c p x hserved, debugUnlockApply_refused (s := turned c s) hrefused]
    rfl
  case lock => exact actsAtOnce_of_exec fun _ _ _ => rfl

end Sys2Proof.Proofs
end

section
/-! PROOFS. Host writes to a function's registers (R324, R326 to R328, R575): what a BAR write comes to, and each register's own write. -/

namespace Sys2Proof.Proofs

open Sys2Proof.Machine Sys2Proof.Safety Sys2Proof.Laws

section Registers

variable {s : State} {fn qp v off seg d c : Nat} {w : Dword} {q : Qp} {f : State → State}

/-! ### A write to a BAR (R575) -/

theorem barWrite_open (hup : fnUp s fn = true) (hopen : barOpen s fn = true) : barWrite fn f s = f s := by
  simp [barWrite, hup, hopen]

theorem barWrite_closed (hup : fnUp s fn = true) (hclosed : barOpen s fn = false) :
    barWrite fn f s = bump cntPcieUrSent (unitId 0x0C fn) s := by
  simp [barWrite, hup, hclosed, sentUr, portUnit]

/-! ### EN of QP0 (R326, R328) -/

theorem writeEn_same {en : Bool} (h : (tget s.qps (64 * fn)).en = en) : writeEn fn en s = s := by
  subst h
  simp [writeEn]

theorem writeEn_starts (hoff : (tget s.qps (64 * fn)).en = false) (hidle : (tget s.qps (64 * fn)).rdy = false) :
    writeEn fn true s = enableQp0 (64 * fn) s := by
  simp [writeEn, hoff, hidle]

theorem writeEn_waits (hq : tget s.qps (64 * fn) = q) (hoff : q.en = false) (hready : q.rdy = true) :
    writeEn fn true s = { s with qps := tset s.qps (64 * fn) { q with en := true, enWaits := true } } := by
  subst hq
  simp [writeEn, hoff, hready]

theorem writeEn_stops (hon : (tget s.qps (64 * fn)).en = true) :
    writeEn fn false s = settleQp0 (64 * fn) (orphanBuffers (· == 64 * fn) (breakLocks (· == 64 * fn)
      { s with qps := tmod s.qps (64 * fn) (fun q => { q with en := false, enWaits := false }) })) := by
  simp [writeEn, hon, tmod]

/-! ### Doorbells (R327) -/

theorem writeTail_held (hqp : qp < 64) (hc : c = 64 * fn + qp)
    (hinside : (tget s.qps c).rdy = false ∨ v % 4096 < 2 ^ (tget s.qps c).sqlog) :
    writeTail fn qp v s = { s with qps := tmod s.qps c (fun q => { q with sqtail := v % 4096 }) } := by
  subst hc
  have hstays : ((tget s.qps (64 * fn + qp)).rdy && decide (2 ^ (tget s.qps (64 * fn + qp)).sqlog ≤ v % 4096)) = false := by
    rcases hinside with h | h
    · simp [h]
    · simp [Nat.not_le.mpr h]
  simp [writeTail, Nat.not_le.mpr hqp, hstays, tmod]

theorem writeTail_stops (hqp : qp < 64) (hc : c = 64 * fn + qp) (hready : (tget s.qps c).rdy = true)
    (houtside : 2 ^ (tget s.qps c).sqlog ≤ v % 4096) :
    writeTail fn qp v s = stopQp c 3 { s with qps := tmod s.qps c (fun q => { q with sqtail := v % 4096 }) } := by
  subst hc
  simp [writeTail, Nat.not_le.mpr hqp, hready, houtside, tmod]

theorem writeHead_frees {n : Nat} (hqp : qp < 64) (hc : c = 64 * fn + qp) (hn : n = 2 ^ (tget s.qps c).cqlog)
    (hready : (tget s.qps c).rdy = true) (hinside : v % 4096 < n) :
    writeHead fn qp v s = { s with qps := tmod s.qps c (fun q =>
      { q with cqhead := v % 4096, unread := q.unread - (v % 4096 + n - q.cqhead) % n }) } := by
  subst hc hn
  simp [writeHead, Nat.not_le.mpr hqp, hready, Nat.not_le.mpr hinside, tmod]

theorem writeHead_stops (hqp : qp < 64) (hc : c = 64 * fn + qp) (hready : (tget s.qps c).rdy = true)
    (houtside : 2 ^ (tget s.qps c).cqlog ≤ v % 4096) :
    writeHead fn qp v s = stopQp c 3 { s with qps := tmod s.qps c (fun q => { q with cqhead := v % 4096 }) } := by
  subst hc
  simp [writeHead, Nat.not_le.mpr hqp, hready, houtside, tmod]

theorem writeHead_held (hqp : qp < 64) (hc : c = 64 * fn + qp) (hidle : (tget s.qps c).rdy = false) :
    writeHead fn qp v s = { s with qps := tmod s.qps c (fun q => { q with cqhead := v % 4096 }) } := by
  subst hc
  simp [writeHead, Nat.not_le.mpr hqp, hidle, tmod]

/-! ### BAR2 segments (Table 06.5) -/

theorem writeSeg_control (hseg : seg < 16) :
    writeSeg fn seg 0 w s = { s with segs := tmod s.segs (16 * fn + seg) (fun g =>
      { g with en := bit w 0, wren := bit w 1, part := bits w 7 2, segerr := g.segerr && !bit w 8 }) } := by
  simp [writeSeg, Nat.not_le.mpr hseg]

theorem writeSeg_page (hseg : seg < 16) :
    writeSeg fn seg 1 w s = { s with segs := tmod s.segs (16 * fn + seg) (fun g => { g with vpage := bits w 17 0 }) } := by
  simp [writeSeg, Nat.not_le.mpr hseg]

theorem writeSeg_reserved (hd : 2 ≤ d) : writeSeg fn seg d w s = s := by
  unfold writeSeg
  split
  · rfl
  · match d, hd with
    | _ + 2, _ => rfl

/-! ### Registers by their offset (R324) -/

/-- An aligned dword is that register's own write. -/
theorem registerWriteEffect_aligned (haligned : off % 4 = 0) :
    registerWriteEffect fn off 4 w false s = barWrite fn (writeReg fn off w) s := by
  simp [registerWriteEffect, countEp, haligned]

/-- A register's own write, under whatever the BAR makes of it. -/
theorem exec_registerWrite_of_write (haligned : off % 4 = 0) (hwrite : ∀ t, writeReg fn off w t = f t) :
    exec (.registerWrite fn off 4 w false) s = .next (barWrite fn f s) :=
  congrArg Host.Outcome.next ((registerWriteEffect_aligned haligned).trans (congrArg (barWrite fn · s) (funext hwrite)))

/-- The same through an open BAR. -/
theorem exec_registerWrite_open (hup : fnUp s fn = true) (hopen : barOpen s fn = true) (haligned : off % 4 = 0) :
    exec (.registerWrite fn off 4 w false) s = .next (writeReg fn off w s) :=
  (exec_registerWrite_of_write haligned fun _ => rfl).trans (congrArg _ (barWrite_open hup hopen))

/-- Another size or place is Unsupported Request. -/
theorem registerWriteEffect_odd {size : Nat} (hup : fnUp s fn = true) (hopen : barOpen s fn = true) (hodd : size ≠ 4 ∨ off % 4 ≠ 0) :
    registerWriteEffect fn off size w false s = bump cntPcieUrSent (unitId 0x0C fn) s := by
  rw [registerWriteEffect, barWrite_open hup hopen]
  simp [hodd, countEp, sentUr, portUnit]

/-- A poisoned write is counted and discarded. -/
theorem registerWriteEffect_poisoned (hup : fnUp s fn = true) (hopen : barOpen s fn = true) (haligned : off % 4 = 0) :
    registerWriteEffect fn off 4 w true s = bump cntPciePoisonRx (unitId 0x0C fn) s := by
  rw [registerWriteEffect, barWrite_open hup hopen]
  simp [haligned, countEp, portUnit]

theorem writeReg_qp0 (hoff : off ∈ [0x1000, 0x1004, 0x1008, 0x100C, 0x1010]) :
    writeReg fn off w s = { s with ports := tmod s.ports fn (fun p => { p with qp0 := tset p.qp0 off (w &&& qp0Mask off) }) } := by
  have hin : 0x1000 ≤ off ∧ off < 0x1014 := by
    simp only [List.mem_cons, List.not_mem_nil, or_false] at hoff
    omega
  exact if_pos hin

theorem writeReg_en : writeReg fn 0x1014 w s = writeEn fn (bit w 0) s := by
  simp [writeReg]

/-- The two dwords of a queue pair's block that are doorbells (Table 09.11). -/
theorem writeReg_sq (hqp : qp < 64) : writeReg fn (0x2000 + 16 * qp) w s = writeTail fn qp w.toNat s := by
  have hplace : (0x2000 + 16 * qp) % 16 = 0 := by omega
  have hnumber : (0x2000 + 16 * qp - 0x2000) / 16 = qp := by omega
  rw [writeReg, if_neg (by omega), if_neg (by omega), if_pos (by omega), hplace, hnumber]
  rfl

theorem writeReg_cq (hqp : qp < 64) : writeReg fn (0x2004 + 16 * qp) w s = writeHead fn qp w.toNat s := by
  have hplace : (0x2004 + 16 * qp) % 16 = 4 := by omega
  have hnumber : (0x2004 + 16 * qp - 0x2000) / 16 = qp := by omega
  rw [writeReg, if_neg (by omega), if_neg (by omega), if_pos (by omega), hplace, hnumber]
  rfl

/-- The other two ignore writes. -/
theorem writeReg_qpReadOnly (hqp : qp < 64) (hd : d = 8 ∨ d = 12) : writeReg fn (0x2000 + 16 * qp + d) w s = s := by
  have hplace : (0x2000 + 16 * qp + d) % 16 = d := by omega
  rw [writeReg, if_neg (by omega), if_neg (by omega), if_pos (by omega), hplace]
  rcases hd with rfl | rfl <;> rfl

theorem writeReg_seg (hseg : seg < 16) (hd : d < 4) : writeReg fn (0xF000 + 16 * seg + 4 * d) w s = writeSeg fn seg d w s := by
  have hplace : (0xF000 + 16 * seg + 4 * d) % 16 / 4 = d := by omega
  have hnumber : (0xF000 + 16 * seg + 4 * d - 0xF000) / 16 = seg := by omega
  rw [writeReg, if_neg (by omega), if_neg (by omega), if_neg (by omega), if_pos (by omega), hplace, hnumber]

theorem writeReg_reserved (hoff : off < 0x1000 ∨ (0x1018 ≤ off ∧ off < 0x2000) ∨ (0x2400 ≤ off ∧ off < 0xF000) ∨ 0xF100 ≤ off) :
    writeReg fn off w s = s := by
  rw [writeReg, if_neg (by omega), if_neg (by omega), if_neg (by omega), if_neg (by omega)]

end Registers

/-- Settles O15: each clause is a register's own write, through a BAR that is open; the last says it of one that is closed. -/
theorem hostRegisters : Obligations.HostRegisters := by
  unfold Obligations.HostRegisters
  refine ⟨fun s fn hup hopen hoff hidle => ?starts, fun s fn q hup hopen hq hoff hready => ?waits, fun s fn hup hopen hon => ?stops,
    fun s fn en hup hopen hsame => ?same, fun s fn qp v c hup hopen hqp hc hinside => ?tail,
    fun s fn qp v c hup hopen hqp hc hready houtside => ?tailStops, fun s fn qp v c n hup hopen hqp hc hn hready hinside => ?head,
    fun s fn qp v c hup hopen hqp hc hready houtside => ?headStops, fun s fn qp v c hup hopen hqp hc hidle => ?headHeld,
    fun s fn off v hup hopen hoff => ?qp0, fun s fn v => ?en, fun s fn qp v hqp => ?sq, fun s fn qp v hqp => ?cq,
    fun s fn seg d v hseg hd => ?seg, fun s fn off v hup hopen haligned hoff => ?reserved, fun s fn qp d v hup hopen hqp hd => ?readOnly,
    fun s fn off size v hup hopen hodd => ?odd, fun s fn off v hup hopen haligned => ?poisoned, fun s fn seg v hup hopen hseg => ?control,
    fun s fn seg v hup hopen hseg => ?page, fun s fn seg d v hup hopen hd => ?segReserved, fun s fn hup hclosed => ?closed⟩
  case starts => exact congrArg _ ((barWrite_open hup hopen).trans (writeEn_starts hoff hidle))
  case waits => exact congrArg _ ((barWrite_open hup hopen).trans (writeEn_waits hq hoff hready))
  case stops => exact congrArg _ ((barWrite_open hup hopen).trans (writeEn_stops hon))
  case same => exact congrArg _ ((barWrite_open hup hopen).trans (writeEn_same hsame))
  case tail => exact congrArg _ ((barWrite_open hup hopen).trans (writeTail_held hqp hc hinside))
  case tailStops => exact congrArg _ ((barWrite_open hup hopen).trans (writeTail_stops hqp hc hready houtside))
  case head => exact congrArg _ ((barWrite_open hup hopen).trans (writeHead_frees hqp hc hn hready hinside))
  case headStops => exact congrArg _ ((barWrite_open hup hopen).trans (writeHead_stops hqp hc hready houtside))
  case headHeld => exact congrArg _ ((barWrite_open hup hopen).trans (writeHead_held hqp hc hidle))
  case qp0 =>
    have haligned : off % 4 = 0 := by
      simp only [List.mem_cons, List.not_mem_nil, or_false] at hoff
      omega
    rw [exec_registerWrite_open hup hopen haligned, writeReg_qp0 hoff]
  case en => exact exec_registerWrite_of_write (by decide) fun _ => writeReg_en
  case sq => exact exec_registerWrite_of_write (by omega) fun _ => writeReg_sq hqp
  case cq => exact exec_registerWrite_of_write (by omega) fun _ => writeReg_cq hqp
  case seg => exact exec_registerWrite_of_write (by omega) fun _ => writeReg_seg hseg hd
  case reserved => rw [exec_registerWrite_open hup hopen haligned, writeReg_reserved hoff]
  case readOnly => rw [exec_registerWrite_open hup hopen (by omega), writeReg_qpReadOnly hqp hd]
  case odd => exact congrArg _ (registerWriteEffect_odd hup hopen hodd)
  case poisoned => exact congrArg _ (registerWriteEffect_poisoned hup hopen haligned)
  case control => exact congrArg _ ((barWrite_open hup hopen).trans (writeSeg_control hseg))
  case page => exact congrArg _ ((barWrite_open hup hopen).trans (writeSeg_page hseg))
  case segReserved => exact congrArg _ ((barWrite_open hup hopen).trans (writeSeg_reserved hd))
  case closed =>
    refine ⟨fun en => ?_, fun qp v => ?_, fun qp v => ?_, fun off size v ep => ?_, fun seg d v => ?_⟩
    all_goals exact congrArg _ (barWrite_closed hup hclosed)

end Sys2Proof.Proofs
end

section
/-! PROOFS. Accesses through BAR2 (R199, R216, R575), fetches and completions (R312, R327, R574), configuration, power, reset and links of
a function (R565, R572, R573), and the mailboxes' GO (R334, R545). -/

namespace Sys2Proof.Proofs

open Sys2Proof.Machine Sys2Proof.Safety Sys2Proof.Laws

/-! ### BAR2 -/

section Apertures

variable {s t : State} {fn off n : Nat} {data : List Byte} {ep : Bool} {g : Seg} {w r : Got}


theorem aperturePut_of_ok (hseg : segOpen s fn true off data.length = true) (hg : tget s.segs (segKey fn off) = g)
    (hw : w = partWrite viaHost g.part (segAddr g off) data (if ep then List.range ((data.length + 15) / 16) else []) s) (hst : w.st = 0) :
    aperturePut fn off data ep s = w.s := by
  subst hg hw
  simp [aperturePut, hseg, hst]

theorem aperturePut_of_failed (hseg : segOpen s fn true off data.length = true) (hg : tget s.segs (segKey fn off) = g)
    (hw : w = partWrite viaHost g.part (segAddr g off) data (if ep then List.range ((data.length + 15) / 16) else []) s) (hst : w.st ≠ 0) :
    aperturePut fn off data ep s = segFault fn off (countFault g.part w.st w.s) := by
  subst hg hw
  simp [aperturePut, hseg, hst]

theorem aperturePut_of_closed (hseg : segOpen s fn true off data.length = false) : aperturePut fn off data ep s = segFault fn off s := by
  simp [aperturePut, hseg]

/-- A write through an open BAR2, of bytes inside it. -/
theorem bar2WriteEffect_clean (hup : fnUp s fn = true) (hopen : barOpen s fn = true) (hoff : off < 2 ^ 32) (hdata : data ≠ []) :
    bar2WriteEffect fn off data false s = aperturePut fn off data false s := by
  rw [bar2WriteEffect, barWrite_open hup hopen, if_neg (by simpa [hdata] using hoff)]
  rfl

theorem bar2WriteEffect_poisoned (hup : fnUp s fn = true) (hopen : barOpen s fn = true) (hoff : off < 2 ^ 32) (hdata : data ≠ []) :
    bar2WriteEffect fn off data true s = aperturePut fn off data true (bump cntPciePoisonRx (unitId 0x0C fn) s) := by
  rw [bar2WriteEffect, barWrite_open hup hopen, if_neg (by simpa [hdata] using hoff)]
  rfl

theorem apertureGet_of_ok (hseg : segOpen s fn false off n = true) (hg : tget s.segs (segKey fn off) = g)
    (hr : r = partRead viaHost g.part (segAddr g off) n s) (hst : r.st = 0) (hclean : r.bad = []) :
    apertureGet fn off n s = complete { fn := fn, data := r.bytes } r.s := by
  subst hg hr
  simp [apertureGet, hseg, hst, hclean]

theorem apertureGet_of_poisoned (hseg : segOpen s fn false off n = true) (hg : tget s.segs (segKey fn off) = g)
    (hr : r = partRead viaHost g.part (segAddr g off) n s) (hst : r.st = 0) (hbad : r.bad ≠ []) :
    apertureGet fn off n s =
      complete { fn := fn, poisoned := true, data := r.bytes } (bump cntBar2Poison (unitId 0x0C fn) r.s) := by
  subst hg hr
  simp [apertureGet, hseg, hst, hbad, portUnit]

theorem apertureGet_of_failed (hseg : segOpen s fn false off n = true) (hg : tget s.segs (segKey fn off) = g)
    (hr : r = partRead viaHost g.part (segAddr g off) n s) (hst : r.st ≠ 0) :
    apertureGet fn off n s = apertureFail fn off n (countFault g.part r.st r.s) := by
  subst hg hr
  simp [apertureGet, hseg, hst]

theorem apertureGet_of_closed (hseg : segOpen s fn false off n = false) : apertureGet fn off n s = apertureFail fn off n s := by
  simp [apertureGet, hseg]

theorem bar2ReadEffect_open (hup : fnUp s fn = true) (hopen : barOpen s fn = true) (hoff : off < 2 ^ 32) (hn : n ≠ 0) :
    bar2ReadEffect fn off n s = apertureGet fn off n s := by
  have hinside : ¬ 4294967296 ≤ off := Nat.not_le.mpr hoff
  simp [bar2ReadEffect, hup, hopen, hn, hinside]

theorem bar2ReadEffect_closed (hup : fnUp s fn = true) (hclosed : barOpen s fn = false) (hoff : off < 2 ^ 32) (hn : n ≠ 0) :
    bar2ReadEffect fn off n s = complete { fn := fn, unsupported := true } (bump cntPcieUrSent (unitId 0x0C fn) s) := by
  have hinside : ¬ 4294967296 ≤ off := Nat.not_le.mpr hoff
  simp [bar2ReadEffect, hup, hclosed, hn, hinside, sentUr, portUnit]

end Apertures

/-- Settles O16: by whether R216 allows the access, and how it ends. -/
theorem hostApertures : Obligations.HostApertures := by
  unfold Obligations.HostApertures
  refine ⟨fun s fn off data g w hup hopen hoff hdata hseg hg hw hst => ?write,
    fun s fn off data g w hup hopen hoff hdata hseg hg hw hst => ?writeFails,
    fun s fn off data hup hopen hoff hdata hseg => ?writeClosed,
    fun s fn off data g t w hup hopen hoff hdata ht hseg hg hw hst => ?writePoisoned,
    fun s fn off n g r hup hopen hoff hn hseg hg hr hst hclean => ?read,
    fun s fn off n g r hup hopen hoff hn hseg hg hr hst hbad => ?readPoisoned,
    fun s fn off n g r hup hopen hoff hn hseg hg hr hst => ?readFails,
    fun s fn off n hup hopen hoff hn hseg => ?readClosed,
    fun s fn off n hup hclosed hoff hn => ?unserved⟩
  case write => exact congrArg _ ((bar2WriteEffect_clean hup hopen hoff hdata).trans (aperturePut_of_ok hseg hg hw hst))
  case writeFails => exact congrArg _ ((bar2WriteEffect_clean hup hopen hoff hdata).trans (aperturePut_of_failed hseg hg hw hst))
  case writeClosed => exact congrArg _ ((bar2WriteEffect_clean hup hopen hoff hdata).trans (aperturePut_of_closed hseg))
  case writePoisoned =>
    subst ht
    exact congrArg _ ((bar2WriteEffect_poisoned hup hopen hoff hdata).trans (aperturePut_of_ok hseg hg hw hst))
  case read => exact congrArg _ ((bar2ReadEffect_open hup hopen hoff hn).trans (apertureGet_of_ok hseg hg hr hst hclean))
  case readPoisoned => exact congrArg _ ((bar2ReadEffect_open hup hopen hoff hn).trans (apertureGet_of_poisoned hseg hg hr hst hbad))
  case readFails => exact congrArg _ ((bar2ReadEffect_open hup hopen hoff hn).trans (apertureGet_of_failed hseg hg hr hst))
  case readClosed => exact congrArg _ ((bar2ReadEffect_open hup hopen hoff hn).trans (apertureGet_of_closed hseg))
  case unserved => exact congrArg _ (bar2ReadEffect_closed hup hclosed hoff hn)

/-! ### Fetches and completions -/

section Fetches

variable {s : State} {fn qp c tag e : Nat} {q : Qp} {r : HostRead} {data : List Byte} {ep : Bool}

theorem sqEntryFetchEffect_reads (hqp : qp < 64) (hc : c = 64 * fn + qp) (hup : fnUp s fn = true) (hmay : mayFetch s c = true)
    (hmaster : canMaster s fn = true) (hq : tget s.qps c = q) :
    sqEntryFetchEffect fn qp s = hostRead fn (q.sqbase + 64 * q.fetch) 64 (.sqEntry c q.epoch) (fetchTurned c
      { s with qps := tset s.qps c { q with fetch := (q.fetch + 1) % 2 ^ q.sqlog, reserved := q.reserved + 1 } }) := by
  subst hc hq
  simp [sqEntryFetchEffect, Nat.not_le.mpr hqp, hup, hmay, hmaster]

theorem sqEntryFetchEffect_stops (hqp : qp < 64) (hup : fnUp s fn = true) (hmay : mayFetch s (64 * fn + qp) = true)
    (hmaster : canMaster s fn = false) : sqEntryFetchEffect fn qp s = stopQp (64 * fn + qp) 1 s := by
  simp [sqEntryFetchEffect, Nat.not_le.mpr hqp, hup, hmay, hmaster]

theorem hostCompletionEffect_ok (hr : readOf s tag = some r) (holder : olderFetch s r = false) (hlength : data.length = r.len) :
    hostCompletionEffect tag { ok := true, ep := ep, data := data } s = requestEnded r (some (data, ep)) (countEp r.fn ep s) := by
  simp [hostCompletionEffect, hr, holder, hlength, countEp]

theorem hostCompletionEffect_failed (hr : readOf s tag = some r) (holder : olderFetch s r = false) :
    hostCompletionEffect tag { ok := false, ep := ep, data := data } s = requestEnded r none (bump cntPcieCplErr (unitId 0x0C r.fn) s) := by
  simp [hostCompletionEffect, hr, holder, portUnit]

theorem completionTimeoutEffect_ends (hr : readOf s tag = some r) (holder : olderFetch s r = false) :
    completionTimeoutEffect tag s = requestEnded r none (bump cntPcieCplTimeout (unitId 0x0C r.fn) s) := by
  simp [completionTimeoutEffect, hr, holder, portUnit]

/-- A read request once the one with the tag of `r` has ended. -/
def endedAs (r : HostRead) (res : Option (List Byte × Bool)) (x : HostRead) : HostRead :=
  if x.tag == r.tag then { x with came := some res } else x

@[simp] theorem endedAs_acc (r : HostRead) (res : Option (List Byte × Bool)) (x : HostRead) : (endedAs r res x).acc = x.acc := by
  unfold endedAs
  split <;> rfl

/-- A request that is alone in its access ends the access with it. -/
theorem requestEnded_alone {res : Option (List Byte × Bool)} (hacc : s.hostReads.filter (fun x => x.acc == r.acc) = [r])
    (htag : ∀ x ∈ s.hostReads, x.tag = r.tag → x.acc = r.acc) :
    requestEnded r res s = accessEnded r [{ r with came := some res }]
      { s with hostReads := s.hostReads.filter (fun x => x.acc != r.acc) } := by
  have hown : (s.hostReads.map (endedAs r res)).filter (fun x => x.acc == r.acc) = [{ r with came := some res }] := by
    simp only [List.filter_map, Function.comp_def, endedAs_acc, hacc]
    simp [endedAs]
  have hrest : (s.hostReads.map (endedAs r res)).filter (fun x => x.acc != r.acc) = s.hostReads.filter (fun x => x.acc != r.acc) := by
    simp only [List.filter_map, Function.comp_def, endedAs_acc]
    refine (List.map_congr_left fun x hx => ?_).trans (List.map_id _)
    obtain ⟨hmem, hother⟩ := List.mem_filter.mp hx
    refine if_neg fun hsame => ?_
    rw [bne_iff_ne] at hother
    exact hother (htag x hmem (beq_iff_eq.mp hsame))
  change (if ((s.hostReads.map (endedAs r res)).filter (fun x => x.acc == r.acc)).all (fun x => x.came.isSome) then
    accessEnded r ((s.hostReads.map (endedAs r res)).filter (fun x => x.acc == r.acc))
      { s with hostReads := (s.hostReads.map (endedAs r res)).filter (fun x => x.acc != r.acc) } else _) = _
  rw [hown, hrest]
  rfl

/-- The bytes of a submission entry are taken in while its queue pair waits for them (R327). -/
theorem readEnded_entry (hkind : r.kind = .sqEntry c e) (hepoch : (tget s.qps c).epoch = e) (hready : (tget s.qps c).rdy = true)
    (hen : (tget s.qps c).en = true) (hwaits : (tget s.qps c).enWaits = false) :
    readEnded r (some data) s = takeIn c (packetOf data) s := by
  simp [readEnded, hkind, hepoch, hready, hen, hwaits]

/-- Without them the queue pair stops. -/
theorem readEnded_entryLost (hkind : r.kind = .sqEntry c e) (hepoch : (tget s.qps c).epoch = e) (hready : (tget s.qps c).rdy = true)
    (hen : (tget s.qps c).en = true) (hwaits : (tget s.qps c).enWaits = false) : readEnded r none s = stopQp c 1 s := by
  simp [readEnded, hkind, hepoch, hready, hen, hwaits]

/-- The access of a submission entry ends as its one request did. -/
theorem accessEnded_entry (hkind : r.kind = .sqEntry c e) :
    accessEnded r [{ r with came := some (some (data, false)) }] s = readEnded r (some data) s := by
  simp [accessEnded, hkind, HostRead.bytes, HostRead.good]

theorem accessEnded_entryLost (hkind : r.kind = .sqEntry c e) :
    accessEnded r [{ r with came := some none }] s = readEnded r none s := by
  simp [accessEnded, hkind, HostRead.good]

/-! ### What counting leaves of a queue pair -/

theorem raiseOwn_qp {β : Type} {g : Qp → β} (hg : ∀ q v, g { q with view := v } = g q) (p : Nat) (qp : Option Nat) (s : State) (c : Nat) :
    g (tget (raiseOwn s p qp).qps c) = g (tget s.qps c) := by
  cases qp with
  | none => rfl
  | some k => exact tget_tmod_proj _ _ _ _ g fun q => hg q _

/-- Counting changes nothing of a queue pair but its view. -/
theorem bumpBy_qp {β : Type} {g : Qp → β} (hg : ∀ q v, g { q with view := v } = g q) (cid inst n : Nat) (s : State) (c : Nat) :
    g (tget (bumpBy cid inst n s).qps c) = g (tget s.qps c) := by
  unfold bumpBy fireThresholds
  dsimp only
  refine (foldl_keeps (f := fun t => g (tget t.qps c)) (fun t e => ?_) _ _).trans
    (foldl_keeps (f := fun t => g (tget t.qps c)) (fun t p => ?_) _ _)
  · split
    · exact raiseOwn_qp hg ..
    · rfl
  · split
    · exact raiseOwn_qp hg ..
    · rfl

end Fetches

/-- Settles O17. -/
theorem hostFetches : Obligations.HostFetches := by
  unfold Obligations.HostFetches
  refine ⟨fun s fn qp c q hqp hc hup hmay hmaster hq => ?fetch, fun s fn qp hqp hup hmay hmaster => ?noMaster,
    fun s tag r data hr holder hlength => ?good, fun s tag r data hr holder hlength => ?poisoned,
    fun s tag r ep data hr holder => ?failed, fun s tag r hr holder => ?timeout,
    fun s tag r c e data q hr hkind holder hlength hacc htag hq hepoch hready hen hwaits => ?entry,
    fun s tag r c e q t hr hkind holder hacc htag hq hepoch hready hen hwaits ht => ?entryLost⟩
  case fetch => exact congrArg _ (sqEntryFetchEffect_reads hqp hc hup hmay hmaster hq)
  case noMaster => exact congrArg _ (sqEntryFetchEffect_stops hqp hup hmay hmaster)
  case good => exact congrArg _ (hostCompletionEffect_ok hr holder hlength)
  case poisoned => exact congrArg _ (hostCompletionEffect_ok hr holder hlength)
  case failed => exact congrArg _ (hostCompletionEffect_failed hr holder)
  case timeout => exact congrArg _ (completionTimeoutEffect_ends hr holder)
  case entry =>
    subst hq
    refine congrArg _ ((hostCompletionEffect_ok hr holder hlength).trans ?_)
    rw [countEp, if_neg nofun, requestEnded_alone hacc htag, accessEnded_entry hkind]
    exact readEnded_entry (s := { s with hostReads := _ }) hkind hepoch hready hen hwaits
  case entryLost =>
    subst hq ht
    refine congrArg _ ((completionTimeoutEffect_ends hr holder).trans ?_)
    have hreads : (bump cntPcieCplTimeout (unitId 0x0C r.fn) s).hostReads = s.hostReads := by rw [bump_frame]
    rw [requestEnded_alone (by rwa [hreads]) (by rwa [hreads]), accessEnded_entryLost hkind, hreads]
    have hqp : ∀ {β : Type} (g : Qp → β), (∀ q v, g { q with view := v } = g q) →
        g (tget (bump cntPcieCplTimeout (unitId 0x0C r.fn) s).qps c) = g (tget s.qps c) := fun g hg => bumpBy_qp hg ..
    exact readEnded_entryLost (s := { bump cntPcieCplTimeout (unitId 0x0C r.fn) s with hostReads := _ }) hkind
      ((hqp Qp.epoch fun _ _ => rfl).trans hepoch) ((hqp Qp.rdy fun _ _ => rfl).trans hready) ((hqp Qp.en fun _ _ => rfl).trans hen)
      ((hqp Qp.enWaits fun _ _ => rfl).trans hwaits)

/-! ### Configuration, power, reset and links -/

section Functions

variable {s : State} {fn reg : Nat} {v : Dword}

theorem configRequestEffect_write (hup : fnUp s fn = true) :
    configRequestEffect fn reg (some v) s = complete { fn := fn } (configPut fn (reg / 4 * 4) v s) := by
  simp [configRequestEffect, hup]

theorem configRequestEffect_read (hup : fnUp s fn = true) : configRequestEffect fn reg none s =
    complete { fn := fn, data := leBytes 4 (configDword s fn (reg / 4 * 4)).toNat } (drawFree s) := by
  simp [configRequestEffect, hup]

/-- The Command register holds its writable bits, among them Memory Space and Bus Master Enable (R575). -/
theorem configPut_command : configPut fn 0x04 v s =
    { s with fns := tmod s.fns fn (fun f => { f with cfg := tset f.cfg 0x04 (v &&& 0x146), mse := bit v 1, bme := bit v 2 }) } := rfl

/-- The Vendor and Device ID read as the header gives them (Table 00.1). -/
theorem configDword_id (s : State) (fn : Nat) : leBytes 4 (configDword s fn 0x00).toNat = [0x6C, 0x1F, 0x20, 0x05] := by
  have hfixed : configDword s fn 0x00 = 0x05201F6C := by
    simp [configDword, cfgReg, headerReg, dw]
  rw [hfixed]
  decide

end Functions

/-- Settles O18: by the link being up, and by what each register's write leaves. -/
theorem hostFunctions : Obligations.HostFunctions := by
  unfold Obligations.HostFunctions
  refine ⟨fun s fn v hup => ?command, fun s fn reg v hup => ?write, fun s fn hup => ?id, fun s fn reg hup => ?read, fun s fn d3 hup => ?power,
    fun s fn hup => ?master, fun s fn hup => ?reset, fun s fn hup => ?down, fun s fn hfn hexists hpll hout => ?up⟩
  case command => exact congrArg _ ((configRequestEffect_write (reg := 0x04) hup).trans (congrArg (complete { fn := fn }) configPut_command))
  case write => exact congrArg _ (configRequestEffect_write hup)
  case id =>
    refine congrArg _ ((configRequestEffect_read hup).trans ?_)
    rw [show 0x00 / 4 * 4 = 0x00 from rfl, configDword_id]
    rfl
  case read => exact congrArg _ (configRequestEffect_read hup)
  case power | master | reset | down => exact congrArg _ (if_pos hup)
  case up => exact congrArg _ (if_pos (by simp [hfn, hexists, hpll, hout]))

/-! ### Mailboxes -/

section Mailboxes

variable {s : State} {p : Nat}

theorem takeGo_new (h : (tget s.mbx p).last ≠ some (mbxBytes s p 0 64)) :
    takeGo p s = takeIn (64 * p) { dws := bytesDw (mbxBytes s p 0 64) } { s with mbx := tmod s.mbx p (fun m => { m with busy := true }) } :=
  if_neg h

theorem takeGo_repeat (h : (tget s.mbx p).last = some (mbxBytes s p 0 64)) : takeGo p s = repeatReply p s := if_pos h

theorem writeGo_taken (hout : s.bring.inReset = false) (hfree : (tget s.mbx p).busy = false) (hserves : (tget s.ports p).resetting = false) :
    writeGo p s = takeGo p s := by
  simp [writeGo, hout, hfree, hserves]

theorem writeGo_busy (hout : s.bring.inReset = false) (hbusy : (tget s.mbx p).busy = true) :
    writeGo p s = bump cntCmdRetry (unitId 0x0C p) { s with mbx := tmod s.mbx p (fun m => { m with retry := true }) } := by
  simp [writeGo, hout, hbusy, portUnit, tmod]

theorem writeGo_held (hout : s.bring.inReset = false) (hfree : (tget s.mbx p).busy = false) (hreset : (tget s.ports p).resetting = true) :
    writeGo p s = { s with mbx := tmod s.mbx p (fun m => { m with busy := true, held := true }) } := by
  simp [writeGo, hout, hfree, hreset, tmod]

theorem portResetCompleteEffect_serves (hreset : (tget s.ports p).resetting = true) (hnone : (tget s.mbx p).held = false) :
    portResetCompleteEffect p s = { s with ports := tmod s.ports p (fun o => { o with resetting := false }) } := by
  simp [portResetCompleteEffect, hreset, hnone]

theorem portResetCompleteEffect_takes (hreset : (tget s.ports p).resetting = true) (hheld : (tget s.mbx p).held = true) :
    portResetCompleteEffect p s = takeGo p { s with
      ports := tmod s.ports p (fun o => { o with resetting := false })
      mbx := tmod s.mbx p (fun m => { m with held := false, busy := false }) } := by
  simp [portResetCompleteEffect, hreset, hheld]

end Mailboxes

/-- Settles O19: by what the mailbox and its port are doing. -/
theorem mailboxEvents : Obligations.MailboxEvents := by
  unfold Obligations.MailboxEvents
  refine ⟨fun s p hp hout hfree hserves hnew => ?new, fun s p m hp hout hm hfree hserves hlast => ?again, fun s p hp hout hbusy => ?busy,
    fun s p hp hout hfree hreset => ?held, fun s p hreset hnone => ?serves, fun s p hreset hheld => ?takes⟩
  case new => exact congrArg _ ((if_pos hp).trans ((writeGo_taken hout hfree hserves).trans (takeGo_new hnew)))
  case again =>
    subst hm
    exact congrArg _ ((if_pos hp).trans ((writeGo_taken hout hfree hserves).trans (takeGo_repeat hlast)))
  case busy => exact congrArg _ ((if_pos hp).trans (writeGo_busy hout hbusy))
  case held => exact congrArg _ ((if_pos hp).trans (writeGo_held hout hfree hreset))
  case serves => exact congrArg _ (portResetCompleteEffect_serves hreset hnone)
  case takes => exact congrArg _ (portResetCompleteEffect_takes hreset hheld)

end Sys2Proof.Proofs
end

section
/-! PROOFS. The management port P2 over SMBus and I3C (R566, R567, R577 to R580), and the test access port (R568, R569, R581). -/

namespace Sys2Proof.Proofs

open Sys2Proof.Machine Sys2Proof.Safety Sys2Proof.Laws

/-! ### Transfers -/

section Transfers

variable {s : State} {x : P2Xfer} {good : Bool} {act : State → State} {b : Bool}

/-- A transfer that is heard, whole, in range and without a failed check is carried out. -/
theorem p2Take_acts (hheard : p2Heard s x = true) (hwhole : x.early = false) (hparity : s.p2.i3c = false ∨ x.parityError = false)
    (hpec : s.p2.i3c = true ∨ x.pec ≠ some false) (hgood : good = true) : p2Take x good act s = act s := by
  have hsound : (s.p2.i3c && x.parityError) = false := by
    rcases hparity with h | h <;> simp [h]
  have hchecked : (!s.p2.i3c && x.pec == some false) = false := by
    rcases hpec with h | h <;> simp [h]
  simp [p2Take, hheard, hwhole, hsound, hchecked, hgood]

/-- One that ends early, has a parity error over I3C, or is out of range is counted and discarded. -/
theorem p2Take_broken (hheard : p2Heard s x = true) (hbroken : x.early = true ∨ (s.p2.i3c = true ∧ x.parityError = true)) :
    p2Take x good act s = bump cntP2XferErr 0 s := by
  have hdiscarded : (x.early || (s.p2.i3c && x.parityError) || !good) = true := by
    rcases hbroken with h | ⟨h, h'⟩ <;> simp [*]
  simp only [p2Take, hheard, hdiscarded, Bool.not_true, if_true]
  rfl

theorem p2Take_outside (hheard : p2Heard s x = true) (hrange : good = false) : p2Take x good act s = bump cntP2XferErr 0 s := by
  simp [p2Take, hheard, hrange, p2Discard]

/-- One whose PEC is wrong is counted apart (R579). -/
theorem p2Take_wrongPec (hheard : p2Heard s x = true) (hwhole : x.early = false) (hsmbus : s.p2.i3c = false) (hpec : x.pec = some false)
    (hgood : good = true) : p2Take x good act s = bump cntP2PecErr 0 s := by
  simp [p2Take, hheard, hwhole, hsmbus, hpec, hgood]

/-- SETPTR is a write-kind transfer. -/
theorem p2SetptrEffect_eq (x : P2Xfer) (off len : Nat) (s : State) : p2SetptrEffect x off len s =
    p2Take x (p2RangeOk s off (setptrLen s len)) (fun t => { t with p2 := { t.p2 with ptr := off, len := setptrLen s len } }) s := rfl

/-- A READ that is heard and whole answers its bytes. -/
theorem p2ReadEffect_answers (hheard : p2Heard s x = true) (hwhole : x.early = false) :
    p2ReadEffect x s = { s with p2 := { s.p2 with out := p2Out x s } } := by
  simp [p2ReadEffect, hheard, hwhole]

theorem p2Out_i3c (h : s.p2.i3c = true) : p2Out x s = mbxBytes s 2 s.p2.ptr (min s.p2.len s.p2.mrl) := if_pos h

theorem p2Out_smbus (hsmbus : s.p2.i3c = false) (hnone : x.pec = none) :
    p2Out x s = BitVec.ofNat 8 s.p2.len :: mbxBytes s 2 s.p2.ptr s.p2.len := by
  simp [p2Out, hsmbus, hnone]

theorem p2Out_pec {body : List Byte} (hsmbus : s.p2.i3c = false) (hpec : x.pec = some b)
    (hbody : body = BitVec.ofNat 8 s.p2.len :: mbxBytes s 2 s.p2.ptr s.p2.len) :
    p2Out x s = body ++ [smbusPec ([BitVec.ofNat 8 (2 * x.addr), 0x03, BitVec.ofNat 8 (2 * x.addr + 1)] ++ body)] := by
  simp [p2Out, hsmbus, hpec, hbody]

end Transfers

/-- Settles O20: by what stops a write-kind transfer, and by the mode of a READ. -/
theorem p2Transfers : Obligations.P2Transfers := by
  unfold Obligations.P2Transfers
  refine ⟨fun s x off data hheard hwhole hparity hpec hrange => ?write, fun s x off data hheard hwhole hparity hpec hrange => ?go,
    fun s x off len hheard hwhole hparity hpec hrange => ?ptr, fun s x off data len hheard hbroken => ?broken,
    fun s x off data hheard hrange => ?outside, fun s x off len hheard hrange => ?ptrOutside,
    fun s x off data hheard hwhole hsmbus hpec hrange => ?pec, fun s x hheard hwhole hi3c => ?read,
    fun s x hheard hwhole hsmbus hnone => ?smbus, fun s x b body hheard hwhole hsmbus hpec hbody => ?smbusPec,
    fun s x hheard hearly => ?readEarly, fun s hout hsmbus hpins => ?timeout⟩
  case write | go => exact congrArg _ (p2Take_acts hheard hwhole hparity hpec hrange)
  case ptr => exact congrArg Host.Outcome.next ((p2SetptrEffect_eq ..).trans (p2Take_acts hheard hwhole hparity hpec hrange))
  case broken =>
    exact ⟨congrArg _ (p2Take_broken hheard hbroken), congrArg _ (p2Take_broken hheard hbroken),
      congrArg Host.Outcome.next ((p2SetptrEffect_eq ..).trans (p2Take_broken hheard hbroken))⟩
  case outside => exact ⟨congrArg _ (p2Take_outside hheard hrange), congrArg _ (p2Take_outside hheard hrange)⟩
  case ptrOutside => exact congrArg Host.Outcome.next ((p2SetptrEffect_eq ..).trans (p2Take_outside hheard hrange))
  case pec =>
    exact ⟨congrArg _ (p2Take_wrongPec hheard hwhole hsmbus hpec hrange), congrArg _ (p2Take_wrongPec hheard hwhole hsmbus hpec hrange)⟩
  case read => exact congrArg _ ((p2ReadEffect_answers hheard hwhole).trans (by rw [p2Out_i3c hi3c]))
  case smbus => exact congrArg _ ((p2ReadEffect_answers hheard hwhole).trans (by rw [p2Out_smbus hsmbus hnone]))
  case smbusPec => exact congrArg _ ((p2ReadEffect_answers hheard hwhole).trans (by rw [p2Out_pec hsmbus hpec hbody]))
  case readEarly => exact congrArg Host.Outcome.next (by simp [p2ReadEffect, hheard, hearly, p2Discard])
  case timeout => exact congrArg Host.Outcome.next (by simp [smbusTimeoutEffect, hout, hsmbus, hpins, p2Discard])

/-! ### Common command codes -/

/-- Settles O21: each code acts where P2 sees its bus in its mode, and SETMWL and SETMRL where the value is in range. -/
theorem i3cCodes : Obligations.I3cCodes := by
  unfold Obligations.I3cCodes
  refine ⟨fun s a hawake hsmbus => ?entdaa, fun s a hawake hsmbus => ?setdasa, fun s hi3c => ?rstdaa, fun s a hi3c => ?setnewda,
    fun s hi3c => ?getpid, fun s hi3c => ?getbcr, fun s hi3c => ?getdcr, fun s hi3c => ?getstatus, fun s hi3c => ?getmwl,
    fun s hi3c => ?getmrl, fun s v hi3c hlow hhigh => ?setmwl, fun s v hi3c hlow hhigh => ?setmrl, fun s v houtside => ?badMwl,
    fun s v houtside => ?badMrl, fun s => rfl, fun s => rfl, fun s a hi3c => ?rstact, fun s hi3c hcode => ?pattern,
    fun s a hcode hother hother' => ?otherCode⟩
  case entdaa | setdasa => exact congrArg _ (if_pos (by simp [hawake, hsmbus]))
  case rstdaa | setnewda | getpid | getbcr | getdcr | getstatus | getmwl | getmrl | rstact => exact congrArg _ (if_pos hi3c)
  case setmwl | setmrl => exact congrArg _ (if_pos (by simp [hi3c, hlow, hhigh]))
  case badMwl | badMrl =>
    refine congrArg _ (if_neg ?_)
    simp only [Bool.and_eq_true, decide_eq_true_eq]
    omega
  case pattern =>
    refine congrArg _ (if_pos ?_)
    rcases hcode with h | h | h <;> simp [hi3c, h]
  case otherCode => exact congrArg _ (if_neg (by simp [hcode, hother, hother']))

/-! ### The test access port -/

section Tap

variable {s : State} {v : BitVec 46} {i : Nat} {d : Dword}

/-- A field of one bit. -/
theorem mboxField_bit (v : BitVec 46) (n : Nat) : (mboxField v n n == 1) = v.getLsbD n := by
  rw [mboxField, Nat.add_sub_cancel_left, Nat.pow_one, BitVec.getLsbD, Nat.testBit_eq_decide_div_mod_eq]
  rfl

/-- Without REQ nothing starts. -/
theorem mboxField_bit_zero (v : BitVec 46) (n : Nat) : (mboxField v n n == 0) = !v.getLsbD n := by
  rw [← mboxField_bit]
  have hbit : mboxField v n n < 2 := by
    rw [mboxField, Nat.add_sub_cancel_left]
    exact Nat.mod_lt _ (by decide)
  rcases (by omega : mboxField v n n = 0 ∨ mboxField v n n = 1) with h | h <;> simp [h]

theorem mboxField_index (v : BitVec 46) : mboxField v 42 32 = v.toNat / 2 ^ 32 % 2 ^ 11 := rfl

theorem mboxField_data (v : BitVec 46) : mboxField v 31 0 = v.toNat % 2 ^ 32 := by
  rw [mboxField, Nat.pow_zero, Nat.div_one]

theorem mboxUpdateDrEffect_starts (hout : s.bring.inReset = false) (hir : s.tap.ir = 0x20) (hreq : v.getLsbD 45 = true)
    (hnone : s.tap.access = none) (hindex : v.toNat / 2 ^ 32 % 2 ^ 11 ≤ 1279) :
    mboxUpdateDrEffect v s = { s with tap := { s.tap with
      access := some (v.toNat / 2 ^ 32 % 2 ^ 11, if v.getLsbD 43 then some (dw (v.toNat % 2 ^ 32)) else none)
      didx := v.toNat / 2 ^ 32 % 2 ^ 11, wrBit := v.getLsbD 43, err := false, done := false } } := by
  rw [← mboxField_index] at hindex ⊢
  rw [← mboxField_data]
  simp only [mboxUpdateDrEffect, mboxField_bit, mboxField_bit_zero, hreq]
  generalize mboxField v 42 32 = i at hindex ⊢
  simp [hout, hir, hnone, Nat.not_lt.mpr hindex, onTap]

theorem mboxUpdateDrEffect_refused (hout : s.bring.inReset = false) (hir : s.tap.ir = 0x20) (hreq : v.getLsbD 45 = true)
    (hrefused : s.tap.access ≠ none ∨ 1279 < v.toNat / 2 ^ 32 % 2 ^ 11) :
    mboxUpdateDrEffect v s = bump cntP3MboxErr 0 { s with tap := { s.tap with err := true } } := by
  rw [← mboxField_index] at hrefused
  simp only [mboxUpdateDrEffect, mboxField_bit_zero, hreq]
  generalize mboxField v 42 32 = i at hrefused ⊢
  have hbar : (s.tap.access.isSome || decide (1279 < i)) = true := by
    rcases hrefused with h | h
    · simp [Option.isSome_iff_ne_none.mpr h]
    · simp [h]
  simp [hout, hir, hbar, onTap]

theorem mboxUpdateDrEffect_idle (hreq : v.getLsbD 45 = false) : mboxUpdateDrEffect v s = s := by
  simp only [mboxUpdateDrEffect, mboxField_bit_zero, hreq, Bool.not_false, Bool.or_true, if_true]

/-- An access that completes has its effect; a reset that waited for it begins after it (R581). -/
theorem mboxAccessCompleteEffect_of {w : Option Dword} (haccess : s.tap.access = some (i, w)) :
    mboxAccessCompleteEffect s =
      if s.tap.resetDue then
        portReset 3 (mboxAccess i w (onTap (fun t => { t with access := none, done := true, resetDue := false }) s))
      else mboxAccess i w (onTap (fun t => { t with access := none, done := true, resetDue := false }) s) := by
  rw [mboxAccessCompleteEffect, haccess]

end Tap

/-- Settles O22: by the instruction selected, and by the access in progress. -/
theorem tapInstructions : Obligations.TapInstructions := by
  unfold Obligations.TapInstructions
  refine ⟨fun s => rfl, fun s => rfl, fun s => rfl, fun s => rfl, fun s => rfl, fun s => rfl, fun s => rfl,
    fun s v hout hir hreq hnone hindex => ?starts, fun s v hout hir hreq hrefused => ?refused, fun s v hreq => ?idle, fun s hir => ?capture,
    fun s i haccess hdue => ?reads, fun s i d haccess hdue => ?writes, fun s i haccess hdue => ?readsReset, fun s hnone => ?trst,
    fun s haccess => ?trstWaits⟩
  case starts => exact congrArg _ (mboxUpdateDrEffect_starts hout hir hreq hnone hindex)
  case refused => exact congrArg _ (mboxUpdateDrEffect_refused hout hir hreq hrefused)
  case idle => exact congrArg _ (mboxUpdateDrEffect_idle hreq)
  case capture => exact congrArg _ (if_pos hir)
  case reads => exact congrArg Host.Outcome.next ((mboxAccessCompleteEffect_of haccess).trans (by rw [hdue]; rfl))
  case writes => exact congrArg Host.Outcome.next ((mboxAccessCompleteEffect_of haccess).trans (by rw [hdue]; rfl))
  case readsReset => exact congrArg Host.Outcome.next ((mboxAccessCompleteEffect_of haccess).trans (by rw [hdue]; rfl))
  case trst =>
    refine congrArg Host.Outcome.next (if_neg ?_)
    simp [selectIr, onTap, hnone]
  case trstWaits =>
    refine congrArg _ (if_pos ?_)
    simpa [selectIr, onTap] using Option.isSome_iff_ne_none.mpr haccess

end Sys2Proof.Proofs
end

section
/-! PROOFS. Resets and bring-up (R536 to R540, R546 to R549, R556, R562 to R564, R613, R615): pins by how long they are held, and stages by
their number. -/

namespace Sys2Proof.Proofs

open Sys2Proof.Machine Sys2Proof.Safety Sys2Proof.Laws

/-! ### Resets -/

section Resets

variable {s : State} {ns k : Nat} {b : Bring}

theorem systemReset_begins (h : s.bring.inReset = false) : systemReset b s = heldInReset false b s := if_neg (by simp [h])

theorem systemReset_joins (h : s.bring.inReset = true) : systemReset b s = { s with bring := b } := if_pos h

/-- A reset pin held long enough resets (R615). -/
theorem resetPin_long (h : 10000 ≤ ns) : resetPin ns b s = systemReset b s := by
  rw [resetPin, if_neg (by omega), if_pos h]

theorem resetPin_short (h : ns < 1000) : resetPin ns b s = s := if_pos h

/-- The root PLL's loss of lock is a system reset (R536). -/
theorem pllLockLossEffect_root (hout : s.bring.inReset = false) (hpll : s.bring.pll = true) :
    pllLockLossEffect none s = heldInReset false (heldBring s) s :=
  (if_pos (by simp [hout, hpll])).trans (systemReset_begins hout)

/-- So is an HBM PHY PLL's from S3 on (R562). -/
theorem pllLockLossEffect_hbm (hk : k < 8) (hout : s.bring.inReset = false) (hpll : s.bring.pll = true) (hstage : 3 ≤ s.bring.stage) :
    pllLockLossEffect (some k) s = heldInReset false (heldBring s) s :=
  (if_pos (by simp [hk, hout, hpll, hstage])).trans (systemReset_begins hout)

theorem serdesPllLockLossEffect_down {p : Nat} (h : (tget s.pel p).st = .active ∨ (tget s.pel p).st = .sleep) :
    serdesPllLockLossEffect p s = portDown p downFrame false s := by
  rcases h with h | h <;> simp [serdesPllLockLossEffect, h]

theorem serdesPllLockLossEffect_training {p : Nat} (h : (tget s.pel p).st = .training) :
    serdesPllLockLossEffect p s = trainFail p stLinkTrainFailed downTrain false s := by
  simp [serdesPllLockLossEffect, h]

/-- Release of a device that is held in reset samples the straps, and S1 runs or has failed (R539, R564). -/
theorem resetReleaseEffect_of {strap addr : Nat} {dbgoff : Bool} (hheld : s.bring.inReset = true) :
    resetReleaseEffect strap addr dbgoff s = (
      let t := { State.released s.ledger (strap % 4) (addr % 8) dbgoff with
        pending := s.pending, freeCtr := s.freeCtr, hostOut := s.hostOut, cplOut := s.cplOut, tap := s.tap }
      if 2 ≤ strap % 4 then failStageNow 1 0x04 t else t) :=
  if_neg (by simp [hheld])

end Resets

/-- Settles O23: pin by pin, and by whether a reset is held already. -/
theorem resetEvents : Obligations.ResetEvents := by
  unfold Obligations.ResetEvents
  refine ⟨fun s => rfl, fun s ns hlong => ?dip, fun s ns hlong hout => ?sysRst, fun s ns hlong hout => ?perst,
    fun s ns hlong hheld => ?joins, fun s ns hshort => ?short, fun s b a d hheld hbif => ?release, fun s b a d hheld hbif => ?releaseFails,
    fun s hruns hstage => ?lock, fun s hout hpll => ?rootLoss, fun s k hk hout hpll hstage => ?hbmLoss, fun s p hst => ?serdesDown,
    fun s p hst => ?serdesTraining⟩
  case dip => exact congrArg _ (if_pos hlong)
  case sysRst | perst => exact congrArg _ ((resetPin_long hlong).trans (systemReset_begins hout))
  case joins => exact ⟨congrArg _ ((resetPin_long hlong).trans (systemReset_joins hheld)),
      congrArg _ ((resetPin_long hlong).trans (systemReset_joins hheld))⟩
  case short => exact ⟨congrArg _ (resetPin_short hshort), congrArg _ (resetPin_short hshort), congrArg _ (if_neg (by omega))⟩
  case release => exact congrArg _ ((resetReleaseEffect_of hheld).trans (if_neg (by omega)))
  case releaseFails => exact congrArg _ ((resetReleaseEffect_of hheld).trans (if_pos hbif))
  case lock => exact congrArg _ (if_pos ⟨hruns, hstage⟩)
  case rootLoss => exact congrArg _ (pllLockLossEffect_root hout hpll)
  case hbmLoss => exact congrArg _ (pllLockLossEffect_hbm hk hout hpll hstage)
  case serdesDown => exact congrArg _ (serdesPllLockLossEffect_down hst)
  case serdesTraining => exact congrArg _ (serdesPllLockLossEffect_training hst)

/-! ### Stages -/

section Stages

variable {s : State} {avs : List Bool} {cause unit n k : Nat}

/-- The end of a stage that runs, by its number (R546, R547). -/
theorem stageEndEffect_of (hruns : stageRuns s = true) (hpll : s.bring.pll = true) (hs3 : s.bring.s3done = false) :
    stageEndEffect avs s = raise attnBringup .all (
      if s.bring.stage = 1 then endS1 avs (stampEnd s) else if s.bring.stage = 2 then endS2 (stampEnd s) else endS3 (stampEnd s)) :=
  if_neg (by simp [hruns, hpll, hs3])

theorem runningStage_of (hstage : s.bring.stage = k) (hs3 : s.bring.s3done = false) : runningStage s.bring = k := by
  simp [runningStage, hstage, hs3]

/-- Where S3 is over, S4 runs. -/
theorem runningStage_four (hstage : s.bring.stage = 3) (hs3 : s.bring.s3done = true) : runningStage s.bring = 4 := by
  simp [runningStage, hstage, hs3]

theorem stampEnd_of (h : runningStage s.bring = k + 1) :
    stampEnd s = { s with bring := { s.bring with ends := s.bring.ends.set k (s.timebase / 100) } } := by
  rw [stampEnd, h, Nat.add_sub_cancel]

/-- S4's end, by whether REPLACE is pinned (R430). -/
theorem s4ReachedEffect_of (hruns : stageRuns s = true) (hs3 : s.bring.s3done = true) :
    s4ReachedEffect s = (
      let u := { stampEnd s with bring := { (stampEnd s).bring with stage := 4 } }
      raise attnBringup .all
        (if replacePinned s then beginCondition attnReplace { u with integ := { u.integ with dstate := .retired } } else u)) :=
  if_neg (by simp [hruns, hs3])

/-- A stage fails for one of its causes: the failure, then its record (R548, R549). -/
theorem stageDeadlineEffect_of (hruns : stageRuns s = true) (hcause : (causesOf (runningStage s.bring)).contains cause = true)
    (hnames : causeNames cause unit = true) :
    stageDeadlineEffect cause unit n s = bringupRecord (runningStage s.bring) cause unit (failStageNow (runningStage s.bring) cause
      (if runningStage s.bring = 3 then { s with bring := { s.bring with failed := n % 256, trained := 255 - n % 256 } } else s)) :=
  if_neg (by rw [hruns, hcause, hnames]; decide)

theorem causeNames_of_unrecorded (h : unrecorded cause = true) : causeNames cause unit = true := by
  simp [causeNames, h]

end Stages

/-- Every cause of S3 writes a record. -/
theorem recorded_of_s3 {cause : Nat} (h : (causesOf 3).contains cause = true) : unrecorded cause = false := by
  have hcases : cause = 0x3F ∨ cause = 0x20 ∨ cause = 0x21 := by simpa [causesOf] using h
  rcases hcases with rfl | rfl | rfl <;> rfl

/-- Settles O24: the ends by their number, the failures by stage and cause. -/
theorem stageEvents : Obligations.StageEvents := by
  unfold Obligations.StageEvents
  refine ⟨fun s avs hruns hpll hstage hs3 => ?s1, fun s avs hruns hpll hstage hs3 => ?s2, fun s avs hruns hpll hstage hs3 => ?s3,
    fun s hruns hstage hs3 hkeeps => ?s4, fun s hruns hstage hs3 hpinned => ?s4Retired,
    fun s cause unit n hruns hother hcause hnone => ?unrecorded, fun s cause unit n hruns hother hcause hrecord hnames => ?recorded,
    fun s cause unit n hruns hthree hcause hnames => ?three⟩
  case s1 =>
    refine congrArg _ ((stageEndEffect_of hruns hpll hs3).trans ?_)
    rw [stampEnd_of (runningStage_of hstage hs3), if_pos hstage]
    rfl
  case s2 =>
    refine congrArg _ ((stageEndEffect_of hruns hpll hs3).trans ?_)
    rw [stampEnd_of (runningStage_of hstage hs3), if_neg (by omega), if_pos hstage]
    rfl
  case s3 =>
    refine congrArg _ ((stageEndEffect_of hruns hpll hs3).trans ?_)
    rw [stampEnd_of (runningStage_of hstage hs3), if_neg (by omega), if_neg (by omega)]
    rfl
  case s4 =>
    refine congrArg _ ((s4ReachedEffect_of hruns hs3).trans ?_)
    rw [stampEnd_of (runningStage_four hstage hs3), hkeeps]
    rfl
  case s4Retired =>
    refine congrArg _ ((s4ReachedEffect_of hruns hs3).trans ?_)
    rw [stampEnd_of (runningStage_four hstage hs3), hpinned]
    rfl
  case unrecorded =>
    refine congrArg _ ((stageDeadlineEffect_of hruns hcause (causeNames_of_unrecorded hnone)).trans ?_)
    rw [if_neg hother, bringupRecord, if_pos hnone, failStageNow]
  case recorded =>
    refine congrArg _ ((stageDeadlineEffect_of hruns hcause hnames).trans ?_)
    rw [if_neg hother, bringupRecord, if_neg (by simp [hrecord]), failStageNow]
  case three =>
    rw [← hthree] at hcause
    refine congrArg _ ((stageDeadlineEffect_of hruns hcause hnames).trans ?_)
    rw [hthree] at hcause
    rw [hthree, if_pos rfl, bringupRecord, if_neg (by simp [recorded_of_s3 hcause]), failStageNow]

end Sys2Proof.Proofs
end

section
/-! PROOFS. A tile's sequencer and units (chapter 05): each event comes to one operation of its unit, by what the tile finds. -/

namespace Sys2Proof.Proofs

open Sys2Proof.Machine Sys2Proof.Safety Sys2Proof.Laws

/-! ### The sequencer -/

section Sequencer

variable {s : State} {t k : Nat} {f : EccFinding} {w : Fenced} {o : LoadOp}

theorem bundleIssueEffect_issues (hissue : canIssue s t = true) (hown : isShadow s t = false) (hsound : fatalEcc f = false)
    (hclear : codecFence t (countEcc (unitId 0x01 t) f s) = none) :
    bundleIssueEffect t f s = issueBundle t (countEcc (unitId 0x01 t) f s) := by
  simp [bundleIssueEffect, hissue, hown, hsound, hclear]

theorem bundleIssueEffect_waits (hissue : canIssue s t = true) (hown : isShadow s t = false) (hsound : fatalEcc f = false)
    (hfence : codecFence t (countEcc (unitId 0x01 t) f s) = some w) :
    bundleIssueEffect t f s = onTile t (fun x => { x with ctries := x.ctries + 1 })
      (turnedAway (viaTile t) (some (tilePart s t)) w (countEcc (unitId 0x01 t) f s)) := by
  simp [bundleIssueEffect, hissue, hown, hsound, hfence]

theorem bundleIssueEffect_dies (hissue : canIssue s t = true) (hown : isShadow s t = false) (hfatal : fatalEcc f = true) :
    bundleIssueEffect t f s = arrayDies t (unitId 0x01 t) 0 (tget s.tiles t).pc (countEcc (unitId 0x01 t) f s) := by
  simp [bundleIssueEffect, hissue, hown, hfatal]

theorem watchdogEffect_ends (hruns : (tget s.tiles t).running = true) (hgoing : finished s t = false) (hstuck : canIssue s t = false)
    (hown : isShadow s t = false) : watchdogEffect t s = endTile t stWatchdog 0 (tget s.tiles t).pc 0 s :=
  if_pos (by simp [hruns, hgoing, hstuck, hown])

theorem programLoadCompleteEffect_finishes (hfound : s.loads.find? (fun x => x.ticket == o.ticket) = some o)
    (hgoes : loadWaits s (loadTiles s o) = false) : programLoadCompleteEffect o.ticket s = finishLoad o s := by
  simp [programLoadCompleteEffect, hfound, hgoes]

end Sequencer

/-- Settles O25: event by event. -/
theorem sequencerEvents : Obligations.SequencerEvents := by
  unfold Obligations.SequencerEvents
  refine ⟨fun s t f s1 hissue hown hsound hs1 hclear => ?issues, fun s t f s1 w hissue hown hsound hs1 hfence => ?waits,
    fun s t f hissue hown hfatal => ?dies, fun s t c n ht hc hlow hhigh => ?token, fun s t hruns hgoing hstuck hown => ?watchdog,
    fun s k hruns hover => ?complete, fun s o hfound hgoes => ?load⟩
  case issues =>
    subst hs1
    exact congrArg Host.Outcome.next (bundleIssueEffect_issues hissue hown hsound hclear)
  case waits =>
    subst hs1
    exact congrArg Host.Outcome.next (bundleIssueEffect_waits hissue hown hsound hfence)
  case dies => exact congrArg Host.Outcome.next (bundleIssueEffect_dies hissue hown hfatal)
  case token => exact congrArg Host.Outcome.next (if_pos ⟨ht, hc, hlow, hhigh⟩)
  case watchdog => exact congrArg Host.Outcome.next (watchdogEffect_ends hruns hgoing hstuck hown)
  case complete => exact congrArg Host.Outcome.next (if_pos ⟨hruns, hover⟩)
  case load => exact congrArg Host.Outcome.next (programLoadCompleteEffect_finishes hfound hgoes)

/-! ### MOVE -/

section Moves

variable {s s0 : State} {t e : Nat} {o : UOp} {src dst : List Piece} {m : MoveOp} {q : McSend}

theorem copyEffect_starts (h : nextMove s t 1 = some o) : copyEffect t s = startCopy t o s := by
  rw [copyEffect, h]

theorem mcastEffect_starts (h : nextMove s t 2 = some o) : mcastEffect t s = startMcast t o s := by
  rw [mcastEffect, h]

/-- The source of a COPY is checked before its destination (R194). -/
theorem startCopy_badSource (hs0 : s0 = onTile t (fun x => { x with mq := x.mq.tail }) s)
    (hsrc : xlate s0 (tilePart s t) false o.a1 o.b.moveLen = .error e) : startCopy t o s = faultTile t e slotMove o.bundle s0 := by
  subst hs0
  simp [startCopy, hsrc]

theorem startCopy_badDestination (hs0 : s0 = onTile t (fun x => { x with mq := x.mq.tail }) s)
    (hsrc : xlate s0 (tilePart s t) false o.a1 o.b.moveLen = .ok src)
    (hdst : xlate s0 (tilePart s t) true o.a2 o.b.moveLen = .error e) : startCopy t o s = faultTile t e slotMove o.bundle s0 := by
  subst hs0
  simp [startCopy, hsrc, hdst]

theorem startCopy_reads (hs0 : s0 = onTile t (fun x => { x with mq := x.mq.tail }) s)
    (hsrc : xlate s0 (tilePart s t) false o.a1 o.b.moveLen = .ok src)
    (hdst : xlate s0 (tilePart s t) true o.a2 o.b.moveLen = .ok dst) :
    startCopy t o s = (
      let cs := copyChunks src dst
      let s1 := dst.foldl (fun u p => countSpill (tilePart s t) true p u) (src.foldl (fun u p => countSpill (tilePart s t) false p u) s0)
      let s2 := onTile t (fun x => { x with mv := some { op := o, active := cs.length, dest := dst.head?.bind (fun p => tileAt p.dev) } }) s1
      cs.foldl (fun u c => sendReq (rdPkt (tileRouter t) 0 (tilePart s t) false c.src c.len) (.moveRead t c) (noteSource c u)) s2) := by
  subst hs0
  simp only [startCopy, hsrc, hdst]

theorem startMcast_badSource (hsrc : mcastSource s (tilePart s t) o = .error e) :
    startMcast t o s = faultTile t e slotMove o.bundle (onTile t (fun x => { x with mq := x.mq.tail }) s) := by
  simp [startMcast, hsrc]

theorem startMcast_waits (hsrc : mcastSource s (tilePart s t) o = .ok src) (hnone : freeTag s (tileRouter t) 0 = none) :
    startMcast t o s = s := by
  simp [startMcast, hsrc, hnone]

theorem moveCompleteEffect_copy (hmv : (tget s.tiles t).mv = some m) (hall : m.active = 0) :
    moveCompleteEffect t s = endMove t m.op (copyToken t m (onTile t (fun y => { y with mv := none }) s)) := by
  simp [moveCompleteEffect, hmv, hall]

theorem moveCompleteEffect_mcast (hnone : (tget s.tiles t).mv = none) (hsend : (tget s.tiles t).send = some q) (hall : q.finished = true) :
    moveCompleteEffect t s = endMcast t q s := by
  simp [moveCompleteEffect, hnone, hsend, hall]

end Moves

/-- Settles O26: by the front operation and its window checks. -/
theorem moveEvents : Obligations.MoveEvents := by
  unfold Obligations.MoveEvents
  refine ⟨fun s t o e s0 hnext hs0 hsrc => ?badSource, fun s t o src e s0 hnext hs0 hsrc hdst => ?badDestination,
    fun s t o src dst s0 hnext hs0 hsrc hdst => ?reads, fun s t o e hnext hsrc => ?mcastBad, fun s t o src tag hnext hsrc htag => ?mcast,
    fun s t o src hnext hsrc hnone => ?mcastWaits, fun s t m hmv hall => ?copyEnds, fun s t m hnone hsend hall => ?mcastEnds⟩
  case badSource => exact congrArg Host.Outcome.next ((copyEffect_starts hnext).trans (startCopy_badSource hs0 hsrc))
  case badDestination => exact congrArg Host.Outcome.next ((copyEffect_starts hnext).trans (startCopy_badDestination hs0 hsrc hdst))
  case reads => exact congrArg Host.Outcome.next ((copyEffect_starts hnext).trans (startCopy_reads hs0 hsrc hdst))
  case mcastBad => exact congrArg Host.Outcome.next ((mcastEffect_starts hnext).trans (startMcast_badSource hsrc))
  case mcast => exact congrArg Host.Outcome.next (mcastEffect_starts hnext)
  case mcastWaits => exact congrArg Host.Outcome.next ((mcastEffect_starts hnext).trans (startMcast_waits hsrc hnone))
  case copyEnds => exact congrArg Host.Outcome.next (moveCompleteEffect_copy hmv hall)
  case mcastEnds => exact congrArg Host.Outcome.next (moveCompleteEffect_mcast hnone hsend hall)

end Sys2Proof.Proofs
end

section

/-! PROOFS. Expander, array and packer: what their events do. -/

namespace Sys2Proof.Proofs

open Sys2Proof.Machine Sys2Proof.Safety Sys2Proof.Laws

/-! ### The expander -/

section Expander

variable {s s1 : State} {t : Nat} {act g : Bool} {e : ExpOp} {o : UOp} {cs : List Copy} {x : Stop}

theorem expandEffect_starts (h : expandReady s t = some o) : expandEffect t s = startExpand t o s := by
  rw [expandEffect, h]

/-- A block in hand is decoded in every copy (R28, R437). -/
theorem blockConsumableEffect_decodes (hown : isShadow s t = false) (hblock : blockAt s t act = some e) :
    blockConsumableEffect t act g s = expandBlock t (e.glitched t g) s := by
  rw [blockConsumableEffect, hown, hblock]
  rfl

theorem blockConsumableEffect_shadow (hshadow : isShadow s t = true) : blockConsumableEffect t act true s = shadowGlitch t act s := by
  simp [blockConsumableEffect, hshadow]

theorem expandBlock_stops (h : blockCopies t e s = .error x) : expandBlock t e s = stopExpand t e x s := by
  rw [expandBlock, h]

theorem expandBlock_decoded (h : blockCopies t e s = .ok (cs, s1)) : expandBlock t e s = decodedBlock t e cs s1 := by
  rw [expandBlock, h]

/-- The copies that failed are fetched and decoded once more, and the replay that waited starts (R29, R40). -/
theorem blockRefetchEffect_fetched (hown : (tget s.tiles t).expander act = some e) (hfailed : e.refetch ≠ [])
    (hgot : fetched t e s = .ok s1) :
    blockRefetchEffect t act g s =
      runDue t (expandBlock t (e.renewed.glitched t g) (onTile t (fun x => x.setExpander act (some e.renewed)) s1)) := by
  simp [blockRefetchEffect, hown, hfailed, hgot]

theorem blockRefetchEffect_stops (hown : (tget s.tiles t).expander act = some e) (hfailed : e.refetch ≠ [])
    (hgot : fetched t e s = .error x) : blockRefetchEffect t act g s = stopExpand t e x s := by
  simp [blockRefetchEffect, hown, hfailed, hgot]

end Expander

/-- Settles O27: a block goes on by the outcome of its copies, of a first decode and of a fetch alike. -/
theorem expandEvents : Obligations.ExpandEvents := by
  unfold Obligations.ExpandEvents
  refine ⟨fun s t o h => ?starts, fun s t act g e x hown hblock hcopies => ?stops, fun s t act g e cs s1 hown hblock hcopies => ?decodes,
    fun s t act hshadow => ?shadow, fun s t act g e s1 hown hfailed hgot => ?refetch, fun s t act g e x hown hfailed hgot => ?refetchStops⟩
  case starts => exact congrArg Host.Outcome.next (expandEffect_starts h)
  case stops => exact congrArg Host.Outcome.next ((blockConsumableEffect_decodes hown hblock).trans (expandBlock_stops hcopies))
  case decodes => exact congrArg Host.Outcome.next ((blockConsumableEffect_decodes hown hblock).trans (expandBlock_decoded hcopies))
  case shadow => exact congrArg Host.Outcome.next (blockConsumableEffect_shadow hshadow)
  case refetch => exact congrArg Host.Outcome.next (blockRefetchEffect_fetched hown hfailed hgot)
  case refetchStops => exact congrArg Host.Outcome.next (blockRefetchEffect_stops hown hfailed hgot)

/-! ### MAC and PACK -/

section Array

variable {s s1 s2 : State} {t u n : Nat} {f : EccFinding} {o : UOp} {m : MacOp} {k : PackOp} {g : Bool} {w : List (Bool × Nat × Int)}
  {y : OutFail}

theorem arrayEcc_clean (part : Nat) : arrayEcc t part [] .clean s = s := rfl

theorem arrayFatal_clean : arrayFatal [] .clean = false := rfl

theorem macEffect_takes (hready : macReady s t = some o) (hsound : arrayFatal (macBad s t o.b) f = false) :
    macEffect t f s = macSlots t o.b .inUse .inUse (onTile t (fun x => { x with maq := x.maq.tail, mc := some { op := o } })
      (arrayEcc t (tilePart s t) (macBad s t o.b) f s)) := by
  simp [macEffect, hready, hsound]

theorem macEffect_dies (hready : macReady s t = some o) (hbad : arrayFatal (macBad s t o.b) f = true) :
    macEffect t f s = arrayDies t (unitId 0x01 t) slotMac o.bundle (arrayEcc t (tilePart s t) (macBad s t o.b) f s) := by
  simp [macEffect, hready, hbad]

/-- A row of a tile without a shadow is written on that tile alone. -/
theorem rowResultWrittenEffect_alone (hmac : (tget s.tiles t).mc = some m) (hgoes : gangStalled s t = false) (hno : shadowOf s t = none)
    (hs1 : s1 = spoilRow t (m.op.b.maccr + m.row * m.op.b.mstep) (errorsOf false w) (macResult t (membersOf s t) m.op.b m.row s)) :
    rowResultWrittenEffect t w s =
      if m.row + 1 < m.op.b.mrows then onTile t (fun x => { x with mc := some { m with row := m.row + 1 } }) s1 else endMac t m.op s1 := by
  subst hs1
  simp [rowResultWrittenEffect, Option.filter, hmac, hgoes, hno]

/-- A row of a DUAL tile is written on its shadow too (R437). -/
theorem rowResultWrittenEffect_dual (hmac : (tget s.tiles t).mc = some m) (hgoes : gangStalled s t = false) (hdual : shadowOf s t = some u)
    (hs1 : s1 = spoilRow t (m.op.b.maccr + m.row * m.op.b.mstep) (errorsOf false w) (macResult t (membersOf s t) m.op.b m.row s))
    (hs2 : s2 = spoilRow u (m.op.b.maccr + m.row * m.op.b.mstep) (errorsOf true w)
      (macResult u ((membersOf s t).map (· + 1)) m.op.b m.row s1)) :
    rowResultWrittenEffect t w s =
      if m.row + 1 < m.op.b.mrows then onTile t (fun x => { x with mc := some { m with row := m.row + 1 } }) s2 else endMac t m.op s2 := by
  subst hs2 hs1
  simp [rowResultWrittenEffect, Option.filter, hmac, hgoes, hdual]

theorem packEffect_dies (hready : packReady s t = some o) (hbad : arrayFatal (packBad s t o.b) f = true) :
    packEffect t f s = arrayDies t (unitId 0x03 t) slotPack o.bundle (arrayEcc t (tilePart s t) (packBad s t o.b) f s) := by
  simp [packEffect, hready, hbad]

theorem packEffect_reads (hready : packReady s t = some o) (hsound : arrayFatal (packBad s t o.b) f = false) :
    packEffect t f s = packRead t o (arrayEcc t (tilePart s t) (packBad s t o.b) f s) := by
  simp [packEffect, hready, hsound]

/-- With no bound, no shadow and no check of its program, the rows pass as they are converted. -/
theorem packRead_unchecked (hbound : packBound (tget s.tiles t) o.b = none) (hno : shadowOf s t = none) (hoff : (progOf s t).mode = .off) :
    packRead t o s = countConv (unitId 0x03 t) (packConv (tget s.tiles t) o.b) (onTile t (fun y =>
      let c := packConv (tget s.tiles t) o.b
      { y with pq := y.pq.tail, pk := some { bytes := c.bytes, elems := c.elems.map (fun e => BitVec.ofNat 8 e.x), op := o, passed := true } })
      s) := by
  have hnotDual : (CheckMode.off != CheckMode.dual) = true := rfl
  simp [packRead, hbound, hno, hoff, hnotDual]

theorem plausibilityDecisionEffect_passes (hpack : (tget s.tiles t).pk = some k) (hopen : k.passed = false)
    (hdue : (tget s.tiles t).due = none) (hdecided : decidePack t k g s = (none, s1)) :
    plausibilityDecisionEffect t g s = onTile t (fun y => { y with pk := some { k with passed := true } }) s1 := by
  simp [plausibilityDecisionEffect, hpack, hopen, hdue, hdecided]

theorem plausibilityDecisionEffect_fails (hpack : (tget s.tiles t).pk = some k) (hopen : k.passed = false)
    (hdue : (tget s.tiles t).due = none) (hdecided : decidePack t k g s = (some y, s1)) :
    plausibilityDecisionEffect t g s = outputFailed t y s1 := by
  simp [plausibilityDecisionEffect, hpack, hopen, hdue, hdecided]

theorem packOutputWrittenEffect_writes (hpack : (tget s.tiles t).pk = some k) (hpassed : k.passed = true)
    (hruns : (tget s.tiles t).stalled = false) (hsound : fatalEcc f = false) :
    packOutputWrittenEffect t f s = packOut t k (countEcc (unitId 0x01 t) f s) := by
  simp [packOutputWrittenEffect, hpack, hpassed, hruns, hsound]

theorem packOutputWrittenEffect_dies (hpack : (tget s.tiles t).pk = some k) (hpassed : k.passed = true)
    (hruns : (tget s.tiles t).stalled = false) (hbad : fatalEcc f = true) :
    packOutputWrittenEffect t f s = arrayDies t (packUnit t) slotPack k.op.bundle (countEcc (unitId 0x01 t) f s) := by
  simp [packOutputWrittenEffect, hpack, hpassed, hruns, hbad]

/-- An output asks for its context and is written once it holds it (R171). -/
theorem packOut_asks (hn : n = ((tget s.tiles t).streams.getD k.op.b.psidx (0, 0)).1) (hopen : streamsOpen s = true) :
    packOut t k s = if holdsCtx (askCtx (packUnit t) n (fillCtx n s)) (packUnit t) n
      then writePack t n k (askCtx (packUnit t) n (fillCtx n s)) else askCtx (packUnit t) n (fillCtx n s) := by
  subst hn
  simp [packOut, hopen]

end Array

/-- Settles O28: MAC's rows with and without a shadow, PACK's read, decision and write. -/
theorem macPackEvents : Obligations.MacPackEvents := by
  unfold Obligations.MacPackEvents
  refine ⟨fun s t f o s1 hready hs1 hsound => ?mac, fun s t f o hready hbad => ?macDies,
    fun s t w m s1 hmac hgoes hno hmore hs1 => ?row, fun s t w m s1 hmac hgoes hno hlast hs1 => ?lastRow,
    fun s t w m u r s1 s2 hmac hgoes hdual hr hs1 hs2 => ?dual, fun s t f o hready hbad => ?packDies,
    fun s t f o hready hsound => ?pack, fun s t o hready hbad hbound hno hoff => ?packPlain,
    fun s t g k s1 hpack hopen hdue hdecided => ?passes, fun s t g k f s1 hpack hopen hdue hdecided => ?fails,
    fun s t f k n s1 hpack hpassed hruns hsound hs1 hn hstreams => ?writes, fun s t k f hpack hpassed hruns hbad => ?writeDies⟩
  case mac =>
    subst hs1
    exact congrArg Host.Outcome.next (macEffect_takes hready hsound)
  case macDies => exact congrArg Host.Outcome.next (macEffect_dies hready hbad)
  case row => exact congrArg Host.Outcome.next ((rowResultWrittenEffect_alone hmac hgoes hno hs1).trans (if_pos hmore))
  case lastRow => exact congrArg Host.Outcome.next ((rowResultWrittenEffect_alone hmac hgoes hno hs1).trans (if_neg hlast))
  case dual =>
    subst hr
    exact congrArg Host.Outcome.next (rowResultWrittenEffect_dual hmac hgoes hdual hs1 hs2)
  case packDies => exact congrArg Host.Outcome.next (packEffect_dies hready hbad)
  case pack => exact congrArg Host.Outcome.next (packEffect_reads hready hsound)
  case packPlain =>
    have hread := packEffect_reads (f := .clean) hready (by rw [hbad, arrayFatal_clean])
    rw [hbad, arrayEcc_clean] at hread
    exact congrArg Host.Outcome.next (hread.trans (packRead_unchecked hbound hno hoff))
  case passes => exact congrArg Host.Outcome.next (plausibilityDecisionEffect_passes hpack hopen hdue hdecided)
  case fails => exact congrArg Host.Outcome.next (plausibilityDecisionEffect_fails hpack hopen hdue hdecided)
  case writes =>
    subst hs1
    exact congrArg Host.Outcome.next ((packOutputWrittenEffect_writes hpack hpassed hruns hsound).trans (packOut_asks hn hstreams))
  case writeDies => exact congrArg Host.Outcome.next (packOutputWrittenEffect_dies hpack hpassed hruns hbad)

end Sys2Proof.Proofs
end

section

/-! PROOFS. Stream contexts, codec engines and memory in time. -/

namespace Sys2Proof.Proofs

open Sys2Proof.Machine Sys2Proof.Safety Sys2Proof.Laws

/-! ### Stream contexts -/

section Contexts

variable {s : State} {u n tk b : Nat} {f : EccFinding}

theorem contextFillEffect_fills (hwaits : hasWaiters s n = true) (hopen : streamsOpen s = true) :
    contextFillEffect n s = fillCtx n s :=
  if_pos (by rw [hwaits, hopen]; rfl)

/-- The unit that has waited longest takes the context, once it is resident and free (R110). -/
theorem contextAcquireEffect_takes (hfirst : s.cm.waiting.find? (fun w => w.2 == n) = some (u, n)) (hfree : tget s.cm.holder n = none)
    (hin : resident s n = true) :
    contextAcquireEffect u n f s = takeCtx u n (ctxEcc n stPoisonConsumed (some (tget s.ctxs n).owner) f false (runFlush n s)) := by
  simp [contextAcquireEffect, hfirst, hfree, hin]

theorem contextBaseCompleteEffect_done (htk : s.cm.clearing = some tk) (hbase : s.cm.base = some b) :
    contextBaseCompleteEffect s = post tk stOk [] { zeroRange b 0x400000 s with
      ctxs := [], cm := { (zeroRange b 0x400000 s).cm with clearing := none, resident := [] } } := by
  rw [contextBaseCompleteEffect, htk, hbase]

end Contexts

/-- Settles O29: filling, taking and clearing contexts. -/
theorem contextEvents : Obligations.ContextEvents := by
  unfold Obligations.ContextEvents
  refine ⟨fun s n hwaits hopen => ?fills, fun s u n f hfirst hfree hin => ?takes, fun s tk b htk hbase => ?cleared⟩
  case fills => exact congrArg Host.Outcome.next (contextFillEffect_fills hwaits hopen)
  case takes => exact congrArg Host.Outcome.next (contextAcquireEffect_takes hfirst hfree hin)
  case cleared => exact congrArg Host.Outcome.next (contextBaseCompleteEffect_done htk hbase)

/-! ### Codec engines -/

section Engines

variable {s : State} {e st k t : Nat} {j : Job} {f : Fenced} {glitch : Bool}

/-- A job that did no sizing pass holds no context of its own, so its engine asks for one just where the job is ordered. -/
theorem codecSliceStartEffect_takes (he : e < 8) (hidle : (tget s.engines e).job = none) (hnext : sliceFor s e = some j)
    (hlowest : lowestFree s e j = true) (hsize : j.didSize = false) :
    codecSliceStartEffect e s =
      let s1 := putJob (j.onto e s) { s with engines := tset s.engines e { job := some j.id, slice := 0, lastPart := j.part } }
      if j.d.ordered then askCtx (engineKey e) j.d.stream (fillCtx j.d.stream s1) else s1 := by
  simp [codecSliceStartEffect, Job.pinned, Nat.not_le.mpr he, hidle, hnext, hlowest, hsize]

/-- No block is done of a job that has ended. -/
theorem blockReady_going (h : blockReady s e j = true) : j.ending.isSome = false := by
  simp only [blockReady, Bool.and_eq_true, Option.isNone_iff_eq_none] at h
  rw [h.1.1, Option.isSome_none]

theorem codecBlockDoneEffect_block (hjob : (tget s.engines e).job.bind (jobOf s) = some j) (hready : blockReady s e j = true)
    {r : Job × State} (hr : r = if j.pass = .queued then jobStart j s else (j, s)) :
    codecBlockDoneEffect e glitch s = blockDone e j (if r.1.ending.isSome then r else blockWork r.1 glitch r.2) s := by
  subst hr
  simp [codecBlockDoneEffect, hjob, hready]

theorem sizingPassDoneEffect_full (hjob : (tget s.engines e).job.bind (jobOf s) = some j) (hsized : j.pass = .sized)
    (hfull : j.d.dstlen < j.need) : sizingPassDoneEffect e s = putJob { j with ending := some stOutputFull, aux := j.need } s := by
  simp [sizingPassDoneEffect, hjob, hsized, hfull]

theorem sizingPassDoneEffect_writes (hjob : (tget s.engines e).job.bind (jobOf s) = some j) (hsized : j.pass = .sized)
    (hfits : j.need ≤ j.d.dstlen) :
    sizingPassDoneEffect e s = putJob { j.rewind with pass := .writing, saved := if j.d.ordered then j.saved else j.ownCtx } s := by
  simp [sizingPassDoneEffect, hjob, hsized, Nat.not_lt.mpr hfits]

/-- A job of no program writes no result: nothing turns it away and its status stands. -/
theorem resultGot_queued (hown : j.prog = none) : resultGot j s = { s := s } := by
  simp [resultGot, hown]

theorem codecJobEndEffect_queued (hjob : (tget s.engines e).job.bind (jobOf s) = some j) (hends : j.ending = some st)
    (hown : j.prog = none) : codecJobEndEffect e s = closeJob false j st s := by
  have hgot : resultGot j s = { s := s } := resultGot_queued hown
  have hgoes : (resultGot j s).stop.again j.tries = none := by rw [hgot]; rfl
  have hst : resultStatus j st s = st := by simp [resultStatus, hgot]
  simp only [codecJobEndEffect, hjob, hends, hgoes, hst, hown]

theorem codecJobEndEffect_program (hjob : (tget s.engines e).job.bind (jobOf s) = some j) (hends : j.ending = some st)
    (hprog : j.prog = some (k, t)) (hgoes : (resultGot j s).stop.again j.tries = none) :
    codecJobEndEffect e s = jobEndTile j k t (resultStatus j st s) (closeJob false j (resultStatus j st s) s) := by
  simp only [codecJobEndEffect, hjob, hends, hgoes, hprog]

theorem codecJobEndEffect_again (hjob : (tget s.engines e).job.bind (jobOf s) = some j) (hends : j.ending = some st)
    (hagain : (resultGot j s).stop.again j.tries = some f) :
    codecJobEndEffect e s = putJob { j with tries := j.tries + 1 } (turnedAway j.via (some j.part) f s) := by
  simp only [codecJobEndEffect, hjob, hends, hagain]

end Engines

/-- Settles O30: slices, blocks, the sizing pass and the end of a job. -/
theorem codecEvents : Obligations.CodecEvents := by
  unfold Obligations.CodecEvents
  refine ⟨fun s e j he hidle hnext hlowest hloose hsize => ?takes, fun s e j he hidle hnext hlowest hordered hsize => ?takesOrdered,
    fun s e g j hjob hready hqueued hgoes => ?starts, fun s e g j hjob hready hqueued hends => ?startEnds,
    fun s e g j hjob hready hunder => ?goesOn, fun s e j hjob hsized hfull => ?full, fun s e j hjob hsized hfits => ?writes,
    fun s e j st hjob hends hown => ?queuedEnds, fun s e j st k t hjob hends hprog hgoes => ?programEnds,
    fun s e j st f hjob hends hagain => ?again⟩
  case takes => exact congrArg Host.Outcome.next ((codecSliceStartEffect_takes he hidle hnext hlowest hsize).trans (by simp only [hloose]; rfl))
  case takesOrdered => exact congrArg Host.Outcome.next ((codecSliceStartEffect_takes he hidle hnext hlowest hsize).trans (if_pos hordered))
  case starts =>
    exact congrArg Host.Outcome.next ((codecBlockDoneEffect_block hjob hready (if_pos hqueued).symm).trans (by rw [hgoes]; rfl))
  case startEnds =>
    exact congrArg Host.Outcome.next ((codecBlockDoneEffect_block hjob hready (if_pos hqueued).symm).trans (by rw [hends]; rfl))
  case goesOn =>
    exact congrArg Host.Outcome.next ((codecBlockDoneEffect_block hjob hready (if_neg hunder).symm).trans (by rw [blockReady_going hready]; rfl))
  case full => exact congrArg Host.Outcome.next (sizingPassDoneEffect_full hjob hsized hfull)
  case writes => exact congrArg Host.Outcome.next (sizingPassDoneEffect_writes hjob hsized hfits)
  case queuedEnds => exact congrArg Host.Outcome.next (codecJobEndEffect_queued hjob hends hown)
  case programEnds => exact congrArg Host.Outcome.next (codecJobEndEffect_program hjob hends hprog hgoes)
  case again => exact congrArg Host.Outcome.next (codecJobEndEffect_again hjob hends hagain)

/-! ### Memory in time -/

theorem windowMapCompleteEffect_done {s : State} {part win : Nat} (h : (tget s.windows (winKey part win)).zeroing = true) :
    windowMapCompleteEffect part win s = (
      let w := tget s.windows (winKey part win)
      let t := (zeroedRanges w).foldl (fun u r => zeroRange r.1 r.2 u) s
      post w.ticket stOk [dw w.resident, dw w.spilled]
        { t with windows := tset t.windows (winKey part win) { w with valid := true, zeroing := false, ticket := 0 } }) := by
  simp [windowMapCompleteEffect, h]

theorem scrubBurstEffect_scrubs {s : State} {unit a : Nat} {found : EccFinding} {last : Bool} (h : scrubs s unit a = true) :
    scrubBurstEffect unit a found last s =
      let s1 := surface (latentIn s a 1) s
      let s2 := eccAt a (scrubFinding s1 a found) false s1
      if last then bump cntScrubPass unit s2 else s2 := by
  simp [scrubBurstEffect, h]

/-- Settles O31: the map that completes and the scrubber's burst; refresh and calibration keep the state. -/
theorem memoryEvents : Obligations.MemoryEvents := by
  unfold Obligations.MemoryEvents
  refine ⟨fun s part win h => ?map, fun s unit a found h => ?lastBurst, fun s unit a found h => ?burst, fun s stack => ?refresh,
    fun s stack channel => ?calibration⟩
  case map => exact congrArg Host.Outcome.next (windowMapCompleteEffect_done h)
  case lastBurst => exact congrArg Host.Outcome.next ((scrubBurstEffect_scrubs h).trans (if_pos rfl))
  case burst => exact congrArg Host.Outcome.next ((scrubBurstEffect_scrubs h).trans (if_neg Bool.false_ne_true))
  case refresh => rfl
  case calibration => rfl

end Sys2Proof.Proofs
end

section

/-! PROOFS. The on-chip network: how an endpoint takes a packet, and requests at their targets. -/

namespace Sys2Proof.Proofs

open Sys2Proof.Machine Sys2Proof.Safety Sys2Proof.Laws

/-! ### How an endpoint takes a packet -/

section Arrival

variable {s s0 t : State} {typ vn : Nat} {k : NocPkt} {d : Damage} {a : Arrived} {act : NocPkt → State → State}

@[simp] theorem asTaken_typ : (asTaken k).typ = k.typ := rfl
@[simp] theorem asTaken_addr : (asTaken k).addr = k.addr := rfl
@[simp] theorem asTaken_dest : (asTaken k).dest = k.dest := rfl
@[simp] theorem asTaken_dport : (asTaken k).dport = k.dport := rfl
@[simp] theorem asTaken_sys : (asTaken k).sys = k.sys := rfl
@[simp] theorem asTaken_src : (asTaken k).src = k.src := rfl
@[simp] theorem asTaken_tag : (asTaken k).tag = k.tag := rfl
@[simp] theorem asTaken_len : (asTaken k).len = k.len := rfl
@[simp] theorem asTaken_data : (asTaken k).data = k.data := rfl
@[simp] theorem asTaken_status : (asTaken k).status = k.status := rfl
@[simp] theorem asTaken_hint : (asTaken k).hint = k.hint := rfl
@[simp] theorem asTaken_reason : (asTaken k).reason = k.reason := rfl

theorem wholeAt_typ (h : wholeAt s typ vn k d = true) : k.typ = typ := by
  simp only [wholeAt, Bool.and_eq_true, beq_iff_eq] at h
  exact h.1.1.1.1.1.1.1.1.1

theorem rdEffect_whole (hs0 : s0 = spoilWords d.ecc s) (h : wholeAt s0 0x01 0 k d = true) :
    rdEffect k d s = serveReq (asTaken k) (landed k d s0) := by
  subst hs0
  exact unicast_whole (act := serveReq) h

theorem wrEffect_whole (h : wholeAt s 0x02 0 k d = true) : wrEffect k d s = serveReq (asTaken k) (landed k d s) :=
  unicast_whole (act := serveReq) h

theorem tokenEffect_whole (h : wholeAt s 0x03 0 k d = true) : tokenEffect k d s = serveReq (asTaken k) (landed k d s) :=
  unicast_whole (act := serveReq) h

theorem cfgRdEffect_whole (h : wholeAt s 0x04 0 k d = true) : cfgRdEffect k d s = serveCfg (asTaken k) (landed k d s) :=
  unicast_whole (act := serveCfg) h

theorem cfgWrEffect_whole (h : wholeAt s 0x05 0 k d = true) : cfgWrEffect k d s = serveCfg (asTaken k) (landed k d s) :=
  unicast_whole (act := serveCfg) h

/-- RD, WR and TOKEN are taken alike once they arrive whole. -/
theorem exec_request_whole {mk : NocPkt → Damage → Instr}
    (hmk : (k.typ, mk) ∈ [(0x01, Instr.rd), (0x02, Instr.wr), (0x03, Instr.token)])
    (hs0 : s0 = if k.typ = 0x01 then spoilWords d.ecc s else s) (h : wholeAt s0 k.typ 0 k d = true) :
    exec (mk k d) s = .next (serveReq (asTaken k) (landed k d s0)) := by
  simp only [List.mem_cons, Prod.mk.injEq, List.not_mem_nil, or_false] at hmk
  rcases hmk with ⟨ht, rfl⟩ | ⟨ht, rfl⟩ | ⟨ht, rfl⟩ <;> rw [ht] at h hs0
  case inl => exact congrArg Host.Outcome.next (rdEffect_whole hs0 h)
  case inr.inl =>
    subst hs0
    exact congrArg Host.Outcome.next (wrEffect_whole h)
  case inr.inr =>
    subst hs0
    exact congrArg Host.Outcome.next (tokenEffect_whole h)

/-- Every unicast packet is carried in one way, whatever its endpoint does with it. -/
theorem exec_unicast {mk : NocPkt → Damage → Instr}
    (hmk : (k.typ, mk) ∈ [(0x01, Instr.rd), (0x02, Instr.wr), (0x03, Instr.token), (0x04, Instr.cfgRd), (0x05, Instr.cfgWr),
      (0x08, Instr.rdData), (0x09, Instr.wrAck), (0x0A, Instr.nack), (0x0B, Instr.mcGrant), (0x0C, Instr.mcResult)])
    (hs0 : s0 = if k.typ = 0x01 then spoilWords d.ecc s else s) :
    ∃ act, exec (mk k d) s = .next (unicast k.typ k d act s0) := by
  simp only [List.mem_cons, Prod.mk.injEq, List.not_mem_nil, or_false] at hmk
  rcases hmk with ⟨ht, rfl⟩ | hmk
  · rw [if_pos ht] at hs0
    subst hs0
    exact ⟨serveReq, ht ▸ rfl⟩
  · have hclean : s0 = s := by
      rw [hs0, if_neg]
      omega
    subst hclean
    rcases hmk with ⟨ht, rfl⟩ | ⟨ht, rfl⟩ | ⟨ht, rfl⟩ | ⟨ht, rfl⟩ | ⟨ht, rfl⟩ | ⟨ht, rfl⟩ | ⟨ht, rfl⟩ | ⟨ht, rfl⟩ | ⟨ht, rfl⟩
    all_goals exact ⟨_, by rw [ht]; rfl⟩

section Carried

variable (harrive : arrive k d s = (a, t)) (hcame : a.came = true)
include harrive hcame

theorem unicast_nowhere (hfar : 99 < k.dest) :
    unicast k.typ k d act s = dropPkt k.src (bump cntNocMisroute (routerUnit k.src) t) := by
  simp [unicast, harrive, hcame, hfar]

theorem unicast_noPort (hnear : k.dest ≤ 99) (hno : localPort k.dest k.dport = false) :
    unicast k.typ k d act s = dropPkt k.dest (bump cntNocMisroute (routerUnit k.dest) t) := by
  simp [unicast, harrive, hcame, Nat.not_lt.mpr hnear, hno]

theorem unicast_badHeader (hnear : k.dest ≤ 99) (hport : localPort k.dest k.dport = true) (hbad : badHeader k = true) :
    unicast k.typ k d act s = dropPkt k.dest t := by
  simp [unicast, harrive, hcame, Nat.not_lt.mpr hnear, hport, hbad]

theorem unicast_damaged (hnear : k.dest ≤ 99) (hport : localPort k.dest k.dport = true) (hgood : badHeader k = false)
    (hdamaged : a.real.header = true ∨ a.forced.header = true) :
    unicast k.typ k d act s = dropPkt k.dest (parityRec a.k k.dest 0 (!a.real.header) t) := by
  simp [unicast, harrive, hcame, Nat.not_lt.mpr hnear, hport, hgood, receive_damaged hdamaged]

end Carried

end Arrival

/-! ### Requests at their targets -/

section Requests

variable {s : State} {k : NocPkt} {t p h st : Nat} {r : SpillRange}

/-- A request that a memory takes passes no refusal on its way. -/
theorem serveReq_memory (hmem : memoryAt s k = true) (htyp : k.typ ≠ 0x03) : serveReq k s = serveMem k s := by
  simp only [memoryAt, Bool.and_eq_true, Option.isNone_iff_eq_none] at hmem
  obtain ⟨hfence, hplace⟩ := hmem
  cases htile : routerTile k.dest with
  | some t =>
    simp only [htile, beq_iff_eq] at hplace
    simp [serveReq, serveTile, hfence, htile, hplace, htyp]
  | none =>
    simp only [htile, Bool.and_eq_true, Bool.not_eq_true', Bool.and_eq_false_iff, beq_eq_false_iff_ne, beq_iff_eq, bne_iff_ne] at hplace
    obtain ⟨⟨hpeloc, hhere⟩, hlevel⟩ := hplace
    have hnone : (if k.dport = 2 then routerPeloc k.dest else none) = none := by
      split
      · next hport => exact Option.not_isSome_iff_eq_none.mp (by simpa [hport] using hpeloc)
      · rfl
    simp [serveReq, hfence, htile, hnone, htyp, hhere, hlevel]

theorem serveReq_fenced (hfence : fenceBefore s k = some h) : serveReq k s = fenceNack k h s := by
  rw [serveReq, hfence]

theorem serveReq_tile (hfence : fenceBefore s k = none) (htile : routerTile k.dest = some t) : serveReq k s = serveTile t k s := by
  rw [serveReq, hfence, htile]

theorem serveReq_peloc (hfence : fenceBefore s k = none) (htile : routerTile k.dest = none) (hport : k.dport = 2)
    (hpel : routerPeloc k.dest = some p) : serveReq k s = chipToPort p k s := by
  simp [serveReq, hfence, htile, hport, hpel]

/-- An endpoint that serves no such request refuses it (R232, assumption 144). -/
theorem serveReq_unserved (hfence : fenceBefore s k = none) (htile : routerTile k.dest = none) (hport : k.dport ≠ 2)
    (hno : k.typ = 0x03 ∨ placeOf k.addr ≠ (k.dest, k.dport) ∨ levelOf k.addr = .nothing) :
    serveReq k s = nackPkt k stWindowFault 0 s := by
  have hunserved : ¬ (k.typ ≠ 0x03 ∧ placeOf k.addr = (k.dest, k.dport) ∧ levelOf k.addr ≠ .nothing) := by
    rintro ⟨htyp, hplace, hlevel⟩
    rcases hno with h | h | h
    · exact htyp h
    · exact h hplace
    · exact hlevel h
  simp only [serveReq, hfence, htile, if_neg hport, if_neg hunserved]

theorem serveReq_tileRefuses (hfence : fenceBefore s k = none) (htile : routerTile k.dest = some t) (hst : tileCheck s t k = st)
    (hbad : st ≠ 0) : serveReq k s = nackPkt k st 0 s := by
  rw [serveReq_tile hfence htile]
  simp [serveTile, hst, hbad]

/-- A tile takes a TOKEN of its owner, or of SYS (R243). -/
theorem serveReq_token (hfence : fenceBefore s k = none) (htile : routerTile k.dest = some t) (htyp : k.typ = 0x03)
    (hreal : isShadow s t = false) (hown : k.sys = true ∨ (tget s.tiles t).owner = some k.part) :
    serveReq k s = addTokens t k.tcnt (k.tval + 1) (sendPkt (answerPkt k 0x09 0 0 [] []) s) := by
  have hcheck : tileCheck s t k = 0 := by
    rcases hown with hown | hown <;> simp [tileCheck, htyp, hreal, hown]
  rw [serveReq_tile hfence htile]
  simp [serveTile, hcheck, htyp]

theorem serveMem_readChip (htyp : k.typ = 0x01) (hlevel : levelOf k.addr ≠ .host) :
    serveMem k s = (
      let r := readPiece none { dev := k.addr, len := 16 * k.len } s
      sendPkt (answerPkt k 0x08 0 0 r.1 (toSectors r.2.1)) r.2.2) := by
  rw [serveMem, if_pos htyp]
  cases hl : levelOf k.addr <;> simp_all

theorem serveMem_readHost (htyp : k.typ = 0x01) (hlevel : levelOf k.addr = .host) (hspill : s.hostSpill = some r)
    (hsends : noTransport s k.addr = false) :
    serveMem k s = hostRead r.fn (r.base + (k.addr - hostBase)) (16 * k.len) (.noc k) s := by
  simp [serveMem, htyp, hlevel, hspill, hsends]

theorem serveMem_readFails (htyp : k.typ = 0x01) (hlevel : levelOf k.addr = .host) (hno : noTransport s k.addr = true) :
    serveMem k s = readFailed k s := by
  cases hspill : s.hostSpill <;> simp [serveMem, htyp, hlevel, hspill, hno]

theorem serveMem_write (htyp : k.typ ≠ 0x01) :
    serveMem k s = sendPkt (answerPkt k 0x09 0 0 [] []) (if noTransport s k.addr
      then accessFailed k (storeWrite k.addr k.data (toGranules k.pois) s) else storeWrite k.addr k.data (toGranules k.pois) s) := by
  rw [serveMem, if_neg htyp]

theorem rdEffect_memory {s0 : State} {d : Damage} (hs0 : s0 = spoilWords d.ecc s) (hw : wholeAt s0 0x01 0 k d = true)
    (hmem : memoryAt (landed k d s0) (asTaken k) = true) : rdEffect k d s = serveMem (asTaken k) (landed k d s0) :=
  (rdEffect_whole hs0 hw).trans (serveReq_memory hmem (by rw [asTaken_typ, wholeAt_typ hw]; decide))

theorem wrEffect_memory {d : Damage} (hw : wholeAt s 0x02 0 k d = true) (hmem : memoryAt (landed k d s) (asTaken k) = true) :
    wrEffect k d s = sendPkt (answerPkt (asTaken k) 0x09 0 0 [] []) (if noTransport (landed k d s) (asTaken k).addr
      then accessFailed (asTaken k) (storeWrite k.addr k.data (toGranules (asTaken k).pois) (landed k d s))
      else storeWrite k.addr k.data (toGranules (asTaken k).pois) (landed k d s)) := by
  have htyp := wholeAt_typ hw
  rw [wrEffect_whole hw, serveReq_memory hmem (by rw [asTaken_typ, htyp]; decide)]
  exact serveMem_write (k := asTaken k) (by rw [asTaken_typ, htyp]; decide)

theorem serveCfg_fenced (hfence : fenceBefore s k = some h) : serveCfg k s = fenceNack k h s := by
  rw [serveCfg, hfence]

theorem serveCfg_refuses (hfence : fenceBefore s k = none) (huser : k.sys = false) : serveCfg k s = nackPkt k stWindowFault 0 s := by
  simp [serveCfg, hfence, huser]

theorem serveCfg_reads (hfence : fenceBefore s k = none) (hsys : k.sys = true) (htyp : k.typ = 0x04) :
    serveCfg k s = sendPkt (answerPkt k 0x08 0 0 ((List.range (16 * k.len)).map (cfgByte s k)) [])
      { s with freeCtr := s.freeCtr + 16 * k.len } := by
  simp [serveCfg, hfence, hsys, htyp]

theorem serveCfg_writes (hfence : fenceBefore s k = none) (hsys : k.sys = true) (htyp : k.typ ≠ 0x04) :
    serveCfg k s = sendPkt (answerPkt k 0x09 0 0 [] []) (cfgPut k s) := by
  simp [serveCfg, hfence, hsys, htyp]

end Requests

/-- Settles O32: a request that arrives whole is served by its endpoint's rules, and one that does not arrive whole is dropped. -/
theorem nocRequests : Obligations.NocRequests := by
  unfold Obligations.NocRequests
  refine ⟨fun s s0 k d hs0 hw hmem hlevel => ?rd, fun s s0 k d h hs0 hw hmem hlevel hspill hsends => ?rdHost,
    fun s s0 k d hs0 hw hmem hlevel hno => ?rdFails, fun s k d hw hmem hsends => ?wr, fun s k d hw hmem hno => ?wrFails,
    fun s k d t hw hfence htile hreal hown => ?token, fun s k d hw hfence hsys => ?cfgRd, fun s k d hw hfence hsys => ?cfgWr,
    fun s k d hfence huser => ⟨fun hw => ?cfgRdUser, fun hw => ?cfgWrUser⟩,
    fun s k d h hfence => ⟨fun hw => ?wrFenced, fun hw => ?tokenFenced, fun hw => ?cfgRdFenced, fun hw => ?cfgWrFenced⟩,
    fun s s0 k d h hs0 hw hfence => ?rdFenced,
    fun s k d t st hfence htile hcheck hst => ⟨fun hw => ?wrRefused, fun hw => ?tokenRefused⟩,
    fun s s0 k d t st hs0 hw hfence htile hcheck hst => ?rdRefused,
    fun s s0 k d p mk hmk hs0 hw hfence htile hport hpel => ?peloc,
    fun s s0 k d mk hmk hs0 hw hfence htile hport hno => ?unserved,
    fun s s0 k d a t mk hmk hs0 harrive hcame => ?dropped⟩
  case rd =>
    have htyp := wholeAt_typ hw
    exact congrArg Host.Outcome.next ((rdEffect_memory hs0 hw hmem).trans (serveMem_readChip (k := asTaken k) htyp hlevel))
  case rdHost =>
    have htyp := wholeAt_typ hw
    exact congrArg Host.Outcome.next ((rdEffect_memory hs0 hw hmem).trans (serveMem_readHost (k := asTaken k) htyp hlevel hspill hsends))
  case rdFails =>
    have htyp := wholeAt_typ hw
    exact congrArg Host.Outcome.next ((rdEffect_memory hs0 hw hmem).trans (serveMem_readFails (k := asTaken k) htyp hlevel hno))
  case wr =>
    have hserved := wrEffect_memory hw hmem
    rw [asTaken_addr, hsends] at hserved
    exact congrArg _ hserved
  case wrFails =>
    have hserved := wrEffect_memory hw hmem
    rw [asTaken_addr, hno] at hserved
    exact congrArg _ hserved
  case token =>
    have htyp := wholeAt_typ hw
    exact congrArg Host.Outcome.next ((tokenEffect_whole hw).trans (serveReq_token (k := asTaken k) hfence htile htyp hreal hown))
  case cfgRd =>
    have htyp := wholeAt_typ hw
    exact congrArg Host.Outcome.next ((cfgRdEffect_whole hw).trans (serveCfg_reads (k := asTaken k) hfence hsys htyp))
  case cfgWr =>
    have htyp : (asTaken k).typ ≠ 0x04 := by rw [asTaken_typ, wholeAt_typ hw]; decide
    exact congrArg Host.Outcome.next ((cfgWrEffect_whole hw).trans (serveCfg_writes (k := asTaken k) hfence hsys htyp))
  case cfgRdUser => exact congrArg Host.Outcome.next ((cfgRdEffect_whole hw).trans (serveCfg_refuses (k := asTaken k) hfence huser))
  case cfgWrUser => exact congrArg Host.Outcome.next ((cfgWrEffect_whole hw).trans (serveCfg_refuses (k := asTaken k) hfence huser))
  case wrFenced => exact congrArg Host.Outcome.next ((wrEffect_whole hw).trans (serveReq_fenced (k := asTaken k) hfence))
  case tokenFenced => exact congrArg Host.Outcome.next ((tokenEffect_whole hw).trans (serveReq_fenced (k := asTaken k) hfence))
  case cfgRdFenced => exact congrArg Host.Outcome.next ((cfgRdEffect_whole hw).trans (serveCfg_fenced (k := asTaken k) hfence))
  case cfgWrFenced => exact congrArg Host.Outcome.next ((cfgWrEffect_whole hw).trans (serveCfg_fenced (k := asTaken k) hfence))
  case rdFenced => exact congrArg Host.Outcome.next ((rdEffect_whole hs0 hw).trans (serveReq_fenced (k := asTaken k) hfence))
  case wrRefused =>
    exact congrArg Host.Outcome.next ((wrEffect_whole hw).trans (serveReq_tileRefuses (k := asTaken k) hfence htile hcheck hst))
  case tokenRefused =>
    exact congrArg Host.Outcome.next ((tokenEffect_whole hw).trans (serveReq_tileRefuses (k := asTaken k) hfence htile hcheck hst))
  case rdRefused =>
    exact congrArg Host.Outcome.next ((rdEffect_whole hs0 hw).trans (serveReq_tileRefuses (k := asTaken k) hfence htile hcheck hst))
  case peloc => exact (exec_request_whole hmk hs0 hw).trans (congrArg Host.Outcome.next (serveReq_peloc (k := asTaken k) hfence htile hport hpel))
  case unserved =>
    exact (exec_request_whole hmk hs0 hw).trans (congrArg Host.Outcome.next (serveReq_unserved (k := asTaken k) hfence htile hport hno))
  case dropped =>
    obtain ⟨act, hexec⟩ := exec_unicast hmk hs0
    rw [hexec]
    exact ⟨fun hfar => congrArg Host.Outcome.next (unicast_nowhere harrive hcame hfar),
      fun hnear hno => congrArg Host.Outcome.next (unicast_noPort harrive hcame hnear hno),
      fun hnear hport hbad => congrArg Host.Outcome.next (unicast_badHeader harrive hcame hnear hport hbad),
      fun hnear hport hgood hdamaged => congrArg Host.Outcome.next (unicast_damaged harrive hcame hnear hport hgood hdamaged)⟩

end Sys2Proof.Proofs
end

section

/-! PROOFS. The on-chip network: responses and timers at the requester, and multicasts. -/

namespace Sys2Proof.Proofs

open Sys2Proof.Machine Sys2Proof.Safety Sys2Proof.Laws

/-! ### Responses and timers at the requester -/

section Responses

variable {s : State} {k : NocPkt} {d : Damage} {x : NocReq} {r q tag : Nat} {m : McSend}

theorem rdDataEffect_answers (hw : wholeAt s 0x08 1 k d = true) (hreq : reqOf (landed k d s) k.dest k.dport k.tag = some x)
    (htyp : x.pkt.typ = 0x01 ∨ x.pkt.typ = 0x04) :
    rdDataEffect k d s =
      readCame x k.data (payloadMarks (asTaken k) k.data.length) (dropReq k.dest k.dport k.tag (landed k d s)) := by
  rw [rdDataEffect, unicast_whole hw]
  simp [hreq, htyp]

theorem wrAckEffect_answers (hw : wholeAt s 0x09 1 k d = true) (hreq : reqOf (landed k d s) k.dest k.dport k.tag = some x)
    (htyp : x.pkt.typ = 0x02 ∨ x.pkt.typ = 0x03 ∨ x.pkt.typ = 0x05) :
    wrAckEffect k d s = ackCame x (dropReq k.dest k.dport k.tag (landed k d s)) := by
  rw [wrAckEffect, unicast_whole hw]
  simp [hreq, htyp]

/-- A fence whose return is in view holds the request back (R254). -/
theorem nackEffect_holdsBack (hw : wholeAt s 0x0A 1 k d = true) (hreq : reqOf (landed k d s) k.dest k.dport k.tag = some x)
    (hst : k.status = stDomainFenced) (hhint : k.hint ≠ 0xFFFF) (htries : x.attempts < 16) :
    nackEffect k d s = { landed k d s with
      reqs := (landed k d s).reqs.map (fun y => if y = x then { y with backoff := some k.hint } else y) } := by
  rw [nackEffect, unicast_whole hw]
  simp [hreq, hst, hhint, htries]

theorem nackEffect_ends (hw : wholeAt s 0x0A 1 k d = true) (hreq : reqOf (landed k d s) k.dest k.dport k.tag = some x)
    (hfinal : k.status ≠ stDomainFenced ∨ k.hint = 0xFFFF ∨ 16 ≤ x.attempts) :
    nackEffect k d s = failReq x k.status k.hint (dropReq k.dest k.dport k.tag (landed k d s)) := by
  have hnot : ¬ (k.status = stDomainFenced ∧ k.hint ≠ 0xFFFF ∧ x.attempts < 16) := by
    rintro ⟨hst, hhint, htries⟩
    rcases hfinal with h | h | h
    · exact h hst
    · exact hhint h
    · omega
  rw [nackEffect, unicast_whole hw]
  simp only [asTaken_dest, asTaken_dport, asTaken_tag, asTaken_status, asTaken_hint, hreq]
  exact if_neg hnot

section Late

variable (hnone : reqOf (landed k d s) k.dest k.dport k.tag = none)
include hnone

theorem rdDataEffect_late (hw : wholeAt s 0x08 1 k d = true) :
    rdDataEffect k d s = bump cntNocLate (routerUnit k.dest) (landed k d s) := by
  rw [rdDataEffect, unicast_whole hw]
  simp [hnone, lateResponse]

theorem wrAckEffect_late (hw : wholeAt s 0x09 1 k d = true) :
    wrAckEffect k d s = bump cntNocLate (routerUnit k.dest) (landed k d s) := by
  rw [wrAckEffect, unicast_whole hw]
  simp [hnone, lateResponse]

theorem nackEffect_late (hw : wholeAt s 0x0A 1 k d = true) :
    nackEffect k d s = bump cntNocLate (routerUnit k.dest) (landed k d s) := by
  rw [nackEffect, unicast_whole hw]
  simp [hnone, lateResponse]

end Late

theorem requestTimeoutEffect_read (hreq : reqOf s r q tag = some x) (htimed : timed x.pkt = true) (hout : x.backoff = none)
    (htyp : x.pkt.typ = 0x01) :
    requestTimeoutEffect r q tag s = readCame x (List.replicate (16 * x.pkt.len) 0) (List.range x.pkt.len)
      (bump cntNocTimeout (routerUnit r) (dropReq r q tag s)) := by
  simp [requestTimeoutEffect, hreq, htimed, hout, htyp]

theorem requestTimeoutEffect_ends (hreq : reqOf s r q tag = some x) (htimed : timed x.pkt = true) (hout : x.backoff = none)
    (htyp : x.pkt.typ ≠ 0x01) :
    requestTimeoutEffect r q tag s = failReq x stNocTimeout 0 (bump cntNocTimeout (routerUnit r) (dropReq r q tag s)) := by
  simp [requestTimeoutEffect, hreq, htimed, hout, htyp]

/-- A tag that no request carries is a multicast's. -/
theorem requestTimeoutEffect_multicast (hnone : reqOf s r q tag = none) (hsend : sendAt s r q = some m) (htag : m.tag = tag) :
    requestTimeoutEffect r q tag s = mcTimeout r q m s := by
  simp [requestTimeoutEffect, hnone, hsend, htag]

theorem fenceRetryEffect_sends (hreq : reqOf s r q tag = some x) (hback : x.backoff.isSome = true) (hopen : srcFenced s x.pkt = false) :
    fenceRetryEffect r q tag s = sendPkt x.pkt
      { s with reqs := s.reqs.map (fun y => if y = x then { y with backoff := none, attempts := y.attempts + 1 } else y) } := by
  simp [fenceRetryEffect, hreq, hback, hopen]

end Responses

/-- Settles O33: a response by the request that it answers, a timer by what stands under its tag. -/
theorem nocResponses : Obligations.NocResponses := by
  unfold Obligations.NocResponses
  refine ⟨fun s k d x hw hreq htyp => ?data, fun s k d x hw hreq htyp => ?ack, fun s k d x hw hreq hst hhint htries => ?held,
    fun s k d x hw hreq hfinal => ?nack, fun s k d hnone => ?late, fun s r q tag x hreq htimed hout htyp => ?readTimer,
    fun s r q tag x hreq htimed hout htyp => ?timer, fun s r q tag m hnone hsend htag hgrant => ?grantTimer,
    fun s r q tag m hnone hsend htag hgrant hsent => ?resultTimer, fun s r q tag x hreq hback hopen => ?retry⟩
  case data => exact congrArg Host.Outcome.next (rdDataEffect_answers hw hreq htyp)
  case ack => exact congrArg Host.Outcome.next (wrAckEffect_answers hw hreq htyp)
  case held => exact congrArg Host.Outcome.next (nackEffect_holdsBack hw hreq hst hhint htries)
  case nack => exact congrArg Host.Outcome.next (nackEffect_ends hw hreq hfinal)
  case late =>
    exact ⟨fun hw => congrArg Host.Outcome.next (rdDataEffect_late hnone hw), fun hw => congrArg Host.Outcome.next (wrAckEffect_late hnone hw),
      fun hw => congrArg Host.Outcome.next (nackEffect_late hnone hw)⟩
  case readTimer => exact congrArg Host.Outcome.next (requestTimeoutEffect_read hreq htimed hout htyp)
  case timer => exact congrArg Host.Outcome.next (requestTimeoutEffect_ends hreq htimed hout htyp)
  case grantTimer =>
    refine congrArg Host.Outcome.next ((requestTimeoutEffect_multicast hnone hsend htag).trans ?_)
    subst htag
    simp [mcTimeout, hgrant]
  case resultTimer =>
    refine congrArg Host.Outcome.next ((requestTimeoutEffect_multicast hnone hsend htag).trans ?_)
    subst htag
    simp [mcTimeout, hgrant, hsent]
  case retry => exact congrArg Host.Outcome.next (fenceRetryEffect_sends hreq hback hopen)

/-! ### Multicasts -/

section Multicasts

variable {s : State} {k : NocPkt} {d : Damage} {m : McSend} {t : Nat} {l : Landing}

theorem mcGrantEffect_taken (hw : wholeAt s 0x0B 1 k d = true) (hsend : sendAt (landed k d s) k.dest k.dport = some m)
    (htile : routerTile k.src = some t) (htag : m.tag = k.tag) (hmask : m.mask.getLsbD t = true) (hfirst : tget m.grants t = 0) :
    mcGrantEffect k d s =
      onMc k.dest k.dport k.tag (fun m => { m with grants := tset m.grants t (k.reason + 1) }) (landed k d s) := by
  rw [mcGrantEffect, unicast_whole hw]
  simp [hsend, htile, htag, hmask, hfirst]

theorem mcResultEffect_taken (hw : wholeAt s 0x0C 1 k d = true) (hsend : sendAt (landed k d s) k.dest k.dport = some m)
    (htile : routerTile k.src = some t) (htag : m.tag = k.tag) (hgranted : tget m.grants t = 1) (hfirst : tget m.results t = 0) :
    mcResultEffect k d s =
      onMc k.dest k.dport k.tag (fun m => { m with results := tset m.results t (k.reason + 1) }) (landed k d s) := by
  rw [mcResultEffect, unicast_whole hw]
  simp [hsend, htile, htag, hgranted, hfirst]

theorem mcGrantEffect_late (hw : wholeAt s 0x0B 1 k d = true) (hnone : sendAt (landed k d s) k.dest k.dport = none) :
    mcGrantEffect k d s = bump cntNocLate (routerUnit k.dest) (landed k d s) := by
  rw [mcGrantEffect, unicast_whole hw]
  simp [hnone, lateResponse]

theorem mcResultEffect_late (hw : wholeAt s 0x0C 1 k d = true) (hnone : sendAt (landed k d s) k.dest k.dport = none) :
    mcResultEffect k d s = bump cntNocLate (routerUnit k.dest) (landed k d s) := by
  rw [mcResultEffect, unicast_whole hw]
  simp [hnone, lateResponse]

/-- A reserve at a tile with a free landing buffer is answered there. -/
theorem mcReserveEffect_free (hw : wholeAtTile s 0x10 k d t = true) (hfree : (tget (landed k d s).tiles t).landing = none) :
    mcReserveEffect k d s = answerReserve t (asTaken k) (landed k d s) := by
  rw [mcReserveEffect, multicast_tile hw]
  simp [hfree]

/-- Data that have a place in the landing buffer, and were not there yet, gather in it. -/
theorem mcDataEffect_gathers (hw : wholeAtTile s 0x11 k d t = true) (hland : (tget (landed k d s).tiles t).landing = some l)
    (hof : l.of (asTaken k) = true) (hlow : l.off ≤ k.addr) (hhigh : (k.addr - l.off) / 16 + k.len ≤ l.total)
    (hnew : ∀ g, g < k.len → l.got.contains ((k.addr - l.off) / 16 + g) = false) :
    mcDataEffect k d s = (
      let g0 := (k.addr - l.off) / 16
      let got := ((List.range k.len).map (· + g0)).foldl sput l.got
      onTile t (fun x => { x with landing := some { l with
        got := got, data := putBytes l.data (16 * g0) k.data, whole := got.length == l.total
        pois := l.pois ++ (payloadMarks (asTaken k) (16 * k.len)).map (· + g0) } }) (landed k d s)) := by
  have hfresh : ((List.range k.len).map (· + (k.addr - l.off) / 16)).any (fun g => l.got.contains g) = false := by
    simp only [List.any_eq_false, List.mem_map, List.mem_range]
    rintro _ ⟨g, hg, rfl⟩
    rw [Nat.add_comm, hnew g hg]
    exact Bool.false_ne_true
  rw [mcDataEffect, multicast_tile hw]
  simp only [asTaken_addr, asTaken_len, asTaken_data, hland, hof, hfresh, Nat.not_lt.mpr hlow, Nat.not_lt.mpr hhigh, decide_false]
  rfl

theorem mcDataEffect_noBuffer (hw : wholeAtTile s 0x11 k d t = true) (hnone : (tget (landed k d s).tiles t).landing = none) :
    mcDataEffect k d s = dropPkt (tileRouter t) (landed k d s) := by
  rw [mcDataEffect, multicast_tile hw]
  simp [hnone]

theorem mcDataEffect_noPlace (hw : wholeAtTile s 0x11 k d t = true) (hland : (tget (landed k d s).tiles t).landing = some l)
    (hno : l.of (asTaken k) = false ∨ k.addr < l.off ∨ l.total < (k.addr - l.off) / 16 + k.len) :
    mcDataEffect k d s = dropPkt (tileRouter t) (landed k d s) := by
  rw [mcDataEffect, multicast_tile hw]
  rcases hno with hno | hno | hno <;> simp [hland, hno]

/-- The commit of a whole landing writes the store where the tile has kept its owner (R249, R256). -/
theorem mcastCommitDoneEffect_answers (hland : (tget s.tiles t).landing = some l) (hwhole : l.whole = true) :
    mcastCommitDoneEffect t s = if (tget s.tiles t).owner = some l.part
      then sendPkt (mcAnswer t 0x0C 0 l.src l.sport l.part l.tag l.sys) (freeLanding t (commitLanding t l s))
      else sendPkt (mcAnswer t 0x0C reasonNotOwned l.src l.sport l.part l.tag l.sys) (freeLanding t s) := by
  split <;> next hown => simp [mcastCommitDoneEffect, hland, hwhole, hown]

theorem mcastLandingTimeoutEffect_frees (hland : (tget s.tiles t).landing = some l) (hpart : l.whole = false) :
    mcastLandingTimeoutEffect t s = freeLanding t s := by
  simp [mcastLandingTimeoutEffect, hland, hpart]

end Multicasts

/-- Settles O34: what comes to a mask acts at each of its tiles; the rest by the landing buffer and the sender's state. -/
theorem multicast : Obligations.Multicast := by
  unfold Obligations.Multicast
  refine ⟨fun s k d hw => ?reserve, fun s k d t hw hfree => ?reserveFree, fun s k d m t hw hsend htile htag hmask hfirst => ?grant,
    fun s k d m t hw hsend htile htag hgranted hfirst => ?result, fun s k d hnone => ?late,
    fun s k d t l hw hland hof hlow hhigh hnew => ?data, fun s k d t hw hnone => ?noBuffer, fun s k d t l hw hland hno => ?noPlace,
    fun s k d hw => ?abort, fun s k d hw => ?token, fun s t l hland hwhole hown => ?commit,
    fun s t l hland hwhole hown => ?noCommit, fun s t l hland hpart => ?timeout⟩
  case reserve => exact congrArg Host.Outcome.next (multicast_mask hw)
  case reserveFree => exact congrArg Host.Outcome.next (mcReserveEffect_free hw hfree)
  case grant => exact congrArg Host.Outcome.next (mcGrantEffect_taken hw hsend htile htag hmask hfirst)
  case result => exact congrArg Host.Outcome.next (mcResultEffect_taken hw hsend htile htag hgranted hfirst)
  case late =>
    exact ⟨fun hw => congrArg Host.Outcome.next (mcGrantEffect_late hw hnone),
      fun hw => congrArg Host.Outcome.next (mcResultEffect_late hw hnone)⟩
  case data => exact congrArg Host.Outcome.next (mcDataEffect_gathers hw hland hof hlow hhigh hnew)
  case noBuffer => exact congrArg Host.Outcome.next (mcDataEffect_noBuffer hw hnone)
  case noPlace => exact congrArg Host.Outcome.next (mcDataEffect_noPlace hw hland hno)
  case abort => exact congrArg Host.Outcome.next (multicast_mask hw)
  case token => exact congrArg Host.Outcome.next (multicast_mask hw)
  case commit => exact congrArg Host.Outcome.next ((mcastCommitDoneEffect_answers hland hwhole).trans (if_pos hown))
  case noCommit => exact congrArg Host.Outcome.next ((mcastCommitDoneEffect_answers hland hwhole).trans (if_neg hown))
  case timeout => exact congrArg Host.Outcome.next (mcastLandingTimeoutEffect_frees hland hpart)

end Sys2Proof.Proofs
end

section

/-! PROOFS. Power domains, and the Peloc ports' flits, link control and link power. -/

namespace Sys2Proof.Proofs

open Sys2Proof.Machine Sys2Proof.Safety Sys2Proof.Laws

/-! ### Power domains -/

theorem domainDrainedEffect_off {s : State} {d tk : Nat} (htk : (tget s.doms d).offTk = some tk) (hfenced : (tget s.doms d).fenced = true)
    (hon : (tget s.doms d).on = true) (hquiet : domainQuiet s d = true) :
    domainDrainedEffect d s = (
      let s1 := owlNote ([dw (0x3 + 2 ^ 16 * d), dw s.timebase] ++ timeDws s.timebase ++ [dw (domainProbes s d), 0, 0, 0]) s
      let s2 := onDom d (fun m => { m with on := false, offTk := none }) s1
      post tk stOk [] (if d < 4 then suspendLoop d s2 else portDown (d - 0x10) downOff true s2)) := by
  simp only [domainDrainedEffect, htk, hfenced, hon, hquiet]
  rfl

theorem domainWakeEffect_on {s : State} {d : Nat} (hoff : (tget s.doms d).on = false) (hwaits : (tget s.doms d).onTks ≠ []) :
    domainWakeEffect d s = (
      let s1 := wakeEndpoints d s
      let s2 := owlNote (syncRecord 1 d (domainProbes s1 d) s1.timebase) s1
      let s3 := applyWaiting d (onDom d (fun m => { m with on := true, fenced := false, onTks := [] }) s2)
      (tget s.doms d).onTks.foldl (fun u tk => post tk stOk [] u) (if d < 4 then resumeLoop d s3 else s3)) :=
  if_neg (by simp [hoff, hwaits])

/-- Settles O35: a drained domain goes off, a waited-for one wakes. -/
theorem domainEvents : Obligations.DomainEvents := by
  unfold Obligations.DomainEvents
  refine ⟨fun s d tk htk hfenced hon hquiet => ?off, fun s d hoff hwaits => ?wakes⟩
  case off => exact congrArg Host.Outcome.next (domainDrainedEffect_off htk hfenced hon hquiet)
  case wakes => exact congrArg Host.Outcome.next (domainWakeEffect_on hoff hwaits)

/-! ### Flits -/

section FlitRules

variable {s t : State} {kind p : Nat} {raw : List Byte} {d : FecResult} {f : Flit} {good : Flit → State → State} {bad : State → State}
  {act : Flit → State → State}

/-- A bad flit is counted, and acted on by its kind alone (R270). -/
theorem flitArrives_bad (hl : listens s p = true) (hb : flitBad raw d = true) :
    flitArrives kind p raw d good bad s = bad (countFlit p true d s) := by
  simp [flitArrives, hl, hb]

/-- A good flit is counted and acted on by what it holds. -/
theorem flitArrives_good (hl : listens s p = true) (hb : flitBad raw d = false) (hf : f = parseFlit raw) (hk : f.kind = kind) :
    flitArrives kind p raw d good bad s = good f (countFlit p false d s) := by
  subst hf hk
  simp [flitArrives, hl, hb]

theorem takeSequenced_expected (ht : t = takeAck p f s) (ha : (tget t.pel p).arrival f.seq = .expected) :
    takeSequenced p act f s = catchUp p (act f (onPel p (fun x => { x with rxSeq := f.seq, nakSent := false }) t)) := by
  subst ht
  simp only [takeSequenced, ha]

theorem takeSequenced_ahead (ht : t = takeAck p f s) (ha : (tget t.pel p).arrival f.seq = .ahead) :
    takeSequenced p act f s = sendNak p t := by
  subst ht
  simp only [takeSequenced, ha]

theorem takeSequenced_duplicate (ht : t = takeAck p f s) (ha : (tget t.pel p).arrival f.seq = .duplicate) :
    takeSequenced p act f s = t := by
  subst ht
  simp only [takeSequenced, ha]

/-- A NAK replays unless the replay that it asks for is under way (R286). -/
theorem takeNak_eq (ht : t = onPel p (fun x => { x.acked f.ack with txCredit := tset x.txCredit f.crvc f.crtot }) s) :
    takeNak p f s = pump p (if replayingFrom t p ((f.ack + 1) % 4096) then t else replayDue p t) := by
  subst ht
  rfl

/-- The timer replays, sixteen times without progress. -/
theorem replayTimerEffect_replays (hl : listens s p = true) (hsent : (tget s.pel p).replay ≠ []) :
    replayTimerEffect p s = if 16 ≤ (tget s.pel p).replays then portDown p downRetry false s else replayAll p s := by
  simp [replayTimerEffect, replayDue, hl, hsent]

end FlitRules

/-- Settles O36: by the kind of the flit, whether it is good, and where its sequence number stands. -/
theorem flits : Obligations.Flits := by
  unfold Obligations.Flits
  refine ⟨fun s p raw d f hl hb hf hk => ?idle, fun s p raw d hl hb => ?bad, fun s p raw d f t hl hb hf ht ha => ?expected,
    fun s p raw d f t hl hb hf ht ha => ?ahead, fun s p raw d f t hl hb hf ht ha => ?duplicate,
    fun s p raw d f t hl hb hf hk ht => ?nak, fun s p hl hsent hfew => ?timer, fun s p hl hsent hmany => ?timerDown⟩
  case idle => exact congrArg Host.Outcome.next (flitArrives_good hl hb hf hk)
  case bad =>
    exact ⟨congrArg Host.Outcome.next (flitArrives_bad hl hb), congrArg Host.Outcome.next (flitArrives_bad hl hb),
      congrArg Host.Outcome.next (flitArrives_bad hl hb),
      congrArg Host.Outcome.next (flitArrives_bad hl hb)⟩
  case expected =>
    exact ⟨fun hk => congrArg Host.Outcome.next ((flitArrives_good hl hb hf hk).trans (takeSequenced_expected ht ha)),
      fun hk => congrArg Host.Outcome.next ((flitArrives_good hl hb hf hk).trans (takeSequenced_expected ht ha))⟩
  case ahead =>
    exact ⟨fun hk => congrArg Host.Outcome.next ((flitArrives_good hl hb hf hk).trans (takeSequenced_ahead ht ha)),
      fun hk => congrArg Host.Outcome.next ((flitArrives_good hl hb hf hk).trans (takeSequenced_ahead ht ha))⟩
  case duplicate =>
    exact ⟨fun hk => congrArg Host.Outcome.next ((flitArrives_good hl hb hf hk).trans (takeSequenced_duplicate ht ha)),
      fun hk => congrArg Host.Outcome.next ((flitArrives_good hl hb hf hk).trans (takeSequenced_duplicate ht ha))⟩
  case nak =>
    have htaken : flitNakEffect p raw d s = pump p (if replayingFrom t p ((f.ack + 1) % 4096) then t else replayDue p t) :=
      (flitArrives_good hl hb hf hk).trans (takeNak_eq ht)
    exact ⟨fun hnew => congrArg Host.Outcome.next (htaken.trans (by rw [hnew]; rfl)),
      fun hunder => congrArg Host.Outcome.next (htaken.trans (by rw [hunder]; rfl))⟩
  case timer => exact congrArg Host.Outcome.next ((replayTimerEffect_replays hl hsent).trans (if_neg (Nat.not_le.mpr hfew)))
  case timerDown => exact congrArg Host.Outcome.next ((replayTimerEffect_replays hl hsent).trans (if_pos hmany))

/-! ### Link control and link power -/

section LinkRules

variable {s t : State} {p c : Nat} {m : List Byte} {act : List Byte → State → State}

/-- The front message is taken from its queue and acted on (Table 08.8). -/
theorem withCtrl_front (hm : frontCtrl s p c = some m) (ht : t = onPel p (fun x => { x with ctrl := x.ctrl.tail }) s) :
    withCtrl p c act s = act m t := by
  subst ht
  simp only [withCtrl, hm]

theorem helloEffect_hears (hin : inHello s p = true) (hm : frontCtrl s p 1 = some m)
    (ht : t = onPel p (fun x => { x with ctrl := x.ctrl.tail }) s) :
    helloEffect p s = if helloOk m then sendCtrl p (helloMsg t p 2) (onPel p (fun x => { x with peer := m }) t)
      else trainFail p stLinkTrainFailed downTrain true t := by
  rw [helloEffect, hin, withCtrl_front hm ht]
  rfl

theorem helloAckEffect_hears (hin : inHello s p = true) (hm : frontCtrl s p 2 = some m)
    (ht : t = onPel p (fun x => { x with ctrl := x.ctrl.tail }) s) :
    helloAckEffect p s = if helloOk m then linkUp p (onPel p (fun x => { x with peer := m }) t)
      else trainFail p stLinkTrainFailed downTrain true t := by
  rw [helloAckEffect, hin, withCtrl_front hm ht]
  rfl

/-- A port that asked for sleep itself enters it; another agrees where it may sleep and is quiet (R299, R306). -/
theorem sleepReqEffect_answers (hactive : (tget s.pel p).st = .active) (hm : frontCtrl s p 3 = some m)
    (ht : t = onPel p (fun x => { x with ctrl := x.ctrl.tail }) s) :
    sleepReqEffect p s = if (tget t.pel p).sleepReq then enterSleep p t
      else if (tget t.pel p).cfg.sleepidle ≠ 0 ∧ (tget t.pel p).degRx.isNone = true ∧ portQuiet t p = true
        then enterSleep p (sendCtrl p (bareMsg 4) t) else sendCtrl p (bareMsg 5) t := by
  rw [sleepReqEffect, if_neg (not_not_intro hactive), withCtrl_front hm ht]

theorem sleepAckEffect_enters (hactive : (tget s.pel p).st = .active) (hm : frontCtrl s p 4 = some m)
    (ht : t = onPel p (fun x => { x with ctrl := x.ctrl.tail }) s) (hasked : (tget t.pel p).sleepReq = true) :
    sleepAckEffect p s = enterSleep p t := by
  rw [sleepAckEffect, if_neg (not_not_intro hactive), withCtrl_front hm ht, if_pos hasked]

theorem degradeEffect_names (hactive : (tget s.pel p).st = .active) (hm : frontCtrl s p 6 = some m)
    (hw : (m.getD 1 0).toNat = 1 ∨ (m.getD 1 0).toNat = 2) :
    degradeEffect p s = onPel p (fun x => { x with degTx := some ((m.getD 1 0).toNat, (m.getD 2 0).toNat) })
      (onPel p (fun x => { x with ctrl := x.ctrl.tail }) s) := by
  rw [degradeEffect, if_neg (not_not_intro hactive), withCtrl_front hm rfl]
  exact if_pos hw

theorem wakePort_wakes (hsleeps : (tget s.pel p).st = .sleep) (hstill : (tget s.pel p).waking = false) :
    wakePort p s = bump cntPelocWake (pelUnit p) (onPel p (fun y => { y with waking := true, frameLock := false }) s) :=
  if_pos ⟨hsleeps, hstill⟩

end LinkRules

/-- Settles O37: each message by what stands at the queue's front. -/
theorem linkControl : Obligations.LinkControl := by
  unfold Obligations.LinkControl
  refine ⟨fun s p m t hin hm ht => ?hello, fun s p m t hin hm ht => ?helloAck, fun s p m t hactive hm ht => ?sleepReq,
    fun s p m t hactive hm ht hasked => ?sleepAck, fun s p m hm => ?sleepNak, fun s p m hactive hm hw => ?degrade,
    fun s p m hm => ?notice⟩
  case hello =>
    exact ⟨fun hok => congrArg Host.Outcome.next ((helloEffect_hears hin hm ht).trans (if_pos hok)),
      fun hno => congrArg Host.Outcome.next ((helloEffect_hears hin hm ht).trans (by rw [hno]; rfl))⟩
  case helloAck =>
    exact ⟨fun hok => congrArg Host.Outcome.next ((helloAckEffect_hears hin hm ht).trans (if_pos hok)),
      fun hno => congrArg Host.Outcome.next ((helloAckEffect_hears hin hm ht).trans (by rw [hno]; rfl))⟩
  case sleepReq =>
    have hanswers := sleepReqEffect_answers hactive hm ht
    refine ⟨fun hasked => congrArg Host.Outcome.next (hanswers.trans (if_pos hasked)),
      fun hnot hidle hwide hquiet => congrArg Host.Outcome.next (hanswers.trans ?_),
      fun hnot hbusy => congrArg Host.Outcome.next (hanswers.trans ?_)⟩
    · rw [hnot, if_neg Bool.false_ne_true, if_pos ⟨hidle, by rw [hwide]; rfl, hquiet⟩]
      rfl
    · have hdeclines : ¬ ((tget t.pel p).cfg.sleepidle ≠ 0 ∧ (tget t.pel p).degRx.isNone = true ∧ portQuiet t p = true) := by
        rintro ⟨hidle, hwide, hquiet⟩
        rcases hbusy with h | h | h
        · exact hidle h
        · exact h (Option.isNone_iff_eq_none.mp hwide)
        · exact Bool.false_ne_true (h.symm.trans hquiet)
      rw [hnot, if_neg Bool.false_ne_true, if_neg hdeclines]
      rfl
  case sleepAck => exact congrArg Host.Outcome.next (sleepAckEffect_enters hactive hm ht hasked)
  case sleepNak => exact congrArg Host.Outcome.next (withCtrl_front hm rfl)
  case degrade => exact congrArg Host.Outcome.next (degradeEffect_names hactive hm hw)
  case notice => exact congrArg Host.Outcome.next (withCtrl_front hm rfl)

theorem linkRecalCompleteEffect_posts {s : State} {p t : Nat} {r : List Nat} (h : (tget s.pel p).recalTks = t :: r) :
    linkRecalCompleteEffect p s = post t stOk []
      (bumpBy cntPelocRecal (pelUnit p) (1 + freeBelow s 4000) (drawFree (onPel p (fun x => { x with recalTks := r }) s))) := by
  simp only [linkRecalCompleteEffect, h]

/-- Settles O39: sleep, wake and recalibration by the port's state. -/
theorem linkPower : Obligations.LinkPower := by
  unfold Obligations.LinkPower
  refine ⟨fun s p hactive hidle hnot hquiet => ?asks, fun s p hsleeps hstill => ?wakes, fun s p hsleeps hwaking => ?late,
    fun s p hactive hrecal => ?step, fun s p t r htks => ?complete⟩
  case asks => exact congrArg Host.Outcome.next (if_pos ⟨hactive, hidle, hnot, hquiet⟩)
  case wakes => exact congrArg Host.Outcome.next (wakePort_wakes hsleeps hstill)
  case late => exact congrArg Host.Outcome.next (if_pos ⟨hsleeps, hwaking⟩)
  case step => exact congrArg Host.Outcome.next (if_pos ⟨hactive, hrecal⟩)
  case complete => exact ⟨1 + freeBelow s 4000, Nat.le_add_right _ _, congrArg Host.Outcome.next (linkRecalCompleteEffect_posts htks)⟩

end Sys2Proof.Proofs
end

section

/-! PROOFS. The Peloc ports' transactions, and link multicasts at a node. -/

namespace Sys2Proof.Proofs

open Sys2Proof.Machine Sys2Proof.Safety Sys2Proof.Laws

/-! ### Transactions of a port -/

section Transactions

variable {s : State} {p tt st h tag id b n : Nat} {t : PelTx} {o : OutTx} {tts : List Nat} {k : NocPkt} {q : PushOp}

/-- A transaction that Table 08.2 refuses is answered with the failed check's status. -/
theorem inboundTx_refused (hst : inboundStatus s t = st) (hbad : st ≠ 0) (hh : h = if st = stDomainFenced then t.gate.fence.getD 0 else 0)
    (hfront : frontTx s p tt = some t) : inboundTx tt p s = refuseTx p t st h (takeTx p t s) := by
  subst hh hst
  simp only [inboundTx, hfront, if_pos hbad]

theorem inboundTx_goes (hgood : inboundStatus s t = 0) (hfront : frontTx s p tt = some t) :
    inboundTx tt p s = startInbound p t (pullTx p t s) := by
  simp [inboundTx, hfront, hgood]

/-- A response answers the live transaction of its tag, where that is of one of its types (R289). -/
theorem answered_live (hlive : (tget (tget s.pel p).out t.tag).live = true) (htype : (tget (tget s.pel p).out t.tag).ttype ∈ tts) :
    answered s p t tts = some (tget (tget s.pel p).out t.tag) :=
  if_pos ⟨hlive, List.contains_iff_mem.mpr htype⟩

theorem answered_none (hdead : (tget (tget s.pel p).out t.tag).live = false) : answered s p t tts = none := by
  simp [answered, hdead]

theorem pelocRdDataEffect_chip (hfront : frontTx s p ttRdData = some t) (hans : answered s p t [ttRd] = some o) (hwhy : o.why = .chip k) :
    pelocRdDataEffect p s = pumpPushes p (readReturned k t (dropOut p t.tag (takeTx p t s))) := by
  simp only [pelocRdDataEffect, hfront, hans, hwhy]

theorem pelocAckEffect_chip (hfront : frontTx s p ttAck = some t) (hans : answered s p t [ttWr, ttToken, ttPush] = some o)
    (hwhy : o.why = .chip k) :
    pelocAckEffect p s =
      pumpPushes p (sendPkt (answerPkt k 0x09 0 0 [] []) (pageWritten k (dropOut p t.tag (takeTx p t s)))) := by
  simp only [pelocAckEffect, hfront, hans, hwhy]

theorem pelocAckEffect_push (hfront : frontTx s p ttAck = some t) (hans : answered s p t [ttWr, ttToken, ttPush] = some o)
    (hwhy : o.why = .push id b n) :
    pelocAckEffect p s = pumpPushes p (onPush p id (fun q =>
      { q with flying := q.flying - 1, pushed := q.pushed + 1, bytes := q.bytes + n }) (dropOut p t.tag (takeTx p t s))) := by
  simp only [pelocAckEffect, hfront, hans, hwhy]

theorem pelocNackEffect_fails (hfront : frontTx s p ttNack = some t) (hans : answered s p t [ttRd, ttWr, ttToken, ttPush] = some o) :
    pelocNackEffect p s = pumpPushes p (failOut p t.tag t.status t.hint (takeTx p t s)) := by
  simp only [pelocNackEffect, hfront, hans]

/-- A response that answers nothing is taken and has no other effect. -/
theorem pelocRdDataEffect_unanswered (hfront : frontTx s p ttRdData = some t) (hans : answered s p t [ttRd] = none) :
    pelocRdDataEffect p s = takeTx p t s := by
  simp only [pelocRdDataEffect, hfront, hans]

theorem pelocAckEffect_unanswered (hfront : frontTx s p ttAck = some t) (hans : answered s p t [ttWr, ttToken, ttPush] = none) :
    pelocAckEffect p s = takeTx p t s := by
  simp only [pelocAckEffect, hfront, hans]

theorem pelocNackEffect_unanswered (hfront : frontTx s p ttNack = some t) (hans : answered s p t [ttRd, ttWr, ttToken, ttPush] = none) :
    pelocNackEffect p s = takeTx p t s := by
  simp only [pelocNackEffect, hfront, hans]

theorem pelocTimeoutEffect_expires (hlive : (tget (tget s.pel p).out tag).live = true) (hno : hasAnswer s p tag = false) :
    pelocTimeoutEffect p tag s = pumpPushes p (failOut p tag stPelocTimeout 0 (bump cntPelocTimeout (pelUnit p) s)) :=
  if_pos (by rw [hlive, hno]; rfl)

theorem linkPushCompleteEffect_posts
    (hq : (tget s.pel p).pushes.find? (fun q => q.flying == 0 && (q.failed.isSome || q.left == 0)) = some q) :
    linkPushCompleteEffect p s = post q.ticket
      (if q.failed.isSome then q.status else if q.poisoned ≠ 0 then stPoisonPropagated else stOk)
      [dw q.pushed, dw q.bytes, dw (q.failed.getD 0xFFFFFFFF)]
      (poisonPropagated q.part q.poisoned (onPel p (fun x => { x with pushes := x.pushes.erase q }) s)) := by
  simp only [linkPushCompleteEffect, hq]

end Transactions

/-- Settles O40: inbound by Table 08.2's status, a response by the outbound transaction under its tag. -/
theorem pelocTransactions : Obligations.PelocTransactions := by
  unfold Obligations.PelocTransactions
  refine ⟨fun s p t st h hst hbad hh => ?refused, fun s p t hgood => ?goes, fun s p t k hfront hlive htype hwhy => ?data,
    fun s p t k hfront hlive htype hwhy => ?ack, fun s p t id b n hfront hlive htype hwhy => ?pushAck,
    fun s p t hfront hlive htype => ?nack, fun s p t hdead => ?unanswered, fun s p tag hlive hno => ?timeout,
    fun s p q hq => ?push⟩
  case refused =>
    have hrefuses : ∀ tt, frontTx s p tt = some t → inboundTx tt p s = refuseTx p t st h (takeTx p t s) :=
      fun tt hfront => inboundTx_refused hst hbad hh hfront
    exact ⟨fun hfront => congrArg Host.Outcome.next (hrefuses ttRd hfront), fun hfront => congrArg Host.Outcome.next (hrefuses ttWr hfront),
      fun hfront => congrArg Host.Outcome.next (hrefuses ttToken hfront), fun hfront => congrArg Host.Outcome.next (hrefuses ttPush hfront)⟩
  case goes =>
    have hstarts : ∀ tt, frontTx s p tt = some t → inboundTx tt p s = startInbound p t (pullTx p t s) :=
      fun tt hfront => inboundTx_goes hgood hfront
    exact ⟨fun hfront => congrArg Host.Outcome.next (hstarts ttRd hfront), fun hfront => congrArg Host.Outcome.next (hstarts ttWr hfront),
      fun hfront => congrArg Host.Outcome.next (hstarts ttToken hfront), fun hfront => congrArg Host.Outcome.next (hstarts ttPush hfront)⟩
  case data => exact congrArg Host.Outcome.next (pelocRdDataEffect_chip hfront (answered_live hlive (List.mem_singleton.mpr htype)) hwhy)
  case ack =>
    have hmem : (tget (tget s.pel p).out t.tag).ttype ∈ [ttWr, ttToken, ttPush] := by
      rcases htype with htype | htype <;> simp [htype]
    exact congrArg Host.Outcome.next (pelocAckEffect_chip hfront (answered_live hlive hmem) hwhy)
  case pushAck =>
    have hmem : (tget (tget s.pel p).out t.tag).ttype ∈ [ttWr, ttToken, ttPush] := by simp [htype]
    exact congrArg Host.Outcome.next (pelocAckEffect_push hfront (answered_live hlive hmem) hwhy)
  case nack => exact congrArg Host.Outcome.next (pelocNackEffect_fails hfront (answered_live hlive htype))
  case unanswered =>
    exact ⟨fun hfront => congrArg Host.Outcome.next (pelocRdDataEffect_unanswered hfront (answered_none hdead)),
      fun hfront => congrArg Host.Outcome.next (pelocAckEffect_unanswered hfront (answered_none hdead)),
      fun hfront => congrArg Host.Outcome.next (pelocNackEffect_unanswered hfront (answered_none hdead))⟩
  case timeout => exact congrArg Host.Outcome.next (pelocTimeoutEffect_expires hlive hno)
  case push => exact congrArg Host.Outcome.next (linkPushCompleteEffect_posts hq)

/-! ### Link multicasts at a node -/

section LinkMulticasts

variable {s : State} {p k why tag : Nat} {t : PelTx} {b : LmcBuf} {r : LmcRun}

theorem lmcReserveEffect_granted (hfront : frontTx s p ttReserve = some t) (hfree : reserveRefusal s p t = 0) :
    lmcReserveEffect p s = (
      let g := tget s.groups t.rtile
      let s2 := onPel p (fun x => { x with lmc := some { group := t.rtile, total := t.nmask } }) (takeTx p t s)
      let s3 := onGroup t.rtile (fun h => { h with run := some { total := t.nmask, granted := 2 ^ g.node } }) s2
      g.children.foldl (fun u q => sendTx q { ttype := ttReserve, lch := g.lch, rtile := t.rtile, nmask := t.nmask } u)
        (sendGrant p t.lch t.rtile (2 ^ g.node) 0 s3)) := by
  simp [lmcReserveEffect, hfront, hfree]

theorem lmcReserveEffect_refused (hfront : frontTx s p ttReserve = some t) (hwhy : reserveRefusal s p t = why) (hbad : why ≠ 0) :
    lmcReserveEffect p s = (
      let g := tget s.groups t.rtile
      let own := 2 ^ g.node
      let s2 := if reserveCounts t then bump cntPelocInboundRefused (pelUnit p) (takeTx p t s) else takeTx p t s
      let s3 := sendGrant p t.lch t.rtile own why s2
      let rest := g.subtree ^^^ (g.subtree &&& own)
      if rest = 0 then s3 else sendGrant p t.lch t.rtile rest lmcUpstream s3) := by
  subst hwhy
  simp only [lmcReserveEffect, hfront, if_pos hbad]

theorem lmcGrantEffect_taken (hfront : frontTx s p ttGrant = some t) (hchild : fromChild (tget s.groups t.rtile) p = true) :
    lmcGrantEffect p s = (
      let s2 := onRun t.rtile (fun r => r.grant p t.nmask t.reason) (takeTx p t s)
      if (tget s.groups t.rtile).root then lmcProceed t.rtile s2 else sendTx (tget s.groups t.rtile).parent { t with tag := 0 } s2) := by
  simp [lmcGrantEffect, hfront, hchild]

theorem lmcDataEffect_gathers (hfront : frontTx s p ttLmcData = some t) (hfree : t.barred = 0) (hbuf : (tget s.pel p).lmc = some b)
    (hgroup : b.group = t.rtile) (hpart : b.whole = false) (hmore : (b.take t).full = false) :
    lmcDataEffect p s = onPel p (fun x => { x with lmc := some (b.take t) }) (takeTx p t s) := by
  simp [lmcDataEffect, hfront, hfree, hbuf, hgroup, hpart, hmore]

theorem lmcDataEffect_lands (hfront : frontTx s p ttLmcData = some t) (hfree : t.barred = 0) (hbuf : (tget s.pel p).lmc = some b)
    (hgroup : b.group = t.rtile) (hpart : b.whole = false) (hfull : (b.take t).full = true) (htag : freeTag s (pelocRouter p) 2 = some tag) :
    lmcDataEffect p s = lmcLand p tag (b.take t) (takeTx p t s) := by
  simp [lmcDataEffect, hfront, hfree, hbuf, hgroup, hpart, hfull, htag]

theorem lmcDataEffect_barred (hfront : frontTx s p ttLmcData = some t) (hbarred : t.barred ≠ 0) :
    lmcDataEffect p s = refuseBarred p t s := by
  simp only [lmcDataEffect, hfront, if_pos hbarred]

theorem lmcAbortEffect_barred (hfront : frontTx s p ttAbort = some t) (hbarred : t.barred ≠ 0) :
    lmcAbortEffect p s = refuseBarred p t s := by
  simp only [lmcAbortEffect, hfront, if_pos hbarred]

theorem lmcResultEffect_root (hfront : frontTx s p ttResult = some t) (hchild : fromChild (tget s.groups t.rtile) p = true)
    (hroot : (tget s.groups t.rtile).root = true) :
    lmcResultEffect p s = lmcProceed t.rtile (onRun t.rtile (fun r => r.result t) (takeTx p t s)) := by
  simp [lmcResultEffect, hfront, hchild, hroot]

theorem lmcAbortEffect_passesOn (hfront : frontTx s p ttAbort = some t) (hfree : t.barred = 0) (hvalid : (tget s.groups t.rtile).valid = true)
    (hparent : (tget s.groups t.rtile).parent = p) (hinner : (tget s.groups t.rtile).root = false) :
    lmcAbortEffect p s = sendAborts t.rtile t.nmask
      (if t.nmask.testBit (tget s.groups t.rtile).node then lmcDrop false t.rtile (takeTx p t s) else takeTx p t s) := by
  simp [lmcAbortEffect, hfront, hfree, hvalid, hparent, hinner]

theorem lmcTimeoutEffect_sent (hrun : (tget s.groups k).run = some r) (hroot : r.root = true) (hsent : r.dataSent = true) :
    lmcTimeoutEffect k s = lmcClose k 0 reasonTimeout s := by
  simp [lmcTimeoutEffect, hrun, hroot, hsent]

theorem lmcTimeoutEffect_unsent (hrun : (tget s.groups k).run = some r) (hroot : r.root = true) (hunsent : r.dataSent = false) :
    lmcTimeoutEffect k s = lmcClose k 0 reasonTimeout (sendAborts k (tget s.groups k).subtree (onRun k (fun q =>
      let near := (maskNodes q.granted).filter (fun n => !q.lost.testBit n)
      { q with
        ents := near.foldl (fun m n => tset m n { tget m n with reason := reasonAborted }) q.ents
        refused := q.refused ||| bitSum near }) s)) := by
  simp [lmcTimeoutEffect, hrun, hroot, hunsent]

/-- An inner node whose buffers hold no whole payload gives the run up (Table 08.17). -/
theorem lmcTimeoutEffect_inner (hrun : (tget s.groups k).run = some r) (hinner : r.root = false)
    (hopen : ∀ p ∈ lmcPorts s k, ∀ b, (tget s.pel p).lmc = some b → b.whole = false) :
    lmcTimeoutEffect k s = onGroup k (fun h => { h with run := none }) (lmcDrop false k s) := by
  simp only [lmcTimeoutEffect, hrun, hinner, Bool.not_false, if_true]
  refine if_neg (fun hany => ?_)
  obtain ⟨p, hp, hwhole⟩ := List.any_eq_true.mp hany
  cases hbuf : (tget s.pel p).lmc with
  | none => simp [hbuf] at hwhole
  | some b => simp [hbuf, hopen p hp b hbuf] at hwhole

end LinkMulticasts

/-- Settles O41: each message by its first failed check and by whether the node is the root. -/
theorem linkMulticastEvents : Obligations.LinkMulticastEvents := by
  unfold Obligations.LinkMulticastEvents
  refine ⟨fun s p t hfront hfree => ?granted, fun s p t why hfront hwhy hbad => ?refused, fun s p t hfront hchild => ?grant,
    fun s p t b hfront hfree hbuf hgroup hpart hmore => ?gathers, fun s p t b tag hfront hfree hbuf hgroup hpart hfull htag => ?lands,
    fun s p t hbarred => ?barred, fun s p t hfront hchild hroot => ?rootResult, fun s p t hfront hchild hinner => ?innerResult,
    fun s p t hfront hfree hvalid hparent hinner => ?abort, fun s k r hrun hroot hsent => ?sent,
    fun s k r hrun hroot hunsent => ?unsent, fun s k r hrun hinner hopen => ?inner⟩
  case granted => exact congrArg Host.Outcome.next (lmcReserveEffect_granted hfront hfree)
  case refused => exact congrArg Host.Outcome.next (lmcReserveEffect_refused hfront hwhy hbad)
  case grant => exact congrArg Host.Outcome.next (lmcGrantEffect_taken hfront hchild)
  case gathers => exact congrArg Host.Outcome.next (lmcDataEffect_gathers hfront hfree hbuf hgroup hpart hmore)
  case lands => exact congrArg Host.Outcome.next (lmcDataEffect_lands hfront hfree hbuf hgroup hpart hfull htag)
  case barred =>
    exact ⟨fun hfront => congrArg Host.Outcome.next (lmcDataEffect_barred hfront hbarred),
      fun hfront => congrArg Host.Outcome.next (lmcAbortEffect_barred hfront hbarred)⟩
  case rootResult => exact congrArg Host.Outcome.next (lmcResultEffect_root hfront hchild hroot)
  case innerResult =>
    refine congrArg Host.Outcome.next (?_ : lmcResultEffect p s = _)
    simp only [lmcResultEffect, hfront, hchild, hinner]
    rfl
  case abort => exact congrArg Host.Outcome.next (lmcAbortEffect_passesOn hfront hfree hvalid hparent hinner)
  case sent => exact congrArg Host.Outcome.next (lmcTimeoutEffect_sent hrun hroot hsent)
  case unsent => exact congrArg Host.Outcome.next (lmcTimeoutEffect_unsent hrun hroot hunsent)
  case inner => exact congrArg Host.Outcome.next (lmcTimeoutEffect_inner hrun hinner hopen)

end Sys2Proof.Proofs
end

section

/-! PROOFS. Kestrel and the board. -/

namespace Sys2Proof.Proofs

open Sys2Proof.Machine Sys2Proof.Safety Sys2Proof.Laws

/-! ### Kestrel -/

section Kestrel

variable {s : State} {n st v t0 op mv : Nat} {ok re : Bool} {x : Cmd}

theorem innerSampleEffect_runs {y : Sensors} (hready : sampleReady s = true) :
    innerSampleEffect y s = (
      let s0 := y.ecc.foldl (fun t e => kestrelError e t) s
      let s1 := latchTemps y { s0 with samples := s0.samples + 1, loops := tmap (fun _ (l : KLoop) => { l with droop := false }) s0.loops }
      let s2 := sampleInner y 4 (sampleInner y 3 (sampleInner y 2 (sampleInner y 1 (sampleInner y 0 s1))))
      sampleFan (countOuter 6 (countOuter 5 (addMeans y (applyStretch s2))))) := by
  simp only [innerSampleEffect, hready, Bool.not_true, Bool.false_eq_true, if_false, List.foldl_cons, List.foldl_nil]

/-- A frame ends as what it is, 256 cycles after it started. -/
theorem avsFrameDoneEffect_readback (hframe : (tget s.avs n).frame = some (.readback, st)) :
    avsFrameDoneEffect n ok v (st + 256) s =
      readbackDone n (ok && !pinsTaken s) v (st + 256) { s with avs := tmod s.avs n (fun b => { b with frame := none }) } := by
  simp [avsFrameDoneEffect, hframe]

theorem avsFrameDoneEffect_write (hframe : (tget s.avs n).frame = some (.write mv re, st)) :
    avsFrameDoneEffect n ok v (st + 256) s =
      writeDone n mv (ok && !pinsTaken s) (st + 256) re { s with avs := tmod s.avs n (fun b => { b with frame := none }) } := by
  simp [avsFrameDoneEffect, hframe]

theorem avsFrameDoneEffect_partner (hframe : (tget s.avs n).frame = some (.partner op mv x, st)) :
    avsFrameDoneEffect n ok v (st + 256) s =
      partnerDone n op mv x (ok && !pinsTaken s) v (st + 256) { s with avs := tmod s.avs n (fun b => { b with frame := none }) } := by
  simp [avsFrameDoneEffect, hframe]

theorem lateWriteDropEffect_drops (hlate : (tget s.avs n).late = true) :
    lateWriteDropEffect n s = onChan n 0 (fun c => { c with dcyc := some 800 }) (onLoop n (fun l => { l with avsFails := 0 })
      (bump (cntKstLate n) 0 { s with avs := tmod s.avs n (fun b => { b with late := false }) })) :=
  if_pos hlate

theorem lastedSince_some {since : Option Nat} (hsince : since = some t0) (hlong : t0 + n ≤ s.timebase) : lastedSince since n s = true := by
  rw [hsince]
  exact decide_eq_true hlong

theorem throttleReleaseEffect_releases (hwarm : s.board.hot = true ∨ s.board.critical = true) (hcool : s.board.coolSince = some t0)
    (hlong : t0 + 10 ^ 5 ≤ s.timebase) :
    throttleReleaseEffect s = applyStretch { s with board := { s.board with hot := false, critical := false, coolSince := none } } :=
  if_pos (by rw [lastedSince_some hcool hlong, Bool.and_true, Bool.or_eq_true]; exact hwarm)

end Kestrel

/-- Settles O42: a sample, an AVSBus frame by its kind, and Kestrel's other events. -/
theorem kestrelEvents : Obligations.KestrelEvents := by
  unfold Obligations.KestrelEvents
  refine ⟨fun s y hready => ?sample, fun s n ok v st hframe => ?readback, fun s n ok v mv re st hframe => ?write,
    fun s n ok v op mv x st hframe => ?partner, fun s n hlate => ?late, fun s k => ?mark,
    fun s n hn harmed hout hstage hruns => ?droop, fun s t0 hwarm hcool hlong => ?cooled⟩
  case sample => exact congrArg Host.Outcome.next (innerSampleEffect_runs hready)
  case readback => exact congrArg Host.Outcome.next (avsFrameDoneEffect_readback hframe)
  case write => exact congrArg Host.Outcome.next (avsFrameDoneEffect_write hframe)
  case partner => exact congrArg Host.Outcome.next (avsFrameDoneEffect_partner hframe)
  case late => exact congrArg Host.Outcome.next (lateWriteDropEffect_drops hlate)
  case mark => rfl
  case droop => exact congrArg Host.Outcome.next (if_pos ⟨hn, harmed, hout, hstage, hruns⟩)
  case cooled => exact congrArg Host.Outcome.next (throttleReleaseEffect_releases hwarm hcool hlong)

/-! ### The board -/

section BoardRules

variable {s : State} {n g t0 : Nat} {pwr : Bool}

@[simp] theorem rejectPulses_board : (rejectPulses g s).board = s.board := by rw [rejectPulses, bumpBy_frame]
@[simp] theorem rejectPulses_timebase : (rejectPulses g s).timebase = s.timebase := by rw [rejectPulses, bumpBy_frame]

theorem onBoard_rejectPulses (f : Board → Board) :
    onBoard f (rejectPulses g s) = { bumpBy cntInputGlitch 0 g s with board := f s.board } := by
  rw [onBoard, rejectPulses_board, rejectPulses]

/-- The level of an alert as it stands. -/
def alertLevel (pwr : Bool) (s : State) : Bool := if pwr then s.board.pwr else s.board.therm

@[simp] theorem alertLevel_rejectPulses : alertLevel pwr (rejectPulses g s) = alertLevel pwr s := by
  rw [alertLevel, rejectPulses_board]
  rfl

theorem alertAcceptedEffect_eq (hout : s.bring.inReset = false) (asserted : Bool) :
    alertAcceptedEffect pwr asserted g s = if alertLevel pwr s = asserted then rejectPulses g s
      else if asserted then assertAlert pwr (rejectPulses g s) else deassertAlert pwr (rejectPulses g s) := by
  rw [← alertLevel_rejectPulses (g := g), alertAcceptedEffect, hout, if_neg Bool.false_ne_true]
  rfl

/-- A new level is accepted, the rejected pulses counted (R586, R587). -/
theorem alertAcceptedEffect_asserts (hout : s.bring.inReset = false) (hold : alertLevel pwr s = false) :
    alertAcceptedEffect pwr true g s = assertAlert pwr (rejectPulses g s) := by
  rw [alertAcceptedEffect_eq hout, hold, if_neg Bool.false_ne_true, if_pos rfl]

theorem alertAcceptedEffect_deasserts (hout : s.bring.inReset = false) (hold : alertLevel pwr s = true) :
    alertAcceptedEffect pwr false g s = deassertAlert pwr (rejectPulses g s) := by
  rw [alertAcceptedEffect_eq hout, hold, if_neg (Ne.symm Bool.false_ne_true), if_neg Bool.false_ne_true]

theorem assertAlert_power : assertAlert true (rejectPulses g s) = forceNow [0, 1, 2, 3, 4] (raise attnBoardInput .admin (bump cntPwrAlert 0
    { bumpBy cntInputGlitch 0 g s with board := { s.board with pwr := true, pwrSince := s.timebase } })) := by
  simp only [assertAlert, if_true, onBoard_rejectPulses, rejectPulses_timebase, raiseBoard]

theorem assertAlert_thermal : assertAlert false (rejectPulses g s) = forceNow [0, 1, 2, 3, 4, 7] (raise attnBoardInput .admin (thermalEvent 1
    (bump cntThermAlert 0 { bumpBy cntInputGlitch 0 g s with board := { s.board with therm := true, thermSince := s.timebase } }))) := by
  simp only [assertAlert, Bool.false_eq_true, if_false, onBoard_rejectPulses, rejectPulses_timebase, raiseBoard]

theorem deassertAlert_power : deassertAlert true (rejectPulses g s) = applyStretch (raise attnBoardInput .admin
    { bumpBy cntInputGlitch 0 g s with board := { s.board with pwr := false, pwrStuck := false } }) := by
  simp only [deassertAlert, if_true, onBoard_rejectPulses, raiseBoard]

theorem deassertAlert_thermal : deassertAlert false (rejectPulses g s) = applyStretch (raise attnBoardInput .admin
    { bumpBy cntInputGlitch 0 g s with board := { s.board with therm := false, thermStuck := false } }) := by
  simp only [deassertAlert, Bool.false_eq_true, if_false, onBoard_rejectPulses, raiseBoard]

theorem alertStuckEffect_power (hon : s.board.pwr = true) (hnew : s.board.pwrStuck = false) (hlong : s.board.pwrSince + 10 ^ 8 ≤ s.timebase) :
    alertStuckEffect true s = raise attnBoardInput .admin { s with board := { s.board with pwrStuck := true } } := by
  simp only [alertStuckEffect, hon, hnew, hlong, Bool.not_false, and_self, if_true, raiseBoard, onBoard]

theorem alertStuckEffect_thermal (hon : s.board.therm = true) (hnew : s.board.thermStuck = false)
    (hlong : s.board.thermSince + 10 ^ 8 ≤ s.timebase) :
    alertStuckEffect false s = raise attnBoardInput .admin (thermalEvent 2 { s with board := { s.board with thermStuck := true } }) := by
  simp only [alertStuckEffect, hon, hnew, hlong, Bool.not_false, Bool.false_eq_true, and_self, if_true, if_false, raiseBoard, onBoard]

theorem tachEdgeEffect_counts (hn : n < 2) (hout : s.bring.inReset = false)
    (hnew : (tget s.board.tach n).edges.head? ≠ some s.timebase) :
    tachEdgeEffect n g s = overrangeEvents n (tget s.board.tach n).fast ((tget s.board.tach n).edge s.timebase).fast
      { bumpBy cntInputGlitch 0 g s with
        board := { s.board with tach := tmod s.board.tach n (fun _ => (tget s.board.tach n).edge s.timebase) } } := by
  simp only [tachEdgeEffect, hout, Nat.not_le.mpr hn, hnew, Bool.false_eq_true, or_self, if_false, onTach, rejectPulses_board]
  simp only [rejectPulses]

theorem tachStandstillEffect_stands (hn : n < 2) (hedges : (tget s.board.tach n).edges ≠ [])
    (hlong : (tget s.board.tach n).edges.getD 0 0 + 10 ^ 8 ≤ s.timebase) :
    tachStandstillEffect n s = overrangeEvents n (tget s.board.tach n).fast false
      { s with board := { s.board with tach := tmod s.board.tach n (fun b => { stuck := b.stuck }) } } := by
  refine if_neg ?_
  rintro (h | h | h)
  · omega
  · exact hedges h
  · omega

theorem tachStuckEffect_stuck (hn : n < 2) (hnew : (tget s.board.tach n).stuck = false)
    (hstill : (tget s.board.tach n).speed s.timebase = 0) (hduty : s.board.dutySince = some t0) (hlong : t0 + 3 * 10 ^ 8 ≤ s.timebase) :
    tachStuckEffect n s = raise attnBoardInput .admin (bump (if n = 0 then cntTach0Stuck else cntTach1Stuck) 0
      { s with board := { s.board with tach := tmod s.board.tach n (fun b => { b with stuck := true }) } }) := by
  refine if_neg ?_
  rw [lastedSince_some hduty hlong]
  rintro (h | h | h | h)
  · omega
  · exact Bool.false_ne_true (hnew.symm.trans h)
  · exact h hstill
  · exact Bool.false_ne_true h

end BoardRules

/-- Settles O43: alerts by their level, tachometers by their edges, and a period of FAN_PWM. -/
theorem boardEvents : Obligations.BoardEvents := by
  unfold Obligations.BoardEvents
  refine ⟨fun s g hout hold => ?pwr, fun s g hout hold => ?pwrOff, fun s g hout hold => ?therm, fun s g hout hold => ?thermOff,
    fun s hon hnew hlong => ?pwrStuck, fun s hon hnew hlong => ?thermStuck, fun s n g hn hout hnew => ?edge,
    fun s n hn hedges hlong => ?standstill, fun s n t0 hn hnew hstill hduty hlong => ?stuck, fun s => ?period⟩
  case pwr => exact congrArg Host.Outcome.next ((alertAcceptedEffect_asserts (pwr := true) hout hold).trans assertAlert_power)
  case pwrOff => exact congrArg Host.Outcome.next ((alertAcceptedEffect_deasserts (pwr := true) hout hold).trans deassertAlert_power)
  case therm => exact congrArg Host.Outcome.next ((alertAcceptedEffect_asserts (pwr := false) hout hold).trans assertAlert_thermal)
  case thermOff => exact congrArg Host.Outcome.next ((alertAcceptedEffect_deasserts (pwr := false) hout hold).trans deassertAlert_thermal)
  case pwrStuck => exact congrArg Host.Outcome.next (alertStuckEffect_power hon hnew hlong)
  case thermStuck => exact congrArg Host.Outcome.next (alertStuckEffect_thermal hon hnew hlong)
  case edge => exact congrArg Host.Outcome.next (tachEdgeEffect_counts hn hout hnew)
  case standstill => exact congrArg Host.Outcome.next (tachStandstillEffect_stands hn hedges hlong)
  case stuck => exact congrArg Host.Outcome.next (tachStuckEffect_stuck hn hnew hstill hduty hlong)
  case period => rfl

end Sys2Proof.Proofs
end

section

/-! PROOFS. Integrity, partitions, the trace and firmware in time, and what reset leaves. -/

namespace Sys2Proof.Proofs

open Sys2Proof.Machine Sys2Proof.Safety Sys2Proof.Laws

/-! ### Integrity -/

section IntegrityRules

variable {s : State} {t k i tk : Nat} {crc : Dword} {q : KernelRun}

theorem kernelStartEffect_starts (hout : s.bring.inReset = false) (hen : s.integ.selfEn = true) (hruns : s.integ.dstate = .running)
    (hnone : backgroundRuns s = false) (htile : nextTileOf s = some t) (hkernel : nextKernelOf s t = some k) :
    kernelStartEffect t k s = startKernel t { k := k, why := .background, idle := (tget s.tiles t).idle.isSome }
      { s with integ := { s.integ with rotate := (t + 1) % 64 } } := by
  simp [kernelStartEffect, hout, hen, hruns, hnone, htile, hkernel, onInteg]

/-- A first run that nothing forces and whose CRC is right ends the kernel (R441). -/
theorem kernelCompleteEffect_right (hq : (tget s.tiles t).kernel = some q) (hfirst : q.rerun = false)
    (hfree : armed s (unitId 0x01 t) 9 = false) (hcrc : crc = Config.kakExpected q.k) :
    kernelCompleteEffect t crc s =
      endKernel t { q with forced := false } { first := crc, last := crc } (bump cntKakRun (unitId 0x01 t) s) := by
  simp [kernelCompleteEffect, hq, hfirst, hfree, hcrc]

/-- A first run whose CRC is wrong, or that is forced to fail, is made once more (R441, R451). -/
theorem kernelCompleteEffect_wrong (hq : (tget s.tiles t).kernel = some q) (hfirst : q.rerun = false)
    (hfree : armed s (unitId 0x01 t) 9 = false) (hcrc : crc ≠ Config.kakExpected q.k) :
    kernelCompleteEffect t crc s = startKernel t { q with forced := false, rerun := true, firstCrc := crc, firstReal := true }
      (bump cntKakFail (unitId 0x01 t) (bump cntKakRun (unitId 0x01 t) s)) := by
  simp [kernelCompleteEffect, hq, hfirst, hfree, bne_iff_ne.mpr hcrc]

theorem kernelCompleteEffect_forced (hq : (tget s.tiles t).kernel = some q) (hfirst : q.rerun = false)
    (harmed : armed s (unitId 0x01 t) 9 = true) :
    kernelCompleteEffect t crc s = startKernel t
      { q with forced := true, rerun := true, firstCrc := crc, firstReal := crc != Config.kakExpected q.k }
      (bump cntKakFail (unitId 0x01 t) (bump cntKakRun (unitId 0x01 t) (takeInject (unitId 0x01 t) 9 s))) := by
  simp [kernelCompleteEffect, hq, hfirst, harmed]

/-- A second run ends the kernel, and counts as failed where its CRC is wrong or it was forced. -/
theorem kernelCompleteEffect_rerun (hq : (tget s.tiles t).kernel = some q) (hagain : q.rerun = true) :
    kernelCompleteEffect t crc s = endKernel t q
      { first := q.firstCrc, last := crc, bad1 := q.firstReal, bad2 := crc != Config.kakExpected q.k }
      (if q.forced || crc != Config.kakExpected q.k then bump cntKakFail (unitId 0x01 t) (bump cntKakRun (unitId 0x01 t) s)
        else bump cntKakRun (unitId 0x01 t) s) := by
  have hself : { q with rerun := true } = q := by rw [← hagain]
  simp [kernelCompleteEffect, hq, hagain, hself]

theorem ledgerWriteEffect_writes (hout : s.bring.inReset = false) (ok : Bool) (f g : EccFinding) :
    ledgerWriteEffect ok f g s = controlEcc (unitId 0x10 0) g (controlEcc (unitId 0x0D 0) f (drainNow (writeRec ok s))) := by
  simp [ledgerWriteEffect, hout]

/-- A drain within its deadline completes once no job is left: it answers who waits, and a suspect device is RETIRED (R447, R448). -/
theorem drainCompleteEffect_answers (hdrains : s.integ.dstate = .draining) (hwithin : s.integ.drainOver = false)
    (hnone : jobsLeft s = false) (htk : s.integ.drainTk = some tk) (hsound : s.integ.drainSuspect = false) :
    drainCompleteEffect s = post tk stOk [] { s with integ := { s.integ with drainTk := none } } := by
  simp [drainCompleteEffect, hdrains, hwithin, hnone, htk, hsound, onInteg]

theorem drainCompleteEffect_retires (hdrains : s.integ.dstate = .draining) (hwithin : s.integ.drainOver = false)
    (hnone : jobsLeft s = false) (htk : s.integ.drainTk = none) (hsuspect : s.integ.drainSuspect = true) :
    drainCompleteEffect s = retire s := by
  simp [drainCompleteEffect, hdrains, hwithin, hnone, htk, hsuspect]

end IntegrityRules

/-- Settles O44: a kernel by its run and its CRC, the ledger's write, and a drain's end. -/
theorem integrityEvents : Obligations.IntegrityEvents := by
  unfold Obligations.IntegrityEvents
  refine ⟨fun s t k hout hen hruns hnone htile hkernel => ?start, fun s t i hi hon hout => ?confirm,
    fun s t k crc hk hfirst hfree hcrc => ?right, fun s t k crc hk hfirst hfree hcrc => ?wrong,
    fun s t k crc hk hagain hfree hcrc => ?again, fun s t k crc hk hfirst harmed => ?forced,
    fun s t k crc hk hagain hforced hcrc => ?forcedAgain, fun s t k crc hk hagain hcrc => ?wrongAgain,
    fun s ok f g hout => ?ledger, fun s hdrains hwithin hends hpast => ?deadline,
    fun s tk hdrains hwithin hnone htk hsound => ?answers, fun s hdrains hwithin hnone htk hsuspect => ?retires⟩
  case start => exact congrArg Host.Outcome.next (kernelStartEffect_starts hout hen hruns hnone htile hkernel)
  case confirm =>
    refine congrArg Host.Outcome.next (?_ : confirmationStartEffect t s = _)
    unfold confirmationStartEffect
    split
    · next j hj =>
      have hij : i = j := Option.some.inj (hi.symm.trans hj)
      rw [← hij, hon, hout]
      rfl
    · next hj => exact absurd (hi.symm.trans hj) nofun
  case right => exact congrArg Host.Outcome.next (kernelCompleteEffect_right hk hfirst hfree hcrc)
  case wrong => exact congrArg Host.Outcome.next (kernelCompleteEffect_wrong hk hfirst hfree hcrc)
  case again =>
    have hruns := kernelCompleteEffect_rerun (crc := crc) hk hagain
    rw [bne_eq_false_iff_eq.mpr hcrc, hfree, Bool.or_false, if_neg Bool.false_ne_true] at hruns
    exact congrArg Host.Outcome.next hruns
  case forced => exact congrArg Host.Outcome.next (kernelCompleteEffect_forced hk hfirst harmed)
  case forcedAgain =>
    have hruns := kernelCompleteEffect_rerun (crc := crc) hk hagain
    rw [bne_eq_false_iff_eq.mpr hcrc, hforced, Bool.or_false, if_pos rfl] at hruns
    exact congrArg Host.Outcome.next hruns
  case wrongAgain =>
    have hruns := kernelCompleteEffect_rerun (crc := crc) hk hagain
    rw [bne_iff_ne.mpr hcrc, Bool.or_true, if_pos rfl] at hruns
    exact congrArg Host.Outcome.next hruns
  case ledger => exact congrArg Host.Outcome.next (ledgerWriteEffect_writes hout ok f g)
  case deadline => exact congrArg Host.Outcome.next (if_pos ⟨hdrains, hwithin, hends, hpast⟩)
  case answers => exact congrArg Host.Outcome.next (drainCompleteEffect_answers hdrains hwithin hnone htk hsound)
  case retires => exact congrArg Host.Outcome.next (drainCompleteEffect_retires hdrains hwithin hnone htk hsuspect)

/-! ### Partitions -/

section PartitionRules

variable {s : State} {part : Nat}

/-- A reset ends with step 4's clearing and the final statuses, and the destroy that came meanwhile begins (R407, R408). -/
theorem partResetCompleteEffect_ends (hresets : (tget s.parts part).state = .resetting) (hnone : partAwaited s part = false) :
    partResetCompleteEffect part s = (
      let s1 := resetPart part s
      let s2 := postAll (tget s.parts part).resetTks stOk
        { s1 with parts := tmod s1.parts part (fun y => { y with state := .active, resetTks := [], laterTks := [] }) }
      if (tget s.parts part).laterTks = [] then s2 else beginDestroy part (tget s.parts part).laterTks s2) := by
  simp only [partResetCompleteEffect, hresets, hnone, ne_eq, not_true_eq_false, Bool.false_eq_true, or_self, if_false]

theorem partDestroyCompleteEffect_ends (hends : (tget s.parts part).state = .destroying) (hnone : partAwaited s part = false) :
    partDestroyCompleteEffect part s = postAll (tget s.parts part).lateResets stPartitionReset
      (postAll (tget s.parts part).destroyTks stOk (giveUp part (resetPart part s))) := by
  simp only [partDestroyCompleteEffect, hends, hnone, ne_eq, not_true_eq_false, Bool.false_eq_true, or_self, if_false]

end PartitionRules

/-- Settles O45: the ends of a partition's reset and destroy. -/
theorem partitionEvents : Obligations.PartitionEvents := by
  unfold Obligations.PartitionEvents
  refine ⟨fun s part hresets hnone hno => ?reset, fun s part hresets hnone hlater => ?resetThenDestroy,
    fun s part hends hnone => ?destroy⟩
  case reset => exact congrArg Host.Outcome.next ((partResetCompleteEffect_ends hresets hnone).trans (if_pos hno))
  case resetThenDestroy => exact congrArg Host.Outcome.next ((partResetCompleteEffect_ends hresets hnone).trans (if_neg hlater))
  case destroy => exact congrArg Host.Outcome.next (partDestroyCompleteEffect_ends hends hnone)

/-! ### The trace -/

theorem owlGroupTimerEffect_eq {s t : State} {f : EccFinding} (ht : t = owlPump 17 (owlEcc f s)) :
    owlGroupTimerEffect f s = if owlCanSend (min t.owl.group t.owl.buf.length) t
      then owlSend (min t.owl.group t.owl.buf.length) t else t := by
  subst ht
  rfl

theorem traceStopCompleteEffect_stops {s : State} (hruns : s.owl.running = true) (hstops : s.owl.stopping = true) (hempty : s.owl.buf = [])
    (hout : owlOut s = []) : traceStopCompleteEffect s = { s with owl := { s.owl with running := false, stopping := false } } :=
  if_pos (by rw [hruns, hstops, hempty, hout]; rfl)

/-- Settles O46: the trace's timer, its PERIODIC SYNC and its stop. -/
theorem traceEvents : Obligations.TraceEvents := by
  unfold Obligations.TraceEvents
  refine ⟨fun s t f ht hsends => ?sends, fun s t f ht hwaits => ?waits, fun s hbit => ?sync, fun s hruns hstops hempty hout => ?stop⟩
  case sends => exact congrArg Host.Outcome.next ((owlGroupTimerEffect_eq ht).trans (if_pos hsends))
  case waits => exact congrArg Host.Outcome.next ((owlGroupTimerEffect_eq ht).trans (if_neg (by rw [hwaits]; exact Bool.false_ne_true)))
  case sync => exact congrArg Host.Outcome.next (if_pos hbit)
  case stop => exact congrArg Host.Outcome.next (traceStopCompleteEffect_stops hruns hstops hempty hout)

/-! ### Firmware -/

section FirmwareRules

variable {s t : State} {tk n : Nat} {p : Bool} {r : Got}

section Load

variable (htk : s.fw.loadTk = some tk) (hr : r = sysRead viaProc s.fw.loadAddr s.fw.loadLen s)
  (ht : t = onFw (fun f => { f with loadTk := none }) r.s)
include htk hr ht

theorem patchLoadCompleteEffect_unread (hbad : r.reply.status ≠ 0) :
    patchLoadCompleteEffect p s = post tk r.reply.status r.reply.result t := by
  subst ht hr
  simp only [patchLoadCompleteEffect, htk, if_pos hbad]

/-- An image that was read is installed just where it passes and nothing of it came poisoned (R552). -/
theorem patchLoadCompleteEffect_read (hgood : r.reply.status = 0) :
    patchLoadCompleteEffect p s = if patchOk s.fw.loadLen r.bytes && r.bad.isEmpty && !p
      then raisePatch (post tk stOk [] (onFw (fun f => { f with patch := some (patchInfo r.bytes), rejected := false }) t))
      else raisePatch (post tk stPatchSignature [] (onFw (fun f => { f with rejected := true }) t)) := by
  subst ht hr
  simp only [patchLoadCompleteEffect, htk, if_neg (not_not_intro hgood)]

end Load

theorem patchRemoveCompleteEffect_removes (htk : s.fw.removeTk = some tk) :
    patchRemoveCompleteEffect s = raisePatch (post tk stOk [] (onFw (fun f => { f with removeTk := none, patch := none }) s)) := by
  simp only [patchRemoveCompleteEffect, htk]

theorem nonceExpiryEffect_ends {b : List Byte} (hnonce : s.fw.nonce = some b) (hold : s.fw.nonceTime + 10 ^ 9 ≤ s.timebase) :
    nonceExpiryEffect s = { s with fw := { s.fw with nonce := none } } :=
  if_pos (by rw [hnonce, nonceOver, decide_eq_true hold]; rfl)

end FirmwareRules

/-- Settles O47: a patch image by how it was read, the removal, and the nonce's 10 s. -/
theorem firmwareEvents : Obligations.FirmwareEvents := by
  unfold Obligations.FirmwareEvents
  refine ⟨fun s tk p r t htk hr ht => ⟨fun hgood hok hclean hp => ?installs, fun hgood hrejects => ?rejects, fun hbad => ?unread⟩,
    fun s tk htk => ?removes, fun s b hnonce hold => ?nonce⟩
  case installs =>
    exact congrArg Host.Outcome.next ((patchLoadCompleteEffect_read htk hr ht hgood).trans (if_pos (by rw [hok, hclean, hp]; rfl)))
  case rejects =>
    refine congrArg Host.Outcome.next ((patchLoadCompleteEffect_read htk hr ht hgood).trans (if_neg ?_))
    rcases hrejects with h | h | h <;> simp [h]
  case unread => exact congrArg Host.Outcome.next (patchLoadCompleteEffect_unread htk hr ht hbad)
  case removes => exact congrArg Host.Outcome.next (patchRemoveCompleteEffect_removes htk)
  case nonce => exact congrArg Host.Outcome.next (nonceExpiryEffect_ends hnonce hold)

/-! ### Reset -/

theorem reset_counter (cid inst : Nat) : counter State.reset cid inst = 0 := by
  unfold counter
  split <;> rfl

theorem reset_portBits (p : Nat) : (tget State.reset.ports p).view.bits = [] := by
  change (tget [(0, { admin := true }), (2, { admin := true })] p : Port).view.bits = []
  simp only [tget]
  split
  · rfl
  · split <;> rfl

theorem reset_viewOf (c : Nat) : (viewOf State.reset c).bits = [] := by
  have hunbound : boundPart State.reset c = none := by
    unfold boundPart
    split <;> rfl
  rw [viewOf, hunbound]
  exact reset_portBits (portOf c)

theorem reset_debugLocked : DebugLocked State.reset :=
  ⟨fun h => absurd h Bool.false_ne_true, fun h => absurd h Bool.false_ne_true⟩

theorem reset_managementLegal : ManagementLegal State.reset := by
  unfold ManagementLegal
  decide

/-- Settles O58: the reset state's tables hold their defaults, but for the ports' ADMIN. -/
theorem resetState : Obligations.ResetState := by
  unfold Obligations.ResetState
  exact ⟨rfl, rfl, rfl, rfl, rfl, fun a => rfl, reset_counter, fun n => rfl, fun n => rfl, reset_viewOf, fun k => rfl, rfl,
    reset_debugLocked, reset_managementLegal⟩

end Sys2Proof.Proofs
end
